-- ==== Sys2Proof/Word.lean ====
section
/-! DEFINITION. The word types and their plainest arithmetic (spec/00_scope.md R9: bit 0 is the least significant). -/

namespace Sys2Proof

/-- A 64-bit scalar, floating-point or control register value (spec/01_state.md R16, R34). -/
abbrev Word := BitVec 64

/-- One byte of memory. -/
abbrev Byte := BitVec 8

/-- A 57-bit virtual address: what the program counter holds (spec/01_state.md R17). -/
abbrev PC := BitVec 57

/-- A 32-bit instruction word (spec/03_encoding.md R78). -/
abbrev IWord := BitVec 32

/-- A scalar or f register field after R81: its top bit is 0 (spec/03_encoding.md). -/
abbrev SReg := BitVec 5

/-- A vector register field, v0 to v63 (spec/01_state.md R23). -/
abbrev VReg := BitVec 6

end Sys2Proof
end

