-- ==== Sys2Proof/Syntax.lean ====
section
/-! DEFINITION. The abstract syntax: one constructor of Instr for every row of spec/opcode_table.json, in the table's
order: the instructions of spec/03_encoding.md (R78 to R112) and the device's own events. -/

namespace Sys2Proof

/-- Source width of `sext` and `zext` (spec/03_encoding.md R84): 8, 16 or 32 bits. -/
inductive ExtW | b | h | w
  deriving DecidableEq, Repr

/-- Operand types of `fcvt` (spec/05_scalar_instructions.md R155). -/
inductive FcvtTy | l | lu | w | wu | s | d
  deriving DecidableEq, Repr

/-- Destination and source type of `fcvt`; R88 lists the legal pairs (WellFormed). -/
structure FcvtPair where
  dst : FcvtTy
  src : FcvtTy
  deriving DecidableEq, Repr

/-- Scope of `fence` (spec/03_encoding.md R89, spec/14_memory_ordering.md R349). -/
inductive FenceScope | seat | core | die | device | domain | system
  deriving DecidableEq, Repr

/-- Kinds of `fence`: read, write, async, lattice (spec/03_encoding.md R89). -/
structure FenceKinds where
  r : Bool
  w : Bool
  a : Bool
  l : Bool
  deriving DecidableEq, Repr

/-- Variant of `tlbi` (spec/03_encoding.md R89). -/
inductive TlbiKind | all | asid | addr
  deriving DecidableEq, Repr

/-- LANES of `setvl` (spec/03_encoding.md R91): a count of octets 0 to 8, or the current grant. -/
inductive LaneReq | octets (n : BitVec 4) | cur
  deriving DecidableEq, Repr

/-- The MOD prefix of a vector instruction (spec/03_encoding.md R108, R109): N, P and, when X = 1, the `.x` register. -/
structure ModPre where
  n : Bool
  p : Bool
  x : Option VReg
  deriving DecidableEq, Repr

/-- Modifiers of a vector instruction: the m bit and the MOD prefix, if there is one (R92, R109). -/
structure VMod where
  m : Bool
  pre : Option ModPre
  deriving DecidableEq, Repr

/-- The operand in field 19..14: a vector register (k = 0), or a scalar or f register (k = 1) (R92). -/
inductive VSrc | reg (v : VReg) | scalar (s : SReg)
  deriving DecidableEq, Repr

/-- Conditions of `vcmp` (R94). -/
inductive IntCmp | eq | ne | lt | le | gt | ge | ltu | leu | gtu | geu
  deriving DecidableEq, Repr

/-- Relations of `vfcmp` (R96). -/
inductive FltCmp | eq | ne | lt | le | gt | ge | uo
  deriving DecidableEq, Repr

/-- Operations of `vred` and `vscan` (R95). -/
inductive RedOp | add | min | max | minu | maxu | and | or | xor
  deriving DecidableEq, Repr

/-- Operations of `vfred` and `vfscan` (R96). -/
inductive FRedOp | sum | min | max
  deriving DecidableEq, Repr

/-- The source-format names of R97. -/
inductive SrcFmt | int8 | int16 | int32 | int64 | uint8 | uint16 | uint32 | uint64
  | fp64 | fp32 | bf16 | fp16 | e4m3 | e5m2 | int4 | el16 | el32
  deriving DecidableEq, Repr

/-- Width field of the M format (R99). -/
inductive MWidth | b | h | w | d | pk
  deriving DecidableEq, Repr

/-- Order field of the M format (R102). -/
inductive MOrd | unord | ord | ff
  deriving DecidableEq, Repr

/-- Pattern of `vldsl` and `vstp` (R100). -/
inductive SparsePat | p24b | p24h | p48b | p48h
  deriving DecidableEq, Repr

/-- Operations of `vamo` (R101). -/
inductive VAmoOp | add | and | or | xor | min | max | minu | maxu | swap
  deriving DecidableEq, Repr

/-- Tile formats (spec/09_matrix_lattice_format_instructions.md R237). -/
inductive TileFmt | int8 | fp64 | fp32 | bf16 | fp16 | e4m3 | e5m2 | int4 | el16 | el32
  deriving DecidableEq, Repr

/-- The sources of `fx` under the FX prefix: the base word's 13..8 and 19..14 and the prefix's e, in that order (R111). -/
inductive FxSrcs | one (a : VReg) | two (a b : VReg) | three (a b c : VReg)
  deriving DecidableEq, Repr

/-- The element-wise operations of major 0x18 (R93). -/
inductive IntOp | add | sub | rsub | mul | mulh | mulhu | macc | nmsac | div | divu | rem | remu
  | min | max | minu | maxu | and | or | xor | sll | srl | sra | clz | popc
  deriving DecidableEq, Repr

/-- The operations of major 0x1A that a pair admits: all but `vnclip` and `vnclip.u` (R93, R109). -/
inductive FixOp | sadd | saddU | ssub | ssubU | aadd | aaddU | smul | ssrl | ssra
  deriving DecidableEq, Repr

/-- The operations of major 0x20 (R96). -/
inductive FltOp | add | sub | mul | div | sqrt | rsqe | rece | exp2 | macc | nmacc | msac | nmsac
  | min | max | cls | sgnj | sgnjn | sgnjx
  deriving DecidableEq, Repr

/-- What one half of a pair computes: an element-wise instruction of majors 0x18, 0x1A or 0x20 (R109). -/
inductive PairOp | int (o : IntOp) | fix (o : FixOp) | flt (o : FltOp)
  deriving DecidableEq, Repr

/-- One half of a pair `a.m || b.mn`. A unary operation has `b = .reg 0`. The first half has m = 1 and no prefix, so
`x = none`; the second has N = 1, P = 1 and X as written (R109). -/
structure PairHalf where
  op : PairOp
  vd : VReg
  va : VReg
  b : VSrc
  x : Option VReg
  deriving DecidableEq, Repr

/-- A unit record of a flit (spec/23_host_and_links.md R472). -/
structure UnitRec where
  addr : Nat
  width : Nat
  data : BitVec 64
  deriving DecidableEq, Repr

/-- A flit (spec/23_host_and_links.md R472): its header fields, the unit records or the line bytes it carries. -/
structure Flit where
  type : Nat
  line : Bool
  len : Nat
  src : Nat
  dst : Nat
  owner : Nat
  tag : Nat
  seq : Nat
  addr : Nat
  aux : Nat
  recs : List UnitRec
  bytes : List Byte
  deriving DecidableEq, Repr

/-- What a host's read of an 8-byte register takes: all of it, or its low or high four bytes (R467). -/
inductive RegPart | whole | low | high
  deriving DecidableEq, Repr

/-- A host's read of one of several like registers: which (a queue, a die, an offset), and what of it. -/
structure RegRead where
  reg : Nat
  part : RegPart
  deriving DecidableEq, Repr

/-- An agent that sends heartbeats (spec/23_host_and_links.md R479). -/
inductive AgentId | core (n : Nat) | die (n : Nat) | peer (n : Nat)
  deriving DecidableEq, Repr

/-- The outcome of one start attempt (spec/24_startup.md R482): it reaches READY, or it stops at a step with a failure
code and its detail. -/
inductive StartFail | ok | fail (step code det : Nat)
  deriving DecidableEq, Repr

/-- The instructions and events of the part: one constructor per row of spec/opcode_table.json. -/
inductive Instr
  /-- ADD (R138): Adds two scalar registers modulo 2^64. -/
  | add (d a b : SReg)
  /-- SUB (R138): Subtracts one scalar register from another modulo 2^64. -/
  | sub (d a b : SReg)
  /-- AND (R138): Bitwise AND of two scalar registers. -/
  | and (d a b : SReg)
  /-- OR (R138): Bitwise OR of two scalar registers. -/
  | or (d a b : SReg)
  /-- XOR (R138): Bitwise XOR of two scalar registers. -/
  | xor (d a b : SReg)
  /-- ANDN (R138): Computes a AND NOT b. -/
  | andn (d a b : SReg)
  /-- SLL (R138): Shifts left by b mod 64. -/
  | sll (d a b : SReg)
  /-- SRL (R138): Shifts right logically by b mod 64. -/
  | srl (d a b : SReg)
  /-- SRA (R138): Shifts right arithmetically by b mod 64. -/
  | sra (d a b : SReg)
  /-- SLT (R138): Writes 1 if a is less than b signed. -/
  | slt (d a b : SReg)
  /-- SLTU (R138): Writes 1 if a is less than b unsigned. -/
  | sltu (d a b : SReg)
  /-- MIN (R138): Signed minimum of two scalar registers. -/
  | min (d a b : SReg)
  /-- MAX (R138): Signed maximum of two scalar registers. -/
  | max (d a b : SReg)
  /-- MINU (R138): Unsigned minimum of two scalar registers. -/
  | minu (d a b : SReg)
  /-- MAXU (R138): Unsigned maximum of two scalar registers. -/
  | maxu (d a b : SReg)
  /-- MUL (R138): Low 64 bits of the product. -/
  | mul (d a b : SReg)
  /-- MULH (R138): High 64 bits of the signed product. -/
  | mulh (d a b : SReg)
  /-- MULHU (R138): High 64 bits of the unsigned product. -/
  | mulhu (d a b : SReg)
  /-- DIV (R138): Signed division on the shared integer divider under R57. -/
  | div (d a b : SReg)
  /-- DIVU (R138): Unsigned division under R57. -/
  | divu (d a b : SReg)
  /-- REM (R138): Signed remainder under R57. -/
  | rem (d a b : SReg)
  /-- REMU (R138): Unsigned remainder under R57. -/
  | remu (d a b : SReg)
  /-- CLZ (R138): Counts leading zero bits. -/
  | clz (d a : SReg)
  /-- CTZ (R138): Counts trailing zero bits. -/
  | ctz (d a : SReg)
  /-- POPC (R138): Counts one bits. -/
  | popc (d a : SReg)
  /-- SEXT (R138): Sign-extends from 8, 16 or 32 bits. -/
  | sext (d a : SReg) (wid : ExtW)
  /-- ZEXT (R138): Zero-extends from 8, 16 or 32 bits. -/
  | zext (d a : SReg) (wid : ExtW)
  /-- ADDI (R139): Adds a signed 14-bit immediate. -/
  | addi (d a : SReg) (imm : BitVec 14)
  /-- ADDI_WIDE (R110): addi with a 34-bit immediate under the WIDE prefix. -/
  | addiWide (d a : SReg) (imm : BitVec 34)
  /-- ANDI (R139): AND with a signed 12-bit immediate. -/
  | andi (d a : SReg) (imm : BitVec 12)
  /-- ORI (R139): OR with a signed 12-bit immediate. -/
  | ori (d a : SReg) (imm : BitVec 12)
  /-- XORI (R139): XOR with a signed 12-bit immediate. -/
  | xori (d a : SReg) (imm : BitVec 12)
  /-- SLLI (R139): Shifts left by an immediate amount. -/
  | slli (d a : SReg) (sh : BitVec 6)
  /-- SRLI (R139): Shifts right logically by an immediate amount. -/
  | srli (d a : SReg) (sh : BitVec 6)
  /-- SRAI (R139): Shifts right arithmetically by an immediate amount. -/
  | srai (d a : SReg) (sh : BitVec 6)
  /-- SLTI (R139): Signed compare with a 13-bit immediate. -/
  | slti (d a : SReg) (imm : BitVec 13)
  /-- SLTIU (R139): Unsigned compare with the sign-extended 13-bit immediate. -/
  | sltiu (d a : SReg) (imm : BitVec 13)
  /-- LHI (R140): Loads a sign-extended immediate shifted left by 12. -/
  | lhi (d : SReg) (imm : BitVec 20)
  /-- LHI_WIDE (R110): lhi with a 40-bit immediate under WIDE. -/
  | lhiWide (d : SReg) (imm : BitVec 40)
  /-- LPC (R140): Writes PC plus an immediate shifted left by 12. -/
  | lpc (d : SReg) (imm : BitVec 20)
  /-- LPC_WIDE (R110): lpc with a 40-bit immediate under WIDE. -/
  | lpcWide (d : SReg) (imm : BitVec 40)
  /-- BEQ (R141): Branches when the registers are equal. -/
  | beq (a b : SReg) (off : BitVec 14)
  /-- BNE (R141): Branches when the registers differ. -/
  | bne (a b : SReg) (off : BitVec 14)
  /-- BLT (R141): Branches when sa is less than sb, signed. -/
  | blt (a b : SReg) (off : BitVec 14)
  /-- BGE (R141): Branches when sa is at least sb, signed. -/
  | bge (a b : SReg) (off : BitVec 14)
  /-- BLTU (R141): Branches when sa is less than sb, unsigned. -/
  | bltu (a b : SReg) (off : BitVec 14)
  /-- BGEU (R141): Branches when sa is at least sb, unsigned. -/
  | bgeu (a b : SReg) (off : BitVec 14)
  /-- JLR (R142): Jumps to sa plus an offset and links PC + 4. -/
  | jlr (d a : SReg) (off : BitVec 14)
  /-- J (R86): Jumps PC-relative. -/
  | j (off : BitVec 26)
  /-- JL (R142): Jumps PC-relative and writes the link to s31. -/
  | jl (off : BitVec 26)
  /-- LD_B (R143): Loads a sign-extended byte. -/
  | ldB (d a : SReg) (acq : Bool) (imm : BitVec 10)
  /-- LD_H (R143): Loads a sign-extended halfword. -/
  | ldH (d a : SReg) (acq : Bool) (imm : BitVec 10)
  /-- LD_W (R143): Loads a sign-extended word. -/
  | ldW (d a : SReg) (acq : Bool) (imm : BitVec 10)
  /-- LD_D (R143): Loads a doubleword. -/
  | ldD (d a : SReg) (acq : Bool) (imm : BitVec 10)
  /-- LD_BU (R143): Loads a zero-extended byte. -/
  | ldBu (d a : SReg) (acq : Bool) (imm : BitVec 10)
  /-- LD_HU (R143): Loads a zero-extended halfword. -/
  | ldHu (d a : SReg) (acq : Bool) (imm : BitVec 10)
  /-- LD_WU (R143): Loads a zero-extended word. -/
  | ldWu (d a : SReg) (acq : Bool) (imm : BitVec 10)
  /-- ST_B (R143): Stores a byte. -/
  | stB (d a : SReg) (rel : Bool) (imm : BitVec 10)
  /-- ST_H (R143): Stores a halfword. -/
  | stH (d a : SReg) (rel : Bool) (imm : BitVec 10)
  /-- ST_W (R143): Stores a word. -/
  | stW (d a : SReg) (rel : Bool) (imm : BitVec 10)
  /-- ST_D (R143): Stores a doubleword. -/
  | stD (d a : SReg) (rel : Bool) (imm : BitVec 10)
  /-- LD_B_INDEXED (R87): Loads a sign-extended byte at sa + sb. -/
  | ldBIndexed (d a b : SReg) (acq : Bool)
  /-- LD_H_INDEXED (R87): Loads a sign-extended halfword at sa + sb. -/
  | ldHIndexed (d a b : SReg) (acq : Bool)
  /-- LD_W_INDEXED (R87): Loads a sign-extended word at sa + sb. -/
  | ldWIndexed (d a b : SReg) (acq : Bool)
  /-- LD_D_INDEXED (R87): Loads a doubleword at sa + sb. -/
  | ldDIndexed (d a b : SReg) (acq : Bool)
  /-- LD_BU_INDEXED (R87): Loads a zero-extended byte at sa + sb. -/
  | ldBuIndexed (d a b : SReg) (acq : Bool)
  /-- LD_HU_INDEXED (R87): Loads a zero-extended halfword at sa + sb. -/
  | ldHuIndexed (d a b : SReg) (acq : Bool)
  /-- LD_WU_INDEXED (R87): Loads a zero-extended word at sa + sb. -/
  | ldWuIndexed (d a b : SReg) (acq : Bool)
  /-- ST_B_INDEXED (R87): Stores a byte at sa + sb. -/
  | stBIndexed (d a b : SReg) (rel : Bool)
  /-- ST_H_INDEXED (R87): Stores a halfword at sa + sb. -/
  | stHIndexed (d a b : SReg) (rel : Bool)
  /-- ST_W_INDEXED (R87): Stores a word at sa + sb. -/
  | stWIndexed (d a b : SReg) (rel : Bool)
  /-- ST_D_INDEXED (R87): Stores a doubleword at sa + sb. -/
  | stDIndexed (d a b : SReg) (rel : Bool)
  /-- AMO_ADD (R148): Atomic add at the coherence point, returning the old value. -/
  | amoAdd (d a b : SReg) (dbl rel acq : Bool)
  /-- AMO_AND (R148): Atomic AND. -/
  | amoAnd (d a b : SReg) (dbl rel acq : Bool)
  /-- AMO_OR (R148): Atomic OR. -/
  | amoOr (d a b : SReg) (dbl rel acq : Bool)
  /-- AMO_XOR (R148): Atomic XOR. -/
  | amoXor (d a b : SReg) (dbl rel acq : Bool)
  /-- AMO_MIN (R148): Atomic signed minimum. -/
  | amoMin (d a b : SReg) (dbl rel acq : Bool)
  /-- AMO_MAX (R148): Atomic signed maximum. -/
  | amoMax (d a b : SReg) (dbl rel acq : Bool)
  /-- AMO_MINU (R148): Atomic unsigned minimum. -/
  | amoMinu (d a b : SReg) (dbl rel acq : Bool)
  /-- AMO_MAXU (R148): Atomic unsigned maximum. -/
  | amoMaxu (d a b : SReg) (dbl rel acq : Bool)
  /-- AMO_SWAP (R148): Atomic swap. -/
  | amoSwap (d a b : SReg) (dbl rel acq : Bool)
  /-- CAS (R148): Atomic compare and swap. -/
  | cas (d a b : SReg) (dbl rel acq : Bool)
  /-- FADD (R152): Scalar floating-point addition under FRM. -/
  | fadd (d a b : SReg) (dbl : Bool)
  /-- FSUB (R152): Scalar floating-point subtraction. -/
  | fsub (d a b : SReg) (dbl : Bool)
  /-- FMUL (R152): Scalar floating-point multiplication. -/
  | fmul (d a b : SReg) (dbl : Bool)
  /-- FDIV (R152): Scalar floating-point division on the shared divider. -/
  | fdiv (d a b : SReg) (dbl : Bool)
  /-- FSQRT (R152): Scalar floating-point square root. -/
  | fsqrt (d a : SReg) (dbl : Bool)
  /-- FMIN (R152): Scalar minimumNumber. -/
  | fmin (d a b : SReg) (dbl : Bool)
  /-- FMAX (R152): Scalar maximumNumber. -/
  | fmax (d a b : SReg) (dbl : Bool)
  /-- FCMP_EQ (R153): Scalar equality compare into a scalar register. -/
  | fcmpEq (d a b : SReg) (dbl : Bool)
  /-- FCMP_LT (R153): Scalar less-than compare. -/
  | fcmpLt (d a b : SReg) (dbl : Bool)
  /-- FCMP_LE (R153): Scalar less-or-equal compare. -/
  | fcmpLe (d a b : SReg) (dbl : Bool)
  /-- FCMP_UO (R153): Scalar unordered compare. -/
  | fcmpUo (d a b : SReg) (dbl : Bool)
  /-- FCLASS (R154): Writes the class value of an f register. -/
  | fclass (d a : SReg) (dbl : Bool)
  /-- FMADD (R152): Fused multiply-add, rounded once. -/
  | fmadd (d a b c : SReg) (dbl : Bool)
  /-- FMSUB (R152): Fused multiply-subtract. -/
  | fmsub (d a b c : SReg) (dbl : Bool)
  /-- FNMADD (R152): Negated fused multiply-add. -/
  | fnmadd (d a b c : SReg) (dbl : Bool)
  /-- FCVT (R155): Converts between integer and floating-point types. -/
  | fcvt (d a : SReg) (conv : FcvtPair)
  /-- FMV_S (R156): Copies a binary32 value between f registers, boxed. -/
  | fmvS (d a : SReg)
  /-- FMV_D (R156): Copies 64 bits between f registers. -/
  | fmvD (d a : SReg)
  /-- FMV_X (R156): Copies 64 raw bits from an f register to a scalar register. -/
  | fmvX (d a : SReg)
  /-- FMV_F (R156): Copies 64 raw bits from a scalar register to an f register. -/
  | fmvF (d a : SReg)
  /-- TRAP (R276): Raises supervisor call, cause 0x10. -/
  | trap (code : BitVec 12)
  /-- ERET (R43): Returns from a supervisor or user trap handler. -/
  | eret
  /-- BRK (R276): Raises breakpoint, cause 0x0F. -/
  | brk (code : BitVec 12)
  /-- FENCE (R278): Orders older before younger accesses of the named kinds at the named scope. -/
  | fence (scope : FenceScope) (kinds : FenceKinds)
  /-- FENCEI (R279): Makes visible stores visible to later fetches. -/
  | fencei
  /-- TLBI (R280): Drops translations from every TLB of the device. -/
  | tlbi (v : TlbiKind) (a b : SReg)
  /-- CTXSV (R281): Saves the interrupted thread to a save area. -/
  | ctxsv (a : SReg)
  /-- CTXLD (R281): Restores a thread from a save area and requests its saved grant. -/
  | ctxld (a : SReg)
  /-- HALT (R282): Drains the load-store queue and stops the seat. -/
  | halt
  /-- XRD (R32): Reads a control register. -/
  | xrd (d : SReg) (n : BitVec 12)
  /-- XWR (R32): Writes a control register. -/
  | xwr (n : BitVec 12) (a : SReg)
  /-- XSET (R32): Sets bits of a control register and returns the old value. -/
  | xset (d : SReg) (n : BitVec 12) (a : SReg)
  /-- XCLR (R32): Clears bits of a control register and returns the old value. -/
  | xclr (d : SReg) (n : BitVec 12) (a : SReg)
  /-- SETVL (R164): Sets the grant, the type and the vector length. -/
  | setvl (d a b : SReg) (lanes : LaneReq)
  /-- VCFG (R170): Writes VTYPE without changing the grant. -/
  | vcfg (a : SReg)
  /-- VSHAPE (R171): Writes VSHAPE and invalidates every vector register. -/
  | vshape (n : BitVec 2)
  /-- SETVLI (R169): setvl with an immediate type and the current grant. -/
  | setvli (d a : SReg) (imm : BitVec 14)
  /-- VADD (R172): Element-wise integer add. -/
  | vadd (vd va : VReg) (b : VSrc) (md : VMod)
  /-- VSUB (R172): Element-wise integer subtract. -/
  | vsub (vd va : VReg) (b : VSrc) (md : VMod)
  /-- VRSUB (R172): Element-wise reverse subtract. -/
  | vrsub (vd va : VReg) (b : VSrc) (md : VMod)
  /-- VMUL (R172): Element-wise low product. -/
  | vmul (vd va : VReg) (b : VSrc) (md : VMod)
  /-- VMULH (R172): Element-wise signed high product. -/
  | vmulh (vd va : VReg) (b : VSrc) (md : VMod)
  /-- VMULHU (R172): Element-wise unsigned high product. -/
  | vmulhu (vd va : VReg) (b : VSrc) (md : VMod)
  /-- VMACC (R172): Element-wise multiply-accumulate. -/
  | vmacc (vd va : VReg) (b : VSrc) (md : VMod)
  /-- VNMSAC (R172): Element-wise negated multiply-accumulate. -/
  | vnmsac (vd va : VReg) (b : VSrc) (md : VMod)
  /-- VDIV (R172): Element-wise signed division. -/
  | vdiv (vd va : VReg) (b : VSrc) (md : VMod)
  /-- VDIVU (R172): Element-wise unsigned division. -/
  | vdivu (vd va : VReg) (b : VSrc) (md : VMod)
  /-- VREM (R172): Element-wise signed remainder. -/
  | vrem (vd va : VReg) (b : VSrc) (md : VMod)
  /-- VREMU (R172): Element-wise unsigned remainder. -/
  | vremu (vd va : VReg) (b : VSrc) (md : VMod)
  /-- VMIN (R172): Element-wise signed minimum. -/
  | vmin (vd va : VReg) (b : VSrc) (md : VMod)
  /-- VMAX (R172): Element-wise signed maximum. -/
  | vmax (vd va : VReg) (b : VSrc) (md : VMod)
  /-- VMINU (R172): Element-wise unsigned minimum. -/
  | vminu (vd va : VReg) (b : VSrc) (md : VMod)
  /-- VMAXU (R172): Element-wise unsigned maximum. -/
  | vmaxu (vd va : VReg) (b : VSrc) (md : VMod)
  /-- VAND (R172): Element-wise AND. -/
  | vand (vd va : VReg) (b : VSrc) (md : VMod)
  /-- VOR (R172): Element-wise OR. -/
  | vor (vd va : VReg) (b : VSrc) (md : VMod)
  /-- VXOR (R172): Element-wise XOR. -/
  | vxor (vd va : VReg) (b : VSrc) (md : VMod)
  /-- VSLL (R172): Element-wise shift left. -/
  | vsll (vd va : VReg) (b : VSrc) (md : VMod)
  /-- VSRL (R172): Element-wise logical shift right. -/
  | vsrl (vd va : VReg) (b : VSrc) (md : VMod)
  /-- VSRA (R172): Element-wise arithmetic shift right. -/
  | vsra (vd va : VReg) (b : VSrc) (md : VMod)
  /-- VCLZ (R172): Element-wise leading-zero count. -/
  | vclz (vd va : VReg) (md : VMod)
  /-- VPOPC (R172): Element-wise population count. -/
  | vpopc (vd va : VReg) (md : VMod)
  /-- VWADD (R173): Widening signed add. -/
  | vwadd (vd va : VReg) (b : VSrc) (md : VMod)
  /-- VWADD_U (R173): Widening unsigned add. -/
  | vwaddU (vd va : VReg) (b : VSrc) (md : VMod)
  /-- VWSUB (R173): Widening signed subtract. -/
  | vwsub (vd va : VReg) (b : VSrc) (md : VMod)
  /-- VWSUB_U (R173): Widening unsigned subtract. -/
  | vwsubU (vd va : VReg) (b : VSrc) (md : VMod)
  /-- VWMUL (R173): Widening signed multiply. -/
  | vwmul (vd va : VReg) (b : VSrc) (md : VMod)
  /-- VWMUL_U (R173): Widening unsigned multiply. -/
  | vwmulU (vd va : VReg) (b : VSrc) (md : VMod)
  /-- VWMUL_SU (R173): Widening signed-by-unsigned multiply. -/
  | vwmulSu (vd va : VReg) (b : VSrc) (md : VMod)
  /-- VWMACC (R173): Widening signed multiply-accumulate. -/
  | vwmacc (vd va : VReg) (b : VSrc) (md : VMod)
  /-- VWMACC_U (R173): Widening unsigned multiply-accumulate. -/
  | vwmaccU (vd va : VReg) (b : VSrc) (md : VMod)
  /-- VWMACC_SU (R173): Widening signed-by-unsigned multiply-accumulate. -/
  | vwmaccSu (vd va : VReg) (b : VSrc) (md : VMod)
  /-- VNSRL (R174): Narrowing logical shift right. -/
  | vnsrl (vd va : VReg) (b : VSrc) (md : VMod)
  /-- VNSRA (R174): Narrowing arithmetic shift right. -/
  | vnsra (vd va : VReg) (b : VSrc) (md : VMod)
  /-- VSADD (R175): Saturating signed add. -/
  | vsadd (vd va : VReg) (b : VSrc) (md : VMod)
  /-- VSADD_U (R175): Saturating unsigned add. -/
  | vsaddU (vd va : VReg) (b : VSrc) (md : VMod)
  /-- VSSUB (R175): Saturating signed subtract. -/
  | vssub (vd va : VReg) (b : VSrc) (md : VMod)
  /-- VSSUB_U (R175): Saturating unsigned subtract. -/
  | vssubU (vd va : VReg) (b : VSrc) (md : VMod)
  /-- VAADD (R175): Averaging signed add. -/
  | vaadd (vd va : VReg) (b : VSrc) (md : VMod)
  /-- VAADD_U (R175): Averaging unsigned add. -/
  | vaaddU (vd va : VReg) (b : VSrc) (md : VMod)
  /-- VSMUL (R175): Fractional saturating multiply. -/
  | vsmul (vd va : VReg) (b : VSrc) (md : VMod)
  /-- VSSRL (R175): Rounding logical shift right. -/
  | vssrl (vd va : VReg) (b : VSrc) (md : VMod)
  /-- VSSRA (R175): Rounding arithmetic shift right. -/
  | vssra (vd va : VReg) (b : VSrc) (md : VMod)
  /-- VNCLIP (R175): Narrowing signed clip with rounding. -/
  | vnclip (vd va : VReg) (b : VSrc) (md : VMod)
  /-- VNCLIP_U (R175): Narrowing unsigned clip with rounding. -/
  | vnclipU (vd va : VReg) (b : VSrc) (md : VMod)
  /-- VCMP (R176): Integer compare into a mask. -/
  | vcmp (cc : IntCmp) (vd va : VReg) (b : VSrc) (md : VMod)
  /-- VCMP_BRK (R177): Compare that stops at the first true element and truncates VL. -/
  | vcmpBrk (cc : IntCmp) (vd va : VReg) (b : VSrc) (md : VMod)
  /-- MK_AND (R179): Mask AND. -/
  | mkAnd (vd va vb : VReg) (md : VMod)
  /-- MK_OR (R179): Mask OR. -/
  | mkOr (vd va vb : VReg) (md : VMod)
  /-- MK_XOR (R179): Mask XOR. -/
  | mkXor (vd va vb : VReg) (md : VMod)
  /-- MK_ANDN (R179): Mask AND NOT. -/
  | mkAndn (vd va vb : VReg) (md : VMod)
  /-- MK_NOT (R179): Mask NOT. -/
  | mkNot (vd va : VReg) (md : VMod)
  /-- MCOUNT (R180): Counts set active mask bits into a scalar register. -/
  | mcount (d : SReg) (va : VReg) (md : VMod)
  /-- MFIRST (R180): Writes the index of the first set active mask bit. -/
  | mfirst (d : SReg) (va : VReg) (md : VMod)
  /-- VRANK (R181): Writes the exclusive prefix count of mask bits. -/
  | vrank (vd va : VReg) (md : VMod)
  /-- VINDEX (R181): Writes each element's index. -/
  | vindex (vd : VReg) (md : VMod)
  /-- VMV (R182): Copies active elements from a vector. -/
  | vmv (vd va : VReg) (md : VMod)
  /-- VMV_SCALAR (R182): Writes a scalar into every active element. -/
  | vmvScalar (vd : VReg) (a : SReg) (md : VMod)
  /-- VMV_SV (R182): Writes element 0 into a scalar register. -/
  | vmvSv (d : SReg) (va : VReg) (md : VMod)
  /-- VMV_VS (R182): Writes a scalar into element 0. -/
  | vmvVs (vd : VReg) (a : SReg) (md : VMod)
  /-- VSLIDEU (R183): Slides elements up by an offset. -/
  | vslideu (vd va : VReg) (b : SReg) (md : VMod)
  /-- VSLIDED (R183): Slides elements down by an offset. -/
  | vslided (vd va : VReg) (b : SReg) (md : VMod)
  /-- VPERM (R184): Permutes by an index vector. -/
  | vperm (vd va vb : VReg) (md : VMod)
  /-- VCOMPR (R185): Compresses selected elements and sets VL to their count. -/
  | vcompr (vd va vb : VReg) (md : VMod)
  /-- VEXPD (R186): Expands elements to selected positions. -/
  | vexpd (vd va vb : VReg) (md : VMod)
  /-- VMERGE (R187): Selects between two sources under v0. -/
  | vmerge (vd va : VReg) (b : VSrc) (md : VMod)
  /-- VTOPK (R188): Marks the k elements of greatest magnitude in a mask. -/
  | vtopk (vd va : VReg) (b : SReg) (md : VMod)
  /-- VRED (R189): Integer reduction into a scalar register. -/
  | vred (op : RedOp) (d : SReg) (va : VReg) (b : SReg) (md : VMod)
  /-- VSCAN (R190): Integer inclusive scan. -/
  | vscan (op : RedOp) (vd va : VReg) (b : SReg) (md : VMod)
  /-- VFADD (R199): Vector floating-point add. -/
  | vfadd (vd va : VReg) (b : VSrc) (md : VMod)
  /-- VFSUB (R199): Vector floating-point subtract. -/
  | vfsub (vd va : VReg) (b : VSrc) (md : VMod)
  /-- VFMUL (R199): Vector floating-point multiply. -/
  | vfmul (vd va : VReg) (b : VSrc) (md : VMod)
  /-- VFDIV (R199): Vector floating-point divide. -/
  | vfdiv (vd va : VReg) (b : VSrc) (md : VMod)
  /-- VFSQRT (R199): Vector square root. -/
  | vfsqrt (vd va : VReg) (md : VMod)
  /-- VFRSQE (R201): Vector reciprocal square-root estimate. -/
  | vfrsqe (vd va : VReg) (md : VMod)
  /-- VFRECE (R200): Vector reciprocal estimate. -/
  | vfrece (vd va : VReg) (md : VMod)
  /-- VFEXP2 (R202): Vector 2^a, correctly rounded. -/
  | vfexp2 (vd va : VReg) (md : VMod)
  /-- VFMACC (R199): Vector fused multiply-accumulate. -/
  | vfmacc (vd va : VReg) (b : VSrc) (md : VMod)
  /-- VFNMACC (R199): Vector negated multiply-accumulate. -/
  | vfnmacc (vd va : VReg) (b : VSrc) (md : VMod)
  /-- VFMSAC (R199): Vector multiply-subtract accumulate. -/
  | vfmsac (vd va : VReg) (b : VSrc) (md : VMod)
  /-- VFNMSAC (R199): Vector negated multiply-subtract accumulate. -/
  | vfnmsac (vd va : VReg) (b : VSrc) (md : VMod)
  /-- VFMIN (R199): Vector minimumNumber. -/
  | vfmin (vd va : VReg) (b : VSrc) (md : VMod)
  /-- VFMAX (R199): Vector maximumNumber. -/
  | vfmax (vd va : VReg) (b : VSrc) (md : VMod)
  /-- VFCLASS (R203): Vector class values. -/
  | vfclass (vd va : VReg) (md : VMod)
  /-- VFSGNJ (R203): Sign injection. -/
  | vfsgnj (vd va : VReg) (b : VSrc) (md : VMod)
  /-- VFSGNJ_N (R203): Negated sign injection. -/
  | vfsgnjN (vd va : VReg) (b : VSrc) (md : VMod)
  /-- VFSGNJ_X (R203): XOR sign injection. -/
  | vfsgnjX (vd va : VReg) (b : VSrc) (md : VMod)
  /-- VFCMP (R204): Floating-point compare into a mask. -/
  | vfcmp (cc : FltCmp) (vd va : VReg) (b : VSrc) (md : VMod)
  /-- VFCVT (R205): Widening or same-width format conversion. -/
  | vfcvt (vd va : VReg) (src : SrcFmt) (md : VMod)
  /-- VFNCVT (R205): Narrowing format conversion. -/
  | vfncvt (vd va : VReg) (src : SrcFmt) (md : VMod)
  /-- VFWADD (R207): Widening floating-point add. -/
  | vfwadd (vd va : VReg) (b : VSrc) (md : VMod)
  /-- VFWMUL (R207): Widening floating-point multiply. -/
  | vfwmul (vd va : VReg) (b : VSrc) (md : VMod)
  /-- VFWMACC (R207): Widening floating-point multiply-accumulate. -/
  | vfwmacc (vd va : VReg) (b : VSrc) (md : VMod)
  /-- VFRED (R208): Tree-ordered floating-point reduction into an f register. -/
  | vfred (op : FRedOp) (d : SReg) (va : VReg) (b : SReg) (md : VMod)
  /-- VFREDO_SUM (R208): Sequential floating-point sum into an f register. -/
  | vfredoSum (d : SReg) (va : VReg) (b : SReg) (md : VMod)
  /-- VFSCAN (R209): Floating-point inclusive scan with carry-in. -/
  | vfscan (op : FRedOp) (vd va : VReg) (c : SReg) (md : VMod)
  /-- VLREC (R210): Linear recurrence in element order with FP32 state. -/
  | vlrec (vd va : VReg) (c : SReg) (md : VMod)
  /-- VLQ (R251): Quantises into EL16 or EL32. -/
  | vlq (vd va : VReg) (src : SrcFmt) (md : VMod)
  /-- VLX (R252): Decodes EL16 or EL32 into a floating-point format. -/
  | vlx (vd va : VReg) (src : SrcFmt) (md : VMod)
  /-- VLRQ (R251): Requantises between EL formats. -/
  | vlrq (vd va : VReg) (src : SrcFmt) (md : VMod)
  /-- PAIR (R191): Masked pair a.m || b.mn issued as one unit. -/
  | pair (x y : PairHalf)
  /-- VLD (R217): Unit-stride vector load. -/
  | vld (vd : VReg) (a : SReg) (wid : MWidth) (md : VMod) (mo : MOrd)
  /-- VLDS (R217): Strided vector load. -/
  | vlds (vd : VReg) (a b : SReg) (wid : MWidth) (md : VMod) (mo : MOrd)
  /-- VLDX (R217): Indexed vector load. -/
  | vldx (vd : VReg) (a : SReg) (vi : VReg) (wid : MWidth) (md : VMod) (mo : MOrd)
  /-- VLSEG (R224): Segment load of nf fields. -/
  | vlseg (vd : VReg) (a : SReg) (nf : BitVec 3) (wid : MWidth) (md : VMod) (mo : MOrd)
  /-- VST (R217): Unit-stride vector store. -/
  | vst (vs : VReg) (a : SReg) (wid : MWidth) (md : VMod) (mo : MOrd)
  /-- VSTS (R217): Strided vector store. -/
  | vsts (vs : VReg) (a b : SReg) (wid : MWidth) (md : VMod) (mo : MOrd)
  /-- VSTX (R217): Indexed vector store. -/
  | vstx (vs : VReg) (a : SReg) (vi : VReg) (wid : MWidth) (md : VMod) (mo : MOrd)
  /-- VSSEG (R224): Segment store of nf fields. -/
  | vsseg (vs : VReg) (a : SReg) (nf : BitVec 3) (wid : MWidth) (md : VMod) (mo : MOrd)
  /-- VLDSL (R228): Loads and decodes sparse lines. -/
  | vldsl (vd : VReg) (a : SReg) (p : SparsePat) (md : VMod) (mo : MOrd)
  /-- VSTP (R229): Prunes to N:M and stores sparse lines up to a limit. -/
  | vstp (vs : VReg) (a sl : SReg) (p : SparsePat) (md : VMod) (mo : MOrd)
  /-- VSTC (R230): Compressing store of active units up to a limit. -/
  | vstc (vs : VReg) (a sl : SReg) (wid : MWidth) (md : VMod) (mo : MOrd)
  /-- VAMO (R227): Per-unit atomic operation at indexed addresses. -/
  | vamo (op : VAmoOp) (dbl : Bool) (vd : VReg) (a : SReg) (vi : VReg) (md : VMod) (mo : MOrd)
  /-- VSTXR (R233): Remote scatter sent as trains per destination device. -/
  | vstxr (vs : VReg) (a : SReg) (vi : VReg) (wid : MWidth) (md : VMod) (mo : MOrd)
  /-- VSTJ (R226): Unit-stride join of units into lattice cells. -/
  | vstj (vs : VReg) (a : SReg) (wid : MWidth) (md : VMod) (mo : MOrd)
  /-- VSTJ_INDEXED (R226): Indexed join of units into lattice cells. -/
  | vstjIndexed (vs : VReg) (a : SReg) (vi : VReg) (wid : MWidth) (md : VMod) (mo : MOrd)
  /-- MXR (R244): Multiplies a vector by a stationary tile into an accumulator row. -/
  | mxr (vd vs : VReg) (tb : Bool)
  /-- MXRI (R244): Indexed-row matrix product. -/
  | mxri (vd vs vi : VReg) (tb : Bool)
  /-- MXRT (R244): Transposed matrix product. -/
  | mxrt (vd vs : VReg) (tb : Bool)
  /-- TLD (R239): Checks and starts an asynchronous tile load. -/
  | tld (tb : Bool) (a b : SReg) (fmt : TileFmt)
  /-- TWAIT (R241): Waits until a tile load completes. -/
  | twait (tb : Bool)
  /-- TZERO (R242): Clears a tile register and its tag. -/
  | tzero (tb : Bool)
  /-- FX (R261): Executes a fabric opcode on one source. -/
  | fx (vd va : VReg) (slot : BitVec 6)
  /-- FX_TWO (R261): Executes a fabric opcode on two sources. -/
  | fxTwo (vd va vb : VReg) (slot : BitVec 6)
  /-- FX_LONG (R111): fx under the FX prefix with lengths, third source or argument. -/
  | fxLong (vd : VReg) (slot : BitVec 6) (src : FxSrcs) (len arg : SReg)
  /-- FBIND (R259): Binds a resident configuration to a slot. -/
  | fbind (slot : BitVec 6) (a : SReg)
  /-- FUNBIND (R259): Clears a slot-table entry. -/
  | funbind (slot : BitVec 6)
  /-- FLOAD (R259): Validates an image and places it in every Armoire. -/
  | fload (d a : SReg)
  /-- FDROP (R259): Removes an image from every Armoire. -/
  | fdrop (a : SReg)
  /-- FSHADOW (R375): Loads a configuration into shadow contexts and arms the swap. -/
  | fshadow (slot : BitVec 6) (a : SReg)
  /-- FQUERY (R260): Returns slot and placement information. -/
  | fquery (d : SReg) (slot : BitVec 6) (a : SReg)
  /-- STJ (R265): Joins a value into a lattice cell, optionally with release. -/
  | stj (a b : SReg) (rel dbl : Bool)
  /-- LTW (R267): Waits until a cell reaches a threshold. -/
  | ltw (d a b : SReg) (acq dbl : Bool)
  /-- LTWN (R267): Waits until n of c cells reach a threshold. -/
  | ltwn (d a b : SReg) (acq dbl : Bool)
  /-- LSYNC (R268): Asks the Settle for an immediate exchange pass. -/
  | lsync (a : SReg)
  /-- WAIT (R269): Suspends the thread until an event, keeping its lanes. -/
  | wait
  /-- WAIT_Y (R269): Suspends the thread and returns its grant. -/
  | waitY
  /-- CBAR (R270): Arrives at the core barrier of the task group. -/
  | cbar
  /-- AWAIT (R272): Waits for a copy and returns its status. -/
  | await (d a : SReg)
  /-- AQUERY (R272): Returns a copy's status at once. -/
  | aquery (d a : SReg)
  /-- VSEND_NX (R273): Appends a message to the buffer towards core c + 1. -/
  | vsendNx (vs : VReg)
  /-- VSEND_PV (R273): Appends a message to the buffer towards core c - 1. -/
  | vsendPv (vs : VReg)
  /-- VRECV_NX (R273): Removes the head message from core c + 1. -/
  | vrecvNx (vd : VReg)
  /-- VRECV_PV (R273): Removes the head message from core c - 1. -/
  | vrecvPv (vd : VReg)
  /-- LAUNCH (R274): Enqueues a launch record from device code. -/
  | launch (d a : SReg)
  /-- EXIT (R275): Drains, releases and ends the thread. -/
  | exit
  /-- ACOPY (R271): Hands a transfer to the copy engine and returns a handle. -/
  | acopy (d a b c : SReg)
  /-- ACOPY_2D (R271): Two-dimensional copy under the COPY2D prefix. -/
  | acopy2d (d a b c rows sstr dstr : SReg)
  /-- INSTRUCTION_FETCH_RETURN (R331): An instruction L1 miss returns and the seat becomes ready. -/
  | instructionFetchReturn (core line : Nat)
  /-- LOAD_RETURN (R343): A load that missed L1 returns its value after the coherence-point latency. -/
  | loadReturn (core line : Nat)
  /-- STORE_PERFORMED (R345): A write takes effect at its coherence point. -/
  | storePerformed (seat k : Nat)
  /-- WALK_COMPLETE (R446): A page-table walk finishes and installs or fails a translation. -/
  | walkComplete (seat va : Nat)
  /-- VSPCFG_TAKES_EFFECT (R330): A VSPCFG write takes effect after in-flight VSP accesses drain. -/
  | vspcfgTakesEffect (core : Nat)
  /-- VECTOR_DISPATCH (R308): The vector queue dispatches its oldest instruction to a unit. -/
  | vectorDispatch (seat : Nat)
  /-- ELEMENT_GROUP_ENTRY (R309): An element group enters its unit when its constraints allow. -/
  | elementGroupEntry (seat k : Nat)
  /-- VECTOR_COMPLETE (R309): A vector-queue instruction writes its last group and completes. -/
  | vectorComplete (seat : Nat)
  /-- REFLOW_COMPLETE (R166): A grant-changing reflow finishes and released octets return to the pool. -/
  | reflowComplete (core seat : Nat)
  /-- MATRIX_ROW_START (R248): The matrix unit takes the next ready row instruction in seat order. -/
  | matrixRowStart (core : Nat)
  /-- TILE_LOAD_COMPLETE (R239): A tile transfer ends, marking poison and clearing the pending bit. -/
  | tileLoadComplete (seat : Nat) (tb : Bool)
  /-- SHORT_SEAT_SERVE (R316): Octets entering the pool are granted to waiting short seats in order. -/
  | shortSeatServe (core : Nat)
  /-- GCEIL_RAISE (R318): With no short seat or reservation, lowered ceilings are raised. -/
  | gceilRaise (core : Nat)
  /-- FX_START (R322): A waiting fx starts when its whole footprint is free. -/
  | fxStart (seat : Nat)
  /-- NODE_FIRE (R289): A fabric node fires when its named inputs hold tokens and its outputs have room. -/
  | nodeFire (seat tile node : Nat)
  /-- FX_END_OF_STREAM (R261): End of stream at output port 0 completes the fx and sets VL. -/
  | fxEndOfStream (seat : Nat)
  /-- PREEMPTION_CUT (R371): A pre-emption cut completes at the next marker reaching output port 0. -/
  | preemptionCut (seat : Nat)
  /-- TILE_CLOCK_CHANGE_COMPLETE (R367): A tile's clock change finishes and waiting fx may start. -/
  | tileClockChangeComplete (core tile : Nat)
  /-- ACOPY_COMPLETE (R271): A copy-engine transfer finishes or ends on a failure. -/
  | acopyComplete (seat handle : Nat)
  /-- COPY_PAGE_RETRY (R454): A faulted copy retries its page after the entry changes and a tlbi completes. -/
  | copyPageRetry (token : Nat)
  /-- CBAR_RELEASE (R270): Every participant's cbar completes 6 c after the last arrival. -/
  | cbarRelease (core queue seq : Nat)
  /-- LTW_SATISFIED (R267): A threshold wait's condition holds in the local replica and it returns. -/
  | ltwSatisfied (seat : Nat)
  /-- LTWTO_EXPIRY (R267): A threshold wait returns after LTWTO cycles. -/
  | ltwtoExpiry (seat : Nat)
  /-- WAIT_RESUME (R269): A suspended wait or wait.y resumes on its first event. -/
  | waitResume (seat : Nat)
  /-- MESSAGE_ARRIVAL (R338): A neighbour message's published tail reaches the receiving buffer. -/
  | messageArrival (core : Nat) (fromNext : Bool)
  /-- VSEND_ROOM (R273): A waiting vsend finds room and appends its message. -/
  | vsendRoom (seat : Nat)
  /-- SETTLE_ROUND (R391): A round begins and each paired die sends its snapshotted change set. -/
  | settleRound (lrt idx : Nat)
  /-- SETTLE_BLOCK_RECEIVE (R390): A received block is joined cell by cell into the local replica. -/
  | settleBlockReceive (k : Nat)
  /-- HOST_RECORD_COMMIT (R428): A write of staging byte 63 checks and commits a launch record. -/
  | hostRecordCommit (queue : Nat) (wide : Bool) (data : Word)
  /-- GATE_TEST (R432): The head record's gate is tested on arrival or on a change of the gating cell. -/
  | gateTest (queue : Nat)
  /-- PRIORITY_AGING (R433): A pending task's effective priority rises every 2 ms. -/
  | priorityAging (queue seq : Nat)
  /-- TASK_PLACEMENT (R434): The dispatcher places the next non-gang task on a free seat. -/
  | taskPlacement
  /-- GANG_PLACEMENT (R435): A gang is placed in one step on consecutive cores. -/
  | gangPlacement
  /-- GANG_RESERVATION (R435): A gang waiting 100 µs reserves a run of seats. -/
  | gangReservation
  /-- GROUP_COMPLETION (R437): A completed group joins its cell, writes its completion entry and sends MSI-X. -/
  | groupCompletion (queue seq : Nat)
  /-- FAULT_RECORD_POST (R451): Firmware parks the thread and posts a fault record with its MSI-X. -/
  | faultRecordPost (seat : Nat)
  /-- FQ_RETRY (R454): ACTION 0 restores the parked context at EPC. -/
  | fqRetry (fn token : Nat)
  /-- FQ_SKIP (R454): ACTION 1 restores the context past the faulting instruction. -/
  | fqSkip (fn token : Nat)
  /-- FQ_REMOVE (R454): ACTION 2 removes the context with cause 0x13, sub-cause 0x04. -/
  | fqRemove (fn token : Nat)
  /-- PARKED_TIMEOUT (R461): A parked thread unanswered within TMO is removed. -/
  | parkedTimeout (token : Nat)
  /-- RUNTIME_LIMIT_EXPIRY (R461): A thread exceeding the runtime limit is removed at a millisecond tick. -/
  | runtimeLimitExpiry (seat : Nat)
  /-- STOP_TIMEOUT (R461): A level-3 stop not completed within 1 ms removes the thread. -/
  | stopTimeout (seat : Nat)
  /-- EXIT_ROUTINE_TIMEOUT (R463): An exit routine holding its seat for 1 ms ends at once. -/
  | exitRoutineTimeout (seat : Nat)
  /-- LEVEL3_SAVE_TIMEOUT (R459): A victim that ignores its lowered GCEIL for 20 µs is fully saved. -/
  | level3SaveTimeout (seat : Nat)
  /-- SEAT_PREEMPTION (R460): A task pending 200 µs with no free seat causes a lower-priority save. -/
  | seatPreemption (queue seq : Nat)
  /-- CONTEXT_RESTORE (R459): A saved thread is restored on a free seat of its core. -/
  | contextRestore (token : Nat)
  /-- BAR2_READ (R469): A host read of device memory through BAR2. -/
  | bar2Read (fn off n : Nat)
  /-- BAR2_WRITE (R469): A host write of device memory through BAR2. -/
  | bar2Write (fn off : Nat) (bytes : List Byte)
  /-- SEATGO (R468): Resumes a halted seat. -/
  | seatgo (value : Word)
  /-- KEY_CREATE (R477): KCMD OP 1 starts generating an owner key. -/
  | keyCreate (id : Nat)
  /-- KEY_DESTROY (R478): KCMD OP 2 starts destroying an owner key and its tagged state. -/
  | keyDestroy (id : Nat)
  /-- KEY_COMMAND_DONE (R477): A key command finishes and BUSY clears. -/
  | keyCommandDone
  /-- STCMD_WARM (R487): STCMD OP 1 requests a warm start. -/
  | stcmdWarm (guard : Nat) (outcome : List StartFail)
  /-- STCMD_COLD (R487): STCMD OP 2 requests a cold start. -/
  | stcmdCold (guard : Nat) (outcome : List StartFail)
  /-- POWER_APPLIED (R481): Power applied to the module starts a cold start. -/
  | powerApplied (outcome : List StartFail)
  /-- WARM_RESET (R481): PERST#, hot reset or PF function-level reset starts a warm start. -/
  | warmReset (outcome : List StartFail)
  /-- VF_FUNCTION_RESET (R481): A VF reset disables its queues, removes its threads and renews its key. -/
  | vfFunctionReset (vf : Nat)
  /-- HEARTBEAT_SEND (R479): Agents send heartbeats every 20 µs. -/
  | heartbeatSend (agent : AgentId)
  /-- AGENT_DEATH (R479): Three missed heartbeat periods declare an agent dead and fence it. -/
  | agentDeath (agent : AgentId)
  /-- POWER_SAMPLE (R489): Every 100 µs the throttle level moves against the power cap. -/
  | powerSample (watts : Nat)
  /-- TEMPERATURE_SAMPLE (R492): Die temperatures are sampled and thermal limits applied. -/
  | temperatureSample (temps : List Nat)
  /-- TRIP_RECOVERY_START (R492): A cold start runs once every die reads below 85 °C. -/
  | tripRecoveryStart (outcome : List StartFail)
  /-- TCLK_WRITE (R491): Writes tile clock codes and starts clock changes. -/
  | tclkWrite (die idx : Nat) (value : Word)
  /-- PORT_TRAINING (R474): A Feryan port trains and agrees a session secret. -/
  | portTraining (port : Nat)
  /-- LOAD_REQUEST (R473): A remote load request flit is performed at the destination. -/
  | loadRequest (port : Nat) (flit : Flit)
  /-- LOAD_RESPONSE (R473): A load response flit returns remote data. -/
  | loadResponse (port : Nat) (flit : Flit)
  /-- STORE (R473): A remote store flit is performed at the destination. -/
  | store (port : Nat) (flit : Flit)
  /-- TRAIN_UNITS (R475): A train-unit flit's records are performed in order. -/
  | trainUnits (port : Nat) (flit : Flit)
  /-- TRAIN_TAIL (R475): A train tail is checked against the units received and acknowledged. -/
  | trainTail (port : Nat) (flit : Flit)
  /-- ACKNOWLEDGEMENT (R475): An acknowledgement completes a remote access or train. -/
  | acknowledgement (port : Nat) (flit : Flit)
  /-- LATTICE_EXCHANGE (R396): A domain-scope exchange flit is joined or dropped on descriptor mismatch. -/
  | latticeExchange (port : Nat) (flit : Flit)
  /-- PEER_HEARTBEAT (R479): A peer device's heartbeat flit is received. -/
  | peerHeartbeat (port : Nat) (flit : Flit)
  /-- LINK_TIMEOUT (R476): No acknowledgement within LTO ends the access with sub-cause 0x05. -/
  | linkTimeout (tag : Nat)
  /-- QERR_READ (R427): Reading QERR returns and clears the refused-record count. -/
  | qerrRead (fn : Nat) (queue : RegRead)
  /-- SETCFG_READ (R395): Reading SETCFG returns and clears DROP and CARRY. -/
  | setcfgRead (die : RegRead)
  /-- FLEET_COUNTER_READ (R493): Reading an rc fleet counter returns and clears it. -/
  | fleetCounterRead (off : RegRead)
  /-- REGISTER_WRITE (R467): A write to a BAR0 or control-space register with no behaviour of its own. -/
  | registerWrite (fn off size : Nat) (value : Word)
  /-- COPY_ENGINE_PAGE_FAULT (R271): The copy engine meets a page fault part-way through a transfer and a fault record of KIND 3 is posted to the host. -/
  | copyEnginePageFault (seat handle : Nat)
  /-- FQCONS_WRITE (R451): The driver writes FQCONS, which frees ring slots and lets the firmware post a fault record it has been holding. -/
  | fqconsWrite (fn : Nat) (value : Word)
  /-- QCTL_WRITE (R429): A write to QCTL sets or clears EN, so that records held in the queue start or stop leaving it and GATE 1 restarts its history. -/
  | qctlWrite (queue : Nat) (value : Word)
  /-- HBM_REFRESH (R343): An HBM bank is refreshed, so the next access to each of its rows is a row miss. -/
  | hbmRefresh (stack bank : Nat)
  deriving DecidableEq, Repr

end Sys2Proof
end

