-- ==== Sys2Proof/WellFormed.lean ====
section
/-! DEFINITION. Which terms of Instr an encoding admits (spec/03_encoding.md R84 to R112) and which events name an
agent that exists (spec/00_scope.md R2 to R4). -/

namespace Sys2Proof

/-- R88: the legal pairs of `fcvt`: integer to floating point, floating point to integer, and 0x45, 0x54. -/
def FcvtPair.wf (p : FcvtPair) : Bool :=
  match p.dst, p.src with
  | .s, .s | .d, .d => false
  | .s, _ | .d, _ => true
  | _, .s | _, .d => true
  | _, _ => false

/-- R91: LANES is 0 to 8, or 15 for the current grant. -/
def LaneReq.wf : LaneReq → Bool
  | .octets n => decide (n.toNat ≤ 8)
  | .cur => true

/-- R89: a fence names at least one kind. -/
def FenceKinds.wf (k : FenceKinds) : Bool := k.r || k.w || k.a || k.l

/-- R109: N = 1 needs m = 1; X = 1 is legal only on majors 0x20, 0x22 and 0x23 (`xOk`); some forms need m = 0
(`mOk` false). -/
def VMod.wf (xOk mOk : Bool) (md : VMod) : Bool :=
  (mOk || !md.m) &&
  match md.pre with
  | none => true
  | some p => (md.m || !p.n) && (xOk || p.x.isNone)

/-- R111: the length registers of an `fx` do not pass s31. -/
def fxLenWf (src : FxSrcs) (len : SReg) : Bool :=
  match src with
  | .one _ => true
  | .two _ _ => decide (len = 0 ∨ len.toNat + 1 ≤ 31)
  | .three _ _ _ => decide (len = 0 ∨ len.toNat + 2 ≤ 31)

/-- The operations of a pair that take one source (R93, R96). -/
def PairOp.unary : PairOp → Bool
  | .int .clz | .int .popc => true
  | .flt .sqrt | .flt .rsqe | .flt .rece | .flt .exp2 | .flt .cls => true
  | _ => false

/-- The operations of major 0x20, the only major of a pair that takes `.x` (R109). -/
def PairOp.isFlt : PairOp → Bool
  | .flt _ => true
  | _ => false

/-- R109: a unary half has no second source; the first half has no `.x`, the second only under major 0x20; `second`
says which half it is. -/
def PairHalf.wf (second : Bool) (h : PairHalf) : Bool :=
  (!h.op.unary || decide (h.b = .reg 0)) && (h.x.isNone || (second && h.op.isFlt))

/-- The agents of R479: cores 0 to 191, dies 0 to 5, devices 0 to 127. -/
def AgentId.wf : AgentId → Bool
  | .core n => decide (n < 192)
  | .die n => decide (n < 6)
  | .peer n => decide (n < 128)

/-- Whether a term is an instruction some word encodes, or an event of agents that exist. -/
def Instr.wf : Instr → Bool
  | .add _ _ _ => true
  | .sub _ _ _ => true
  | .and _ _ _ => true
  | .or _ _ _ => true
  | .xor _ _ _ => true
  | .andn _ _ _ => true
  | .sll _ _ _ => true
  | .srl _ _ _ => true
  | .sra _ _ _ => true
  | .slt _ _ _ => true
  | .sltu _ _ _ => true
  | .min _ _ _ => true
  | .max _ _ _ => true
  | .minu _ _ _ => true
  | .maxu _ _ _ => true
  | .mul _ _ _ => true
  | .mulh _ _ _ => true
  | .mulhu _ _ _ => true
  | .div _ _ _ => true
  | .divu _ _ _ => true
  | .rem _ _ _ => true
  | .remu _ _ _ => true
  | .clz _ _ => true
  | .ctz _ _ => true
  | .popc _ _ => true
  | .sext _ _ _ => true
  | .zext _ _ _ => true
  | .addi _ _ _ => true
  | .addiWide _ _ _ => true
  | .andi _ _ _ => true
  | .ori _ _ _ => true
  | .xori _ _ _ => true
  | .slli _ _ _ => true
  | .srli _ _ _ => true
  | .srai _ _ _ => true
  | .slti _ _ _ => true
  | .sltiu _ _ _ => true
  | .lhi _ _ => true
  | .lhiWide _ _ => true
  | .lpc _ _ => true
  | .lpcWide _ _ => true
  | .beq _ _ _ => true
  | .bne _ _ _ => true
  | .blt _ _ _ => true
  | .bge _ _ _ => true
  | .bltu _ _ _ => true
  | .bgeu _ _ _ => true
  | .jlr _ _ _ => true
  | .j _ => true
  | .jl _ => true
  | .ldB _ _ _ _ => true
  | .ldH _ _ _ _ => true
  | .ldW _ _ _ _ => true
  | .ldD _ _ _ _ => true
  | .ldBu _ _ _ _ => true
  | .ldHu _ _ _ _ => true
  | .ldWu _ _ _ _ => true
  | .stB _ _ _ _ => true
  | .stH _ _ _ _ => true
  | .stW _ _ _ _ => true
  | .stD _ _ _ _ => true
  | .ldBIndexed _ _ _ _ => true
  | .ldHIndexed _ _ _ _ => true
  | .ldWIndexed _ _ _ _ => true
  | .ldDIndexed _ _ _ _ => true
  | .ldBuIndexed _ _ _ _ => true
  | .ldHuIndexed _ _ _ _ => true
  | .ldWuIndexed _ _ _ _ => true
  | .stBIndexed _ _ _ _ => true
  | .stHIndexed _ _ _ _ => true
  | .stWIndexed _ _ _ _ => true
  | .stDIndexed _ _ _ _ => true
  | .amoAdd _ _ _ _ _ _ => true
  | .amoAnd _ _ _ _ _ _ => true
  | .amoOr _ _ _ _ _ _ => true
  | .amoXor _ _ _ _ _ _ => true
  | .amoMin _ _ _ _ _ _ => true
  | .amoMax _ _ _ _ _ _ => true
  | .amoMinu _ _ _ _ _ _ => true
  | .amoMaxu _ _ _ _ _ _ => true
  | .amoSwap _ _ _ _ _ _ => true
  | .cas _ _ _ _ _ _ => true
  | .fadd _ _ _ _ => true
  | .fsub _ _ _ _ => true
  | .fmul _ _ _ _ => true
  | .fdiv _ _ _ _ => true
  | .fsqrt _ _ _ => true
  | .fmin _ _ _ _ => true
  | .fmax _ _ _ _ => true
  | .fcmpEq _ _ _ _ => true
  | .fcmpLt _ _ _ _ => true
  | .fcmpLe _ _ _ _ => true
  | .fcmpUo _ _ _ _ => true
  | .fclass _ _ _ => true
  | .fmadd _ _ _ _ _ => true
  | .fmsub _ _ _ _ _ => true
  | .fnmadd _ _ _ _ _ => true
  | .fcvt _ _ conv => conv.wf
  | .fmvS _ _ => true
  | .fmvD _ _ => true
  | .fmvX _ _ => true
  | .fmvF _ _ => true
  | .trap _ => true
  | .eret => true
  | .brk _ => true
  | .fence _ kinds => kinds.wf
  | .fencei => true
  | .tlbi _ _ _ => true
  | .ctxsv _ => true
  | .ctxld _ => true
  | .halt => true
  | .xrd _ _ => true
  | .xwr _ _ => true
  | .xset _ _ _ => true
  | .xclr _ _ _ => true
  | .setvl _ _ _ lanes => lanes.wf
  | .vcfg _ => true
  | .vshape _ => true
  | .setvli _ _ _ => true
  | .vadd _ _ _ md => md.wf false true
  | .vsub _ _ _ md => md.wf false true
  | .vrsub _ _ _ md => md.wf false true
  | .vmul _ _ _ md => md.wf false true
  | .vmulh _ _ _ md => md.wf false true
  | .vmulhu _ _ _ md => md.wf false true
  | .vmacc _ _ _ md => md.wf false true
  | .vnmsac _ _ _ md => md.wf false true
  | .vdiv _ _ _ md => md.wf false true
  | .vdivu _ _ _ md => md.wf false true
  | .vrem _ _ _ md => md.wf false true
  | .vremu _ _ _ md => md.wf false true
  | .vmin _ _ _ md => md.wf false true
  | .vmax _ _ _ md => md.wf false true
  | .vminu _ _ _ md => md.wf false true
  | .vmaxu _ _ _ md => md.wf false true
  | .vand _ _ _ md => md.wf false true
  | .vor _ _ _ md => md.wf false true
  | .vxor _ _ _ md => md.wf false true
  | .vsll _ _ _ md => md.wf false true
  | .vsrl _ _ _ md => md.wf false true
  | .vsra _ _ _ md => md.wf false true
  | .vclz _ _ md => md.wf false true
  | .vpopc _ _ md => md.wf false true
  | .vwadd _ _ _ md => md.wf false true
  | .vwaddU _ _ _ md => md.wf false true
  | .vwsub _ _ _ md => md.wf false true
  | .vwsubU _ _ _ md => md.wf false true
  | .vwmul _ _ _ md => md.wf false true
  | .vwmulU _ _ _ md => md.wf false true
  | .vwmulSu _ _ _ md => md.wf false true
  | .vwmacc _ _ _ md => md.wf false true
  | .vwmaccU _ _ _ md => md.wf false true
  | .vwmaccSu _ _ _ md => md.wf false true
  | .vnsrl _ _ _ md => md.wf false true
  | .vnsra _ _ _ md => md.wf false true
  | .vsadd _ _ _ md => md.wf false true
  | .vsaddU _ _ _ md => md.wf false true
  | .vssub _ _ _ md => md.wf false true
  | .vssubU _ _ _ md => md.wf false true
  | .vaadd _ _ _ md => md.wf false true
  | .vaaddU _ _ _ md => md.wf false true
  | .vsmul _ _ _ md => md.wf false true
  | .vssrl _ _ _ md => md.wf false true
  | .vssra _ _ _ md => md.wf false true
  | .vnclip _ _ _ md => md.wf false true
  | .vnclipU _ _ _ md => md.wf false true
  | .vcmp _ _ _ _ md => md.wf false true
  | .vcmpBrk _ _ _ _ md => md.wf false true
  | .mkAnd _ _ _ md => md.wf false false
  | .mkOr _ _ _ md => md.wf false false
  | .mkXor _ _ _ md => md.wf false false
  | .mkAndn _ _ _ md => md.wf false false
  | .mkNot _ _ md => md.wf false false
  | .mcount _ _ md => md.wf false true
  | .mfirst _ _ md => md.wf false true
  | .vrank _ _ md => md.wf false true
  | .vindex _ md => md.wf false true
  | .vmv _ _ md => md.wf false true
  | .vmvScalar _ _ md => md.wf false true
  | .vmvSv _ _ md => md.wf false false
  | .vmvVs _ _ md => md.wf false false
  | .vslideu _ _ _ md => md.wf false true
  | .vslided _ _ _ md => md.wf false true
  | .vperm _ _ _ md => md.wf false true
  | .vcompr _ _ _ md => md.wf false true
  | .vexpd _ _ _ md => md.wf false true
  | .vmerge _ _ _ md => md.wf false false
  | .vtopk _ _ _ md => md.wf false true
  | .vred _ _ _ _ md => md.wf false true
  | .vscan _ _ _ _ md => md.wf false true
  | .vfadd _ _ _ md => md.wf true true
  | .vfsub _ _ _ md => md.wf true true
  | .vfmul _ _ _ md => md.wf true true
  | .vfdiv _ _ _ md => md.wf true true
  | .vfsqrt _ _ md => md.wf true true
  | .vfrsqe _ _ md => md.wf true true
  | .vfrece _ _ md => md.wf true true
  | .vfexp2 _ _ md => md.wf true true
  | .vfmacc _ _ _ md => md.wf true true
  | .vfnmacc _ _ _ md => md.wf true true
  | .vfmsac _ _ _ md => md.wf true true
  | .vfnmsac _ _ _ md => md.wf true true
  | .vfmin _ _ _ md => md.wf true true
  | .vfmax _ _ _ md => md.wf true true
  | .vfclass _ _ md => md.wf true true
  | .vfsgnj _ _ _ md => md.wf true true
  | .vfsgnjN _ _ _ md => md.wf true true
  | .vfsgnjX _ _ _ md => md.wf true true
  | .vfcmp _ _ _ _ md => md.wf false true
  | .vfcvt _ _ _ md => md.wf true true
  | .vfncvt _ _ _ md => md.wf true true
  | .vfwadd _ _ _ md => md.wf true true
  | .vfwmul _ _ _ md => md.wf true true
  | .vfwmacc _ _ _ md => md.wf true true
  | .vfred _ _ _ _ md => md.wf true true
  | .vfredoSum _ _ _ md => md.wf true true
  | .vfscan _ _ _ _ md => md.wf true true
  | .vlrec _ _ _ md => md.wf true true
  | .vlq _ _ _ md => md.wf false true
  | .vlx _ _ _ md => md.wf false true
  | .vlrq _ _ _ md => md.wf false true
  | .pair x y => PairHalf.wf false x && PairHalf.wf true y
  | .vld _ _ _ md _ => md.wf false true
  | .vlds _ _ _ _ md _ => md.wf false true
  | .vldx _ _ _ _ md _ => md.wf false true
  | .vlseg _ _ nf _ md mo => md.wf false true && decide (nf ≠ 0) && decide (mo ≠ .ff)
  | .vst _ _ _ md mo => md.wf false true && decide (mo ≠ .ff)
  | .vsts _ _ _ _ md mo => md.wf false true && decide (mo ≠ .ff)
  | .vstx _ _ _ _ md mo => md.wf false true && decide (mo ≠ .ff)
  | .vsseg _ _ nf _ md mo => md.wf false true && decide (nf ≠ 0) && decide (mo ≠ .ff)
  | .vldsl _ _ _ md _ => md.wf false true
  | .vstp _ _ _ _ md mo => md.wf false true && decide (mo ≠ .ff)
  | .vstc _ _ _ _ md mo => md.wf false true && decide (mo ≠ .ff)
  | .vamo _ _ _ _ _ md mo => md.wf false true && decide (mo ≠ .ff)
  | .vstxr _ _ _ _ md mo => md.wf false true && decide (mo = .unord)
  | .vstj _ _ _ md mo => md.wf false true && decide (mo ≠ .ff)
  | .vstjIndexed _ _ _ _ md mo => md.wf false true && decide (mo ≠ .ff)
  | .mxr _ _ _ => true
  | .mxri _ _ _ _ => true
  | .mxrt _ _ _ => true
  | .tld _ _ _ _ => true
  | .twait _ => true
  | .tzero _ => true
  | .fx _ _ _ => true
  | .fxTwo _ _ _ _ => true
  | .fxLong _ _ src len _ => fxLenWf src len
  | .fbind _ _ => true
  | .funbind _ => true
  | .fload _ _ => true
  | .fdrop _ => true
  | .fshadow _ _ => true
  | .fquery _ _ _ => true
  | .stj _ _ _ _ => true
  | .ltw _ _ _ _ _ => true
  | .ltwn _ _ _ _ _ => true
  | .lsync _ => true
  | .wait => true
  | .waitY => true
  | .cbar => true
  | .await _ _ => true
  | .aquery _ _ => true
  | .vsendNx _ => true
  | .vsendPv _ => true
  | .vrecvNx _ => true
  | .vrecvPv _ => true
  | .launch _ _ => true
  | .exit => true
  | .acopy _ _ _ _ => true
  | .acopy2d _ _ _ _ _ _ _ => true
  | .instructionFetchReturn core _ => decide (core < 192)
  | .loadReturn core _ => decide (core < 192)
  | .storePerformed seat _ => decide (seat < 1536)
  | .walkComplete seat _ => decide (seat < 1536)
  | .vspcfgTakesEffect core => decide (core < 192)
  | .vectorDispatch seat => decide (seat < 1536)
  | .elementGroupEntry seat _ => decide (seat < 1536)
  | .vectorComplete seat => decide (seat < 1536)
  | .reflowComplete core seat => decide (core < 192) && decide (seat < 1536)
  | .matrixRowStart core => decide (core < 192)
  | .tileLoadComplete seat _ => decide (seat < 1536)
  | .shortSeatServe core => decide (core < 192)
  | .gceilRaise core => decide (core < 192)
  | .fxStart seat => decide (seat < 1536)
  | .nodeFire seat tile node => decide (seat < 1536) && decide (tile < 8) && (decide (node < 20) || (decide (tile = 0) && decide (node < 27)))
  | .fxEndOfStream seat => decide (seat < 1536)
  | .preemptionCut seat => decide (seat < 1536)
  | .tileClockChangeComplete core tile => decide (core < 192) && decide (tile < 8)
  | .acopyComplete seat _ => decide (seat < 1536)
  | .copyPageRetry _ => true
  | .cbarRelease core queue _ => decide (core < 192) && decide (queue < 64)
  | .ltwSatisfied seat => decide (seat < 1536)
  | .ltwtoExpiry seat => decide (seat < 1536)
  | .waitResume seat => decide (seat < 1536)
  | .messageArrival core _ => decide (core < 192)
  | .vsendRoom seat => decide (seat < 1536)
  | .settleRound _ idx => decide (idx < 4096)
  | .settleBlockReceive _ => true
  | .hostRecordCommit queue _ _ => decide (queue < 64)
  | .gateTest queue => decide (queue < 64)
  | .priorityAging queue _ => decide (queue < 64)
  | .taskPlacement => true
  | .gangPlacement => true
  | .gangReservation => true
  | .groupCompletion queue _ => decide (queue < 64)
  | .faultRecordPost seat => decide (seat < 1536)
  | .fqRetry fn _ => decide (fn < 17)
  | .fqSkip fn _ => decide (fn < 17)
  | .fqRemove fn _ => decide (fn < 17)
  | .parkedTimeout _ => true
  | .runtimeLimitExpiry seat => decide (seat < 1536)
  | .stopTimeout seat => decide (seat < 1536)
  | .exitRoutineTimeout seat => decide (seat < 1536)
  | .level3SaveTimeout seat => decide (seat < 1536)
  | .seatPreemption queue _ => decide (queue < 64)
  | .contextRestore _ => true
  | .bar2Read fn _ _ => decide (fn < 17)
  | .bar2Write fn _ _ => decide (fn < 17)
  | .seatgo _ => true
  | .keyCreate id => decide (id < 1024)
  | .keyDestroy id => decide (id < 1024)
  | .keyCommandDone => true
  | .stcmdWarm _ _ => true
  | .stcmdCold _ _ => true
  | .powerApplied _ => true
  | .warmReset _ => true
  | .vfFunctionReset vf => decide (vf < 16)
  | .heartbeatSend agent => agent.wf
  | .agentDeath agent => agent.wf
  | .powerSample _ => true
  | .temperatureSample _ => true
  | .tripRecoveryStart _ => true
  | .tclkWrite die idx _ => decide (die < 6) && decide (idx < 32)
  | .portTraining port => decide (port < 12)
  | .loadRequest port _ => decide (port < 12)
  | .loadResponse port _ => decide (port < 12)
  | .store port _ => decide (port < 12)
  | .trainUnits port _ => decide (port < 12)
  | .trainTail port _ => decide (port < 12)
  | .acknowledgement port _ => decide (port < 12)
  | .latticeExchange port _ => decide (port < 12)
  | .peerHeartbeat port _ => decide (port < 12)
  | .linkTimeout _ => true
  | .qerrRead fn queue => decide (fn < 17) && decide (queue.reg < 64)
  | .setcfgRead die => decide (die.reg < 6)
  | .fleetCounterRead _ => true
  | .registerWrite fn _ _ _ => decide (fn < 17)
  | .copyEnginePageFault seat _ => decide (seat < 1536)
  | .fqconsWrite fn _ => decide (fn < 17)
  | .qctlWrite queue _ => decide (queue < 64)
  | .hbmRefresh stack _ => decide (stack < 12)

/-- Whether a term is an event of the device rather than an instruction: events have no encoding. -/
def Instr.isEvent : Instr → Bool
  | .add _ _ _ => false
  | .sub _ _ _ => false
  | .and _ _ _ => false
  | .or _ _ _ => false
  | .xor _ _ _ => false
  | .andn _ _ _ => false
  | .sll _ _ _ => false
  | .srl _ _ _ => false
  | .sra _ _ _ => false
  | .slt _ _ _ => false
  | .sltu _ _ _ => false
  | .min _ _ _ => false
  | .max _ _ _ => false
  | .minu _ _ _ => false
  | .maxu _ _ _ => false
  | .mul _ _ _ => false
  | .mulh _ _ _ => false
  | .mulhu _ _ _ => false
  | .div _ _ _ => false
  | .divu _ _ _ => false
  | .rem _ _ _ => false
  | .remu _ _ _ => false
  | .clz _ _ => false
  | .ctz _ _ => false
  | .popc _ _ => false
  | .sext _ _ _ => false
  | .zext _ _ _ => false
  | .addi _ _ _ => false
  | .addiWide _ _ _ => false
  | .andi _ _ _ => false
  | .ori _ _ _ => false
  | .xori _ _ _ => false
  | .slli _ _ _ => false
  | .srli _ _ _ => false
  | .srai _ _ _ => false
  | .slti _ _ _ => false
  | .sltiu _ _ _ => false
  | .lhi _ _ => false
  | .lhiWide _ _ => false
  | .lpc _ _ => false
  | .lpcWide _ _ => false
  | .beq _ _ _ => false
  | .bne _ _ _ => false
  | .blt _ _ _ => false
  | .bge _ _ _ => false
  | .bltu _ _ _ => false
  | .bgeu _ _ _ => false
  | .jlr _ _ _ => false
  | .j _ => false
  | .jl _ => false
  | .ldB _ _ _ _ => false
  | .ldH _ _ _ _ => false
  | .ldW _ _ _ _ => false
  | .ldD _ _ _ _ => false
  | .ldBu _ _ _ _ => false
  | .ldHu _ _ _ _ => false
  | .ldWu _ _ _ _ => false
  | .stB _ _ _ _ => false
  | .stH _ _ _ _ => false
  | .stW _ _ _ _ => false
  | .stD _ _ _ _ => false
  | .ldBIndexed _ _ _ _ => false
  | .ldHIndexed _ _ _ _ => false
  | .ldWIndexed _ _ _ _ => false
  | .ldDIndexed _ _ _ _ => false
  | .ldBuIndexed _ _ _ _ => false
  | .ldHuIndexed _ _ _ _ => false
  | .ldWuIndexed _ _ _ _ => false
  | .stBIndexed _ _ _ _ => false
  | .stHIndexed _ _ _ _ => false
  | .stWIndexed _ _ _ _ => false
  | .stDIndexed _ _ _ _ => false
  | .amoAdd _ _ _ _ _ _ => false
  | .amoAnd _ _ _ _ _ _ => false
  | .amoOr _ _ _ _ _ _ => false
  | .amoXor _ _ _ _ _ _ => false
  | .amoMin _ _ _ _ _ _ => false
  | .amoMax _ _ _ _ _ _ => false
  | .amoMinu _ _ _ _ _ _ => false
  | .amoMaxu _ _ _ _ _ _ => false
  | .amoSwap _ _ _ _ _ _ => false
  | .cas _ _ _ _ _ _ => false
  | .fadd _ _ _ _ => false
  | .fsub _ _ _ _ => false
  | .fmul _ _ _ _ => false
  | .fdiv _ _ _ _ => false
  | .fsqrt _ _ _ => false
  | .fmin _ _ _ _ => false
  | .fmax _ _ _ _ => false
  | .fcmpEq _ _ _ _ => false
  | .fcmpLt _ _ _ _ => false
  | .fcmpLe _ _ _ _ => false
  | .fcmpUo _ _ _ _ => false
  | .fclass _ _ _ => false
  | .fmadd _ _ _ _ _ => false
  | .fmsub _ _ _ _ _ => false
  | .fnmadd _ _ _ _ _ => false
  | .fcvt _ _ _ => false
  | .fmvS _ _ => false
  | .fmvD _ _ => false
  | .fmvX _ _ => false
  | .fmvF _ _ => false
  | .trap _ => false
  | .eret => false
  | .brk _ => false
  | .fence _ _ => false
  | .fencei => false
  | .tlbi _ _ _ => false
  | .ctxsv _ => false
  | .ctxld _ => false
  | .halt => false
  | .xrd _ _ => false
  | .xwr _ _ => false
  | .xset _ _ _ => false
  | .xclr _ _ _ => false
  | .setvl _ _ _ _ => false
  | .vcfg _ => false
  | .vshape _ => false
  | .setvli _ _ _ => false
  | .vadd _ _ _ _ => false
  | .vsub _ _ _ _ => false
  | .vrsub _ _ _ _ => false
  | .vmul _ _ _ _ => false
  | .vmulh _ _ _ _ => false
  | .vmulhu _ _ _ _ => false
  | .vmacc _ _ _ _ => false
  | .vnmsac _ _ _ _ => false
  | .vdiv _ _ _ _ => false
  | .vdivu _ _ _ _ => false
  | .vrem _ _ _ _ => false
  | .vremu _ _ _ _ => false
  | .vmin _ _ _ _ => false
  | .vmax _ _ _ _ => false
  | .vminu _ _ _ _ => false
  | .vmaxu _ _ _ _ => false
  | .vand _ _ _ _ => false
  | .vor _ _ _ _ => false
  | .vxor _ _ _ _ => false
  | .vsll _ _ _ _ => false
  | .vsrl _ _ _ _ => false
  | .vsra _ _ _ _ => false
  | .vclz _ _ _ => false
  | .vpopc _ _ _ => false
  | .vwadd _ _ _ _ => false
  | .vwaddU _ _ _ _ => false
  | .vwsub _ _ _ _ => false
  | .vwsubU _ _ _ _ => false
  | .vwmul _ _ _ _ => false
  | .vwmulU _ _ _ _ => false
  | .vwmulSu _ _ _ _ => false
  | .vwmacc _ _ _ _ => false
  | .vwmaccU _ _ _ _ => false
  | .vwmaccSu _ _ _ _ => false
  | .vnsrl _ _ _ _ => false
  | .vnsra _ _ _ _ => false
  | .vsadd _ _ _ _ => false
  | .vsaddU _ _ _ _ => false
  | .vssub _ _ _ _ => false
  | .vssubU _ _ _ _ => false
  | .vaadd _ _ _ _ => false
  | .vaaddU _ _ _ _ => false
  | .vsmul _ _ _ _ => false
  | .vssrl _ _ _ _ => false
  | .vssra _ _ _ _ => false
  | .vnclip _ _ _ _ => false
  | .vnclipU _ _ _ _ => false
  | .vcmp _ _ _ _ _ => false
  | .vcmpBrk _ _ _ _ _ => false
  | .mkAnd _ _ _ _ => false
  | .mkOr _ _ _ _ => false
  | .mkXor _ _ _ _ => false
  | .mkAndn _ _ _ _ => false
  | .mkNot _ _ _ => false
  | .mcount _ _ _ => false
  | .mfirst _ _ _ => false
  | .vrank _ _ _ => false
  | .vindex _ _ => false
  | .vmv _ _ _ => false
  | .vmvScalar _ _ _ => false
  | .vmvSv _ _ _ => false
  | .vmvVs _ _ _ => false
  | .vslideu _ _ _ _ => false
  | .vslided _ _ _ _ => false
  | .vperm _ _ _ _ => false
  | .vcompr _ _ _ _ => false
  | .vexpd _ _ _ _ => false
  | .vmerge _ _ _ _ => false
  | .vtopk _ _ _ _ => false
  | .vred _ _ _ _ _ => false
  | .vscan _ _ _ _ _ => false
  | .vfadd _ _ _ _ => false
  | .vfsub _ _ _ _ => false
  | .vfmul _ _ _ _ => false
  | .vfdiv _ _ _ _ => false
  | .vfsqrt _ _ _ => false
  | .vfrsqe _ _ _ => false
  | .vfrece _ _ _ => false
  | .vfexp2 _ _ _ => false
  | .vfmacc _ _ _ _ => false
  | .vfnmacc _ _ _ _ => false
  | .vfmsac _ _ _ _ => false
  | .vfnmsac _ _ _ _ => false
  | .vfmin _ _ _ _ => false
  | .vfmax _ _ _ _ => false
  | .vfclass _ _ _ => false
  | .vfsgnj _ _ _ _ => false
  | .vfsgnjN _ _ _ _ => false
  | .vfsgnjX _ _ _ _ => false
  | .vfcmp _ _ _ _ _ => false
  | .vfcvt _ _ _ _ => false
  | .vfncvt _ _ _ _ => false
  | .vfwadd _ _ _ _ => false
  | .vfwmul _ _ _ _ => false
  | .vfwmacc _ _ _ _ => false
  | .vfred _ _ _ _ _ => false
  | .vfredoSum _ _ _ _ => false
  | .vfscan _ _ _ _ _ => false
  | .vlrec _ _ _ _ => false
  | .vlq _ _ _ _ => false
  | .vlx _ _ _ _ => false
  | .vlrq _ _ _ _ => false
  | .pair _ _ => false
  | .vld _ _ _ _ _ => false
  | .vlds _ _ _ _ _ _ => false
  | .vldx _ _ _ _ _ _ => false
  | .vlseg _ _ _ _ _ _ => false
  | .vst _ _ _ _ _ => false
  | .vsts _ _ _ _ _ _ => false
  | .vstx _ _ _ _ _ _ => false
  | .vsseg _ _ _ _ _ _ => false
  | .vldsl _ _ _ _ _ => false
  | .vstp _ _ _ _ _ _ => false
  | .vstc _ _ _ _ _ _ => false
  | .vamo _ _ _ _ _ _ _ => false
  | .vstxr _ _ _ _ _ _ => false
  | .vstj _ _ _ _ _ => false
  | .vstjIndexed _ _ _ _ _ _ => false
  | .mxr _ _ _ => false
  | .mxri _ _ _ _ => false
  | .mxrt _ _ _ => false
  | .tld _ _ _ _ => false
  | .twait _ => false
  | .tzero _ => false
  | .fx _ _ _ => false
  | .fxTwo _ _ _ _ => false
  | .fxLong _ _ _ _ _ => false
  | .fbind _ _ => false
  | .funbind _ => false
  | .fload _ _ => false
  | .fdrop _ => false
  | .fshadow _ _ => false
  | .fquery _ _ _ => false
  | .stj _ _ _ _ => false
  | .ltw _ _ _ _ _ => false
  | .ltwn _ _ _ _ _ => false
  | .lsync _ => false
  | .wait => false
  | .waitY => false
  | .cbar => false
  | .await _ _ => false
  | .aquery _ _ => false
  | .vsendNx _ => false
  | .vsendPv _ => false
  | .vrecvNx _ => false
  | .vrecvPv _ => false
  | .launch _ _ => false
  | .exit => false
  | .acopy _ _ _ _ => false
  | .acopy2d _ _ _ _ _ _ _ => false
  | .instructionFetchReturn _ _ => true
  | .loadReturn _ _ => true
  | .storePerformed _ _ => true
  | .walkComplete _ _ => true
  | .vspcfgTakesEffect _ => true
  | .vectorDispatch _ => true
  | .elementGroupEntry _ _ => true
  | .vectorComplete _ => true
  | .reflowComplete _ _ => true
  | .matrixRowStart _ => true
  | .tileLoadComplete _ _ => true
  | .shortSeatServe _ => true
  | .gceilRaise _ => true
  | .fxStart _ => true
  | .nodeFire _ _ _ => true
  | .fxEndOfStream _ => true
  | .preemptionCut _ => true
  | .tileClockChangeComplete _ _ => true
  | .acopyComplete _ _ => true
  | .copyPageRetry _ => true
  | .cbarRelease _ _ _ => true
  | .ltwSatisfied _ => true
  | .ltwtoExpiry _ => true
  | .waitResume _ => true
  | .messageArrival _ _ => true
  | .vsendRoom _ => true
  | .settleRound _ _ => true
  | .settleBlockReceive _ => true
  | .hostRecordCommit _ _ _ => true
  | .gateTest _ => true
  | .priorityAging _ _ => true
  | .taskPlacement => true
  | .gangPlacement => true
  | .gangReservation => true
  | .groupCompletion _ _ => true
  | .faultRecordPost _ => true
  | .fqRetry _ _ => true
  | .fqSkip _ _ => true
  | .fqRemove _ _ => true
  | .parkedTimeout _ => true
  | .runtimeLimitExpiry _ => true
  | .stopTimeout _ => true
  | .exitRoutineTimeout _ => true
  | .level3SaveTimeout _ => true
  | .seatPreemption _ _ => true
  | .contextRestore _ => true
  | .bar2Read _ _ _ => true
  | .bar2Write _ _ _ => true
  | .seatgo _ => true
  | .keyCreate _ => true
  | .keyDestroy _ => true
  | .keyCommandDone => true
  | .stcmdWarm _ _ => true
  | .stcmdCold _ _ => true
  | .powerApplied _ => true
  | .warmReset _ => true
  | .vfFunctionReset _ => true
  | .heartbeatSend _ => true
  | .agentDeath _ => true
  | .powerSample _ => true
  | .temperatureSample _ => true
  | .tripRecoveryStart _ => true
  | .tclkWrite _ _ _ => true
  | .portTraining _ => true
  | .loadRequest _ _ => true
  | .loadResponse _ _ => true
  | .store _ _ => true
  | .trainUnits _ _ => true
  | .trainTail _ _ => true
  | .acknowledgement _ _ => true
  | .latticeExchange _ _ => true
  | .peerHeartbeat _ _ => true
  | .linkTimeout _ => true
  | .qerrRead _ _ => true
  | .setcfgRead _ => true
  | .fleetCounterRead _ => true
  | .registerWrite _ _ _ _ => true
  | .copyEnginePageFault _ _ => true
  | .fqconsWrite _ _ => true
  | .qctlWrite _ _ => true
  | .hbmRefresh _ _ => true

end Sys2Proof
end

