-- ==== Sys2Proof/Decode.lean ====
section
/-! DEFINITION. The decoder, total on any words and refusing by name (spec/03_encoding.md R78 to R114), and after it the
encoder, written from the same tables. -/

namespace Sys2Proof

/-- Why a word is no instruction, in the order and with the sub-causes of R114. -/
inductive Illegal
  /-- A reserved major or prefix kind: sub-cause 0x00. -/
  | major
  /-- A reserved function code, sub-operation, condition or field value: sub-cause 0x01. -/
  | code
  /-- A non-zero reserved or must-be-zero field: sub-cause 0x02. -/
  | field
  /-- A scalar or f field with its top bit 1: sub-cause 0x03. -/
  | top
  /-- Prefix misuse: sub-cause 0x04. -/
  | misuse
  /-- A pair rule of R109: sub-cause 0x05. -/
  | pair
  deriving DecidableEq, Repr

/-- The sub-cause an illegal word writes (R114). -/
def Illegal.sub : Illegal → BitVec 8
  | .major => 0x00
  | .code => 0x01
  | .field => 0x02
  | .top => 0x03
  | .misuse => 0x04
  | .pair => 0x05

/-- The checks of R114 on one base word: a reserved value, a non-zero zero field, a top bit, a prefix condition; an odd register where the
first of a pair stands, which is a reserved value too, and which the instruction itself finds when nothing else fails
(spec/06_vector_integer_instructions.md R173, R174); and the instruction the word means when none fails. -/
structure Dec where
  rsv : Bool := false
  zer : Bool := false
  top : Bool := false
  pfx : Bool := false
  odd : Bool := false
  i : Option Instr

/-- A base word whose function code, sub-operation or field value is reserved. -/
def Dec.reserved : Dec := { rsv := true, i := none }

/-- The first failing check in the sequence of R114, or the instruction. -/
def Dec.finish (d : Dec) : Except Illegal Instr :=
  match d.i with
  | none => .error .code
  | some i =>
    if d.rsv then .error .code
    else if d.odd && (d.zer || d.top || d.pfx) then .error .code
    else if d.zer then .error .field
    else if d.top then .error .top
    else if d.pfx then .error .misuse
    else .ok i

/-- A legal prefix, by kind (R108): MOD with N, P, X and its register; WIDE with e:f:ext; FX with e, f, the argument
register and the source count less 1; COPY2D with its three registers. -/
inductive PreCtx
  | none
  | mod (p : ModPre)
  | wide (u : BitVec 20)
  | fx (e f arg : BitVec 6) (cnt : BitVec 2)
  | copy2d (e f g : BitVec 6)
  deriving DecidableEq, Repr

/-- The major opcode, bits 31..26 (R79). -/
def wMajor (w : IWord) : BitVec 6 := w.extractLsb' 26 6
/-- Field d, bits 25..20. -/
def wD (w : IWord) : BitVec 6 := w.extractLsb' 20 6
/-- Field a, bits 19..14. -/
def wA (w : IWord) : BitVec 6 := w.extractLsb' 14 6
/-- Field b, bits 13..8. -/
def wB (w : IWord) : BitVec 6 := w.extractLsb' 8 6
/-- Field fn, bits 7..0. -/
def wFn (w : IWord) : BitVec 8 := w.extractLsb' 0 8
/-- The top bit of a register field (R81). -/
def topBit (x : BitVec 6) : Bool := x.getLsbD 5
/-- The low five bits of a register field. -/
def low5 (x : BitVec 6) : SReg := x.extractLsb' 0 5

/-- R82: the majors marked "—" and the illegal major 0x00. -/
def reservedMajor (m : Nat) : Bool :=
  m == 0 || m == 0x1F || (0x25 ≤ m && m ≤ 0x27) || m == 0x2D || m == 0x32 || m == 0x33 || (0x36 ≤ m && m ≤ 0x3D) || m == 0x3F

/-- R108: the base majors a prefix kind allows. -/
def kindAllows (kind m : Nat) : Bool :=
  match kind with
  | 1 => (0x18 ≤ m && m ≤ 0x24) || (0x28 ≤ m && m ≤ 0x2C)
  | 2 => m == 0x02 || m == 0x06 || m == 0x07
  | 3 => m == 0x30
  | 4 => m == 0x35
  | _ => false

/-- R84: three scalar registers. -/
def decRrr (w : IWord) (k : SReg → SReg → SReg → Instr) : Dec :=
  { top := topBit (wD w) || topBit (wA w) || topBit (wB w), i := some (k (low5 (wD w)) (low5 (wA w)) (low5 (wB w))) }

/-- R84: two scalar registers with b = 0. -/
def decRr0 (w : IWord) (k : SReg → SReg → Instr) : Dec :=
  { zer := decide (wB w ≠ 0), top := topBit (wD w) || topBit (wA w), i := some (k (low5 (wD w)) (low5 (wA w))) }

/-- R84: `sext` and `zext`, whose b holds the width code. -/
def decExt (w : IWord) (k : SReg → SReg → ExtW → Instr) : Dec :=
  match (wB w).toNat with
  | 0 => { top := topBit (wD w) || topBit (wA w), i := some (k (low5 (wD w)) (low5 (wA w)) .b) }
  | 1 => { top := topBit (wD w) || topBit (wA w), i := some (k (low5 (wD w)) (low5 (wA w)) .h) }
  | 2 => { top := topBit (wD w) || topBit (wA w), i := some (k (low5 (wD w)) (low5 (wA w)) .w) }
  | _ => .reserved

/-- The three-register instructions of major 0x01 (R84). -/
def tabInt : Nat → Option (SReg → SReg → SReg → Instr)
  | 0x00 => some .add
  | 0x01 => some .sub
  | 0x02 => some .and
  | 0x03 => some .or
  | 0x04 => some .xor
  | 0x05 => some .andn
  | 0x06 => some .sll
  | 0x07 => some .srl
  | 0x08 => some .sra
  | 0x09 => some .slt
  | 0x0A => some .sltu
  | 0x0B => some .min
  | 0x0C => some .max
  | 0x0D => some .minu
  | 0x0E => some .maxu
  | 0x10 => some .mul
  | 0x11 => some .mulh
  | 0x12 => some .mulhu
  | 0x14 => some .div
  | 0x15 => some .divu
  | 0x16 => some .rem
  | 0x17 => some .remu
  | _ => none

/-- The two-source instructions of majors 0x18, 0x19, 0x1A and 0x20 to 0x22 that accept either k (R93, R96). -/
def tabVBin : Nat → Nat → Option (VReg → VReg → VSrc → VMod → Instr)
  | 0x18, 0x00 => some .vadd
  | 0x18, 0x01 => some .vsub
  | 0x18, 0x02 => some .vrsub
  | 0x18, 0x03 => some .vmul
  | 0x18, 0x04 => some .vmulh
  | 0x18, 0x05 => some .vmulhu
  | 0x18, 0x06 => some .vmacc
  | 0x18, 0x07 => some .vnmsac
  | 0x18, 0x08 => some .vdiv
  | 0x18, 0x09 => some .vdivu
  | 0x18, 0x0A => some .vrem
  | 0x18, 0x0B => some .vremu
  | 0x18, 0x0C => some .vmin
  | 0x18, 0x0D => some .vmax
  | 0x18, 0x0E => some .vminu
  | 0x18, 0x0F => some .vmaxu
  | 0x18, 0x10 => some .vand
  | 0x18, 0x11 => some .vor
  | 0x18, 0x12 => some .vxor
  | 0x18, 0x13 => some .vsll
  | 0x18, 0x14 => some .vsrl
  | 0x18, 0x15 => some .vsra
  | 0x19, 0x00 => some .vwadd
  | 0x19, 0x01 => some .vwaddU
  | 0x19, 0x04 => some .vwsub
  | 0x19, 0x05 => some .vwsubU
  | 0x19, 0x08 => some .vwmul
  | 0x19, 0x09 => some .vwmulU
  | 0x19, 0x0A => some .vwmulSu
  | 0x19, 0x0C => some .vwmacc
  | 0x19, 0x0D => some .vwmaccU
  | 0x19, 0x0E => some .vwmaccSu
  | 0x19, 0x10 => some .vnsrl
  | 0x19, 0x11 => some .vnsra
  | 0x1A, 0x00 => some .vsadd
  | 0x1A, 0x01 => some .vsaddU
  | 0x1A, 0x02 => some .vssub
  | 0x1A, 0x03 => some .vssubU
  | 0x1A, 0x04 => some .vaadd
  | 0x1A, 0x05 => some .vaaddU
  | 0x1A, 0x06 => some .vsmul
  | 0x1A, 0x08 => some .vssrl
  | 0x1A, 0x09 => some .vssra
  | 0x1A, 0x0A => some .vnclip
  | 0x1A, 0x0B => some .vnclipU
  | 0x20, 0x00 => some .vfadd
  | 0x20, 0x01 => some .vfsub
  | 0x20, 0x02 => some .vfmul
  | 0x20, 0x03 => some .vfdiv
  | 0x20, 0x08 => some .vfmacc
  | 0x20, 0x09 => some .vfnmacc
  | 0x20, 0x0A => some .vfmsac
  | 0x20, 0x0B => some .vfnmsac
  | 0x20, 0x0C => some .vfmin
  | 0x20, 0x0D => some .vfmax
  | 0x20, 0x10 => some .vfsgnj
  | 0x20, 0x11 => some .vfsgnjN
  | 0x20, 0x12 => some .vfsgnjX
  | 0x22, 0x04 => some .vfwadd
  | 0x22, 0x05 => some .vfwmul
  | 0x22, 0x06 => some .vfwmacc
  | _, _ => none

/-- The unary instructions of majors 0x18, 0x1C and 0x20 whose destination is a vector register (R93, R95, R96). -/
def tabVUn : Nat → Nat → Option (VReg → VReg → VMod → Instr)
  | 0x18, 0x16 => some .vclz
  | 0x18, 0x17 => some .vpopc
  | 0x1C, 0x0A => some .vrank
  | 0x20, 0x04 => some .vfsqrt
  | 0x20, 0x05 => some .vfrsqe
  | 0x20, 0x06 => some .vfrece
  | 0x20, 0x07 => some .vfexp2
  | 0x20, 0x0E => some .vfclass
  | _, _ => none

/-- The conditions of `vcmp` (R94). -/
def tabIntCmp : Nat → Option IntCmp
  | 0 => some .eq | 1 => some .ne | 2 => some .lt | 3 => some .le | 4 => some .gt | 5 => some .ge
  | 6 => some .ltu | 7 => some .leu | 8 => some .gtu | 9 => some .geu | _ => none

/-- The relations of `vfcmp` (R96). -/
def tabFltCmp : Nat → Option FltCmp
  | 0 => some .eq | 1 => some .ne | 2 => some .lt | 3 => some .le | 4 => some .gt | 5 => some .ge | 6 => some .uo
  | _ => none

/-- The operations of `vred` and `vscan` (R95). -/
def tabRedOp : Nat → RedOp
  | 0 => .add | 1 => .min | 2 => .max | 3 => .minu | 4 => .maxu | 5 => .and | 6 => .or | _ => .xor

/-- The operations of `vfred` and `vfscan` (R96). -/
def tabFRedOp : Nat → Option FRedOp
  | 0 => some .sum | 1 => some .min | 2 => some .max | _ => none

/-- The source-format field of R97. -/
def tabSrcFmt : Nat → Option SrcFmt
  | 0x00 => some .int8 | 0x10 => some .int16 | 0x20 => some .int32 | 0x30 => some .int64
  | 0x01 => some .uint8 | 0x11 => some .uint16 | 0x21 => some .uint32 | 0x31 => some .uint64
  | 0x32 => some .fp64 | 0x23 => some .fp32 | 0x14 => some .bf16 | 0x15 => some .fp16
  | 0x06 => some .e4m3 | 0x07 => some .e5m2 | 0x08 => some .int4 | 0x19 => some .el16 | 0x2A => some .el32
  | _ => none

/-- The width field of the M format (R99). -/
def tabMWidth : Nat → Option MWidth
  | 0 => some .b | 1 => some .h | 2 => some .w | 3 => some .d | 4 => some .pk | _ => none

/-- The order field (R102). -/
def tabMOrd : Nat → Option MOrd
  | 0 => some .unord | 1 => some .ord | 2 => some .ff | _ => none

/-- The pattern field of `vldsl` and `vstp` (R100). -/
def tabSparse : Nat → Option SparsePat
  | 0 => some .p24b | 1 => some .p24h | 4 => some .p48b | 5 => some .p48h | _ => none

/-- The operations of `vamo` (R101). -/
def tabVAmo : Nat → Option VAmoOp
  | 0 => some .add | 1 => some .and | 2 => some .or | 3 => some .xor | 4 => some .min | 5 => some .max
  | 6 => some .minu | 7 => some .maxu | 8 => some .swap | _ => none

/-- The tile formats of R103: a VTYPE.FMT code, 0 for INT8. -/
def tabTileFmt : Nat → Option TileFmt
  | 0 => some .int8 | 2 => some .fp64 | 3 => some .fp32 | 4 => some .bf16 | 5 => some .fp16 | 6 => some .e4m3
  | 7 => some .e5m2 | 8 => some .int4 | 9 => some .el16 | 10 => some .el32 | _ => none

/-- The type codes of `fcvt` (R88). -/
def tabFcvtTy : Nat → Option FcvtTy
  | 0 => some .l | 1 => some .lu | 2 => some .w | 3 => some .wu | 4 => some .s | 5 => some .d | _ => none

/-- The atomics of major 0x0F (R87). -/
def tabAmo : Nat → Option (SReg → SReg → SReg → Bool → Bool → Bool → Instr)
  | 0 => some .amoAdd | 1 => some .amoAnd | 2 => some .amoOr | 3 => some .amoXor | 4 => some .amoMin | 5 => some .amoMax
  | 6 => some .amoMinu | 7 => some .amoMaxu | 8 => some .amoSwap | 9 => some .cas | _ => none

/-- The loads of major 0x0C by their w field (R87). -/
def tabLd : Nat → Option (SReg → SReg → Bool → BitVec 10 → Instr)
  | 0 => some .ldB | 1 => some .ldH | 2 => some .ldW | 3 => some .ldD | 4 => some .ldBu | 5 => some .ldHu
  | 6 => some .ldWu | _ => none

/-- The indexed loads of major 0x0E by their w field (R87). -/
def tabLdx : Nat → Option (SReg → SReg → SReg → Bool → Instr)
  | 0 => some .ldBIndexed | 1 => some .ldHIndexed | 2 => some .ldWIndexed | 3 => some .ldDIndexed
  | 4 => some .ldBuIndexed | 5 => some .ldHuIndexed | 6 => some .ldWuIndexed | _ => none

/-- The stores of major 0x0D by their w field (R87). -/
def tabSt : Nat → Option (SReg → SReg → Bool → BitVec 10 → Instr)
  | 0 => some .stB | 1 => some .stH | 2 => some .stW | 3 => some .stD | _ => none

/-- The indexed stores of major 0x0E by their w field (R87). -/
def tabStx : Nat → Option (SReg → SReg → SReg → Bool → Instr)
  | 0 => some .stBIndexed | 1 => some .stHIndexed | 2 => some .stWIndexed | 3 => some .stDIndexed | _ => none

/-- The two- and three-operand instructions of major 0x10, by op (R88). -/
def tabFp3 : Nat → Option (SReg → SReg → SReg → Bool → Instr)
  | 0x00 => some .fadd | 0x01 => some .fsub | 0x02 => some .fmul | 0x03 => some .fdiv | 0x05 => some .fmin
  | 0x06 => some .fmax | 0x08 => some .fcmpEq | 0x09 => some .fcmpLt | 0x0A => some .fcmpLe | 0x0B => some .fcmpUo
  | _ => none

/-- The one-operand instructions of major 0x10, by op (R88). -/
def tabFp2 : Nat → Option (SReg → SReg → Bool → Instr)
  | 0x04 => some .fsqrt | 0x0C => some .fclass | _ => none

/-- The fused forms of majors 0x11 and 0x13, by sub (R88). -/
def tabFma : Nat → Option (SReg → SReg → SReg → SReg → Bool → Instr)
  | 0 => some .fmadd | 1 => some .fmsub | 2 => some .fnmadd | _ => none

/-- The branches of majors 0x08 and 0x09, by major and c1:c0 (R86). -/
def tabBr : Nat → Nat → Option (SReg → SReg → BitVec 14 → Instr)
  | 0x08, 0 => some .beq | 0x08, 1 => some .bne | 0x08, 2 => some .blt | 0x08, 3 => some .bge
  | 0x09, 0 => some .bltu | 0x09, 1 => some .bgeu | 0x09, 2 => some .jlr | _, _ => none

/-- Fence scopes (R89). -/
def tabScope : Nat → Option FenceScope
  | 0 => some .seat | 1 => some .core | 2 => some .die | 3 => some .device | 4 => some .domain | 5 => some .system
  | _ => none

/-- The source in field 19..14 under k (R92). -/
def vsrc (w : IWord) : VSrc := if w.getLsbD 6 then .scalar (low5 (wA w)) else .reg (wA w)

/-- The modifiers of a V-format word under its prefix (R92, R109); `bit` is the place of m. -/
def vmod (w : IWord) (bit : Nat) (ctx : PreCtx) : VMod :=
  { m := w.getLsbD bit, pre := match ctx with | .mod p => some p | _ => none }

/-- R109: N = 1 with m = 0, or X = 1 on a major other than 0x20, 0x22 and 0x23. -/
def vpfx (mj : Nat) (md : VMod) : Bool :=
  match md.pre with
  | none => false
  | some p => (p.n && !md.m) || (p.x.isSome && !(mj == 0x20 || mj == 0x22 || mj == 0x23))

/-- The register that starts a pair in a V-format word is odd: vd of a widening form, va of a narrowing one
(spec/06_vector_integer_instructions.md R173, R174). -/
def oddPair (mj : Nat) (w : IWord) : Bool :=
  let fn := (w.extractLsb' 0 6).toNat
  if mj = 0x19 ∧ fn < 0x10 then (wD w).getLsbD 0
  else if mj = 0x19 ∨ (mj = 0x1A ∧ 0x0A ≤ fn) then (wB w).getLsbD 0
  else false

/-- A V-format word with either k. -/
def decVBin (mj : Nat) (ctx : PreCtx) (w : IWord) (k : VReg → VReg → VSrc → VMod → Instr) : Dec :=
  { top := w.getLsbD 6 && topBit (wA w), pfx := vpfx mj (vmod w 7 ctx), odd := oddPair mj w, i := some (k (wD w) (wB w) (vsrc w) (vmod w 7 ctx)) }

/-- A unary V-format word: k = 0 and field 19..14 = 0. -/
def decVUn (mj : Nat) (ctx : PreCtx) (w : IWord) (k : VReg → VReg → VMod → Instr) : Dec :=
  { zer := w.getLsbD 6 || decide (wA w ≠ 0), pfx := vpfx mj (vmod w 7 ctx), i := some (k (wD w) (wB w) (vmod w 7 ctx)) }

/-- A unary V-format word that writes an s or f register. -/
def decVUnS (mj : Nat) (ctx : PreCtx) (w : IWord) (m0 : Bool) (k : SReg → VReg → VMod → Instr) : Dec :=
  { zer := w.getLsbD 6 || decide (wA w ≠ 0) || (m0 && w.getLsbD 7), top := topBit (wD w), pfx := vpfx mj (vmod w 7 ctx),
    i := some (k (low5 (wD w)) (wB w) (vmod w 7 ctx)) }

/-- A V-format word with k = 0: three vector registers; `m0` says that m must be 0. -/
def decVK0 (mj : Nat) (ctx : PreCtx) (w : IWord) (m0 : Bool) (k : VReg → VReg → VReg → VMod → Instr) : Dec :=
  { zer := w.getLsbD 6 || (m0 && w.getLsbD 7), pfx := vpfx mj (vmod w 7 ctx),
    i := some (k (wD w) (wB w) (wA w) (vmod w 7 ctx)) }

/-- A V-format word with k = 1: the source in 19..14 is a scalar or f register. -/
def decVK1 (mj : Nat) (ctx : PreCtx) (w : IWord) (k : VReg → VReg → SReg → VMod → Instr) : Dec :=
  { rsv := !w.getLsbD 6, top := topBit (wA w), pfx := vpfx mj (vmod w 7 ctx),
    i := some (k (wD w) (wB w) (low5 (wA w)) (vmod w 7 ctx)) }

/-- A V-format word with k = 1 that writes an s or f register. -/
def decVK1S (mj : Nat) (ctx : PreCtx) (w : IWord) (k : SReg → VReg → SReg → VMod → Instr) : Dec :=
  { rsv := !w.getLsbD 6, top := topBit (wD w) || topBit (wA w), pfx := vpfx mj (vmod w 7 ctx),
    i := some (k (low5 (wD w)) (wB w) (low5 (wA w)) (vmod w 7 ctx)) }

/-- A conversion: k = 0, and 19..14 holds the source format (R97). -/
def decVCvt (mj : Nat) (ctx : PreCtx) (w : IWord) (k : VReg → VReg → SrcFmt → VMod → Instr) : Dec :=
  match tabSrcFmt (wA w).toNat with
  | none => .reserved
  | some f => { zer := w.getLsbD 6, pfx := vpfx mj (vmod w 7 ctx), i := some (k (wD w) (wB w) f (vmod w 7 ctx)) }

/-- `vmv vd, sa` and `vmv.vs vd, sa`: k = 1 and vs2 = 0 (R95). -/
def decVmvS (ctx : PreCtx) (w : IWord) (m0 : Bool) (k : VReg → SReg → VMod → Instr) : Dec :=
  { rsv := !w.getLsbD 6, zer := decide (wB w ≠ 0) || (m0 && w.getLsbD 7), top := topBit (wA w),
    pfx := vpfx 0x1D (vmod w 7 ctx), i := some (k (wD w) (low5 (wA w)) (vmod w 7 ctx)) }

/-- Majors 0x1B to 0x1E (R94, R95). -/
def decVMisc (mj : Nat) (ctx : PreCtx) (w : IWord) : Dec :=
  let fn := (w.extractLsb' 0 6).toNat
  match mj, fn with
  | 0x1B, _ =>
    match tabIntCmp (w.extractLsb' 0 4).toNat with
    | none => .reserved
    | some cc =>
      { (if w.getLsbD 5 then decVBin mj ctx w (.vcmpBrk cc) else decVBin mj ctx w (.vcmp cc)) with zer := w.getLsbD 4 }
  | 0x1C, 0x00 => decVK0 mj ctx w true .mkAnd
  | 0x1C, 0x01 => decVK0 mj ctx w true .mkOr
  | 0x1C, 0x02 => decVK0 mj ctx w true .mkXor
  | 0x1C, 0x03 => decVK0 mj ctx w true .mkAndn
  | 0x1C, 0x04 =>
    { decVUn mj ctx w .mkNot with zer := w.getLsbD 6 || decide (wA w ≠ 0) || w.getLsbD 7 }
  | 0x1C, 0x08 => decVUnS mj ctx w false .mcount
  | 0x1C, 0x09 => decVUnS mj ctx w false .mfirst
  | 0x1C, 0x0B =>
    { zer := w.getLsbD 6 || decide (wA w ≠ 0) || decide (wB w ≠ 0), pfx := vpfx mj (vmod w 7 ctx),
      i := some (.vindex (wD w) (vmod w 7 ctx)) }
  | 0x1D, 0x00 => if w.getLsbD 6 then decVmvS ctx w false .vmvScalar else decVUn mj ctx w .vmv
  | 0x1D, 0x01 => decVUnS mj ctx w true .vmvSv
  | 0x1D, 0x02 => decVmvS ctx w true .vmvVs
  | 0x1D, 0x03 => decVK1 mj ctx w .vslideu
  | 0x1D, 0x04 => decVK1 mj ctx w .vslided
  | 0x1D, 0x05 => decVK0 mj ctx w false .vperm
  | 0x1D, 0x06 => decVK0 mj ctx w false .vcompr
  | 0x1D, 0x07 => decVK0 mj ctx w false .vexpd
  | 0x1D, 0x08 => { decVBin mj ctx w .vmerge with zer := w.getLsbD 7 }
  | 0x1D, 0x09 => decVK1 mj ctx w .vtopk
  | 0x1E, n =>
    if n < 8 then decVK1S mj ctx w (.vred (tabRedOp n))
    else if n < 16 then decVK1 mj ctx w (.vscan (tabRedOp (n - 8)))
    else .reserved
  | _, _ => .reserved

/-- Majors 0x21 to 0x24 but for the widening forms (R96). -/
def decVFMisc (mj : Nat) (ctx : PreCtx) (w : IWord) : Dec :=
  let fn := (w.extractLsb' 0 6).toNat
  match mj, fn with
  | 0x21, n =>
    match tabFltCmp n with
    | none => .reserved
    | some cc => decVBin mj ctx w (.vfcmp cc)
  | 0x22, 0x00 => decVCvt mj ctx w .vfcvt
  | 0x22, 0x01 => decVCvt mj ctx w .vfncvt
  | 0x23, 0x04 => decVK1S mj ctx w .vfredoSum
  | 0x23, 0x10 => decVK1 mj ctx w .vlrec
  | 0x23, n =>
    if n < 4 then
      match tabFRedOp n with
      | none => .reserved
      | some op => decVK1S mj ctx w (.vfred op)
    else if 8 ≤ n ∧ n < 12 then
      match tabFRedOp (n - 8) with
      | none => .reserved
      | some op => decVK1 mj ctx w (.vfscan op)
    else .reserved
  | 0x24, 0x00 => decVCvt mj ctx w .vlq
  | 0x24, 0x01 => decVCvt mj ctx w .vlx
  | 0x24, 0x02 => decVCvt mj ctx w .vlrq
  | _, _ => .reserved

/-- Majors 0x18 to 0x24 (R92 to R97). -/
def decV (mj : Nat) (ctx : PreCtx) (w : IWord) : Dec :=
  match tabVBin mj (w.extractLsb' 0 6).toNat with
  | some k => decVBin mj ctx w k
  | none =>
    match tabVUn mj (w.extractLsb' 0 6).toNat with
    | some k => decVUn mj ctx w k
    | none => if mj ≤ 0x1E then decVMisc mj ctx w else decVFMisc mj ctx w

/-- The forms of majors 0x28, 0x29, 0x2A and 0x2C, by major and mode, given width, order and modifiers (R100, R102).
`ffOk` of the result says that `.ff` is legal. -/
def decMForm (mj mode : Nat) (w : IWord) (wd : MWidth) (md : VMod) (mo : MOrd) : Dec :=
  let idx0 := decide (wB w ≠ 0)
  let base := low5 (wA w)
  let tb := topBit (wA w)
  let noFf := decide (mo = .ff)
  match mj, mode with
  | 0x28, 0 => { zer := idx0, top := tb, i := some (.vld (wD w) base wd md mo) }
  | 0x28, 1 => { top := tb || topBit (wB w), i := some (.vlds (wD w) base (low5 (wB w)) wd md mo) }
  | 0x28, 2 => { top := tb, i := some (.vldx (wD w) base (wB w) wd md mo) }
  | 0x28, 3 =>
    { rsv := noFf || decide (w.extractLsb' 8 3 = 0), zer := decide (w.extractLsb' 11 3 ≠ 0), top := tb,
      i := some (.vlseg (wD w) base (w.extractLsb' 8 3) wd md mo) }
  | 0x29, 0 => { rsv := noFf, zer := idx0, top := tb, i := some (.vst (wD w) base wd md mo) }
  | 0x29, 1 => { rsv := noFf, top := tb || topBit (wB w), i := some (.vsts (wD w) base (low5 (wB w)) wd md mo) }
  | 0x29, 2 => { rsv := noFf, top := tb, i := some (.vstx (wD w) base (wB w) wd md mo) }
  | 0x29, 3 =>
    { rsv := noFf || decide (w.extractLsb' 8 3 = 0), zer := decide (w.extractLsb' 11 3 ≠ 0), top := tb,
      i := some (.vsseg (wD w) base (w.extractLsb' 8 3) wd md mo) }
  | 0x2A, 2 => { rsv := noFf, top := tb || topBit (wB w), i := some (.vstc (wD w) base (low5 (wB w)) wd md mo) }
  | 0x2C, 0 => { rsv := decide (mo ≠ .unord), top := tb, i := some (.vstxr (wD w) base (wB w) wd md mo) }
  | 0x2C, 1 => { rsv := noFf, zer := idx0, top := tb, i := some (.vstj (wD w) base wd md mo) }
  | 0x2C, 2 => { rsv := noFf, top := tb, i := some (.vstjIndexed (wD w) base (wB w) wd md mo) }
  | _, _ => .reserved

/-- Majors 0x28 to 0x2C (R99 to R102). -/
def decM (mj : Nat) (ctx : PreCtx) (w : IWord) : Dec :=
  let md := vmod w 2 ctx
  let pfx := vpfx mj md
  match tabMOrd (w.extractLsb' 0 2).toNat with
  | none => .reserved
  | some mo =>
    let mode := (w.extractLsb' 3 2).toNat
    if mj = 0x2B then
      match tabVAmo ((w.extractLsb' 6 2).toNat * 4 + mode) with
      | none => .reserved
      | some op =>
        { rsv := decide (mo = .ff), top := topBit (wA w), pfx := pfx,
          i := some (.vamo op (w.getLsbD 5) (wD w) (low5 (wA w)) (wB w) md mo) }
    else if mj = 0x2A ∧ mode < 2 then
      match tabSparse (w.extractLsb' 5 3).toNat with
      | none => .reserved
      | some p =>
        if mode = 0 then
          { zer := decide (wB w ≠ 0), top := topBit (wA w), pfx := pfx, i := some (.vldsl (wD w) (low5 (wA w)) p md mo) }
        else
          { rsv := decide (mo = .ff), top := topBit (wA w) || topBit (wB w), pfx := pfx,
            i := some (.vstp (wD w) (low5 (wA w)) (low5 (wB w)) p md mo) }
    else
      match tabMWidth (w.extractLsb' 5 3).toNat with
      | none => .reserved
      | some wd => { decMForm mj mode w wd md mo with pfx := pfx }

/-- Majors 0x2E and 0x2F (R103). Of `twait` and `tzero` the field fn 7..4 must be zero whatever it holds: 0x02 (DESIGN CHOICE;
log 56). -/
def decMat (mj : Nat) (w : IWord) : Dec :=
  if mj = 0x2E then
    match (w.extractLsb' 0 6).toNat with
    | 0 => { zer := w.getLsbD 7 || decide (wA w ≠ 0), i := some (.mxr (wD w) (wB w) (w.getLsbD 6)) }
    | 1 => { zer := w.getLsbD 7, i := some (.mxri (wD w) (wB w) (wA w) (w.getLsbD 6)) }
    | 2 => { zer := w.getLsbD 7 || decide (wA w ≠ 0), i := some (.mxrt (wD w) (wB w) (w.getLsbD 6)) }
    | _ => .reserved
  else
    let bad := decide (1 < (wD w).toNat)
    let tb := (wD w).getLsbD 0
    let z := decide (wA w ≠ 0) || decide (wB w ≠ 0) || decide (w.extractLsb' 4 4 ≠ 0)
    match (w.extractLsb' 0 4).toNat with
    | 0 =>
      match tabTileFmt (w.extractLsb' 4 4).toNat with
      | none => .reserved
      | some f =>
        { rsv := bad, top := topBit (wA w) || topBit (wB w), i := some (.tld tb (low5 (wA w)) (low5 (wB w)) f) }
    | 1 => { rsv := bad, zer := z, i := some (.twait tb) }
    | 2 => { rsv := bad, zer := z, i := some (.tzero tb) }
    | _ => .reserved

/-- Major 0x30 (R104, R111). -/
noncomputable def decFx (ctx : PreCtx) (w : IWord) : Dec :=
  let slot := w.extractLsb' 0 6
  let two := w.getLsbD 6
  match ctx with
  | .fx e f arg cnt =>
    let src : FxSrcs := if cnt = 0 then .one (wB w) else if cnt = 1 then .two (wB w) (wA w) else .three (wB w) (wA w) e
    { rsv := decide (cnt = 3),
      zer := w.getLsbD 7 || (decide (cnt = 0) && decide (wA w ≠ 0)) || (decide (cnt ≠ 2) && decide (e ≠ 0)),
      top := topBit f || topBit arg, pfx := two || !fxLenWf src (low5 f),
      i := some (.fxLong (wD w) slot src (low5 f) (low5 arg)) }
  | _ =>
    if two then { zer := w.getLsbD 7, i := some (.fxTwo (wD w) (wB w) (wA w) slot) }
    else { zer := w.getLsbD 7 || decide (wA w ≠ 0), i := some (.fx (wD w) (wB w) slot) }

/-- Major 0x31 (R105). -/
noncomputable def decFabric (w : IWord) : Dec :=
  let d := wD w
  let a := wA w
  let b := wB w
  let d0 := decide (d ≠ 0)
  match (wFn w).toNat with
  | 0x01 => { zer := d0, top := topBit a, i := some (.fbind b (low5 a)) }
  | 0x02 => { zer := d0 || decide (a ≠ 0), i := some (.funbind b) }
  | 0x03 => { zer := decide (b ≠ 0), top := topBit d || topBit a, i := some (.fload (low5 d) (low5 a)) }
  | 0x04 => { zer := d0 || decide (b ≠ 0), top := topBit a, i := some (.fdrop (low5 a)) }
  | 0x05 => { zer := d0, top := topBit a, i := some (.fshadow b (low5 a)) }
  | 0x06 => { top := topBit d || topBit a, i := some (.fquery (low5 d) b (low5 a)) }
  | _ => .reserved

/-- Major 0x34 (R106). -/
noncomputable def decSync (w : IWord) : Dec :=
  let d := wD w
  let a := wA w
  let b := wB w
  let d0 := decide (d ≠ 0)
  let a0 := decide (a ≠ 0)
  let b0 := decide (b ≠ 0)
  let fn := (wFn w).toNat
  if 0x10 ≤ fn ∧ fn ≤ 0x13 then
    { zer := d0, top := topBit a || topBit b, i := some (.stj (low5 a) (low5 b) (w.getLsbD 1) (w.getLsbD 0)) }
  else if 0x14 ≤ fn ∧ fn ≤ 0x17 then decRrr w (fun d a b => .ltw d a b (w.getLsbD 1) (w.getLsbD 0))
  else if 0x18 ≤ fn ∧ fn ≤ 0x1B then decRrr w (fun d a b => .ltwn d a b (w.getLsbD 1) (w.getLsbD 0))
  else
    match fn with
    | 0x1C => { zer := d0 || b0, top := topBit a, i := some (.lsync (low5 a)) }
    | 0x20 => { zer := d0 || a0 || b0, i := some .wait }
    | 0x21 => { zer := d0 || a0 || b0, i := some .waitY }
    | 0x22 => { zer := d0 || a0 || b0, i := some .cbar }
    | 0x28 => decRr0 w .await
    | 0x29 => decRr0 w .aquery
    | 0x30 => { zer := a0 || b0, i := some (.vsendNx d) }
    | 0x31 => { zer := a0 || b0, i := some (.vsendPv d) }
    | 0x32 => { zer := a0 || b0, i := some (.vrecvNx d) }
    | 0x33 => { zer := a0 || b0, i := some (.vrecvPv d) }
    | 0x38 => decRr0 w .launch
    | 0x39 => { zer := d0 || a0 || b0, i := some .exit }
    | _ => .reserved

/-- Major 0x35 (R107, R108). -/
noncomputable def decCopy (ctx : PreCtx) (w : IWord) : Dec :=
  let c := w.extractLsb' 2 6
  let tops := topBit (wD w) || topBit (wA w) || topBit (wB w) || topBit c
  let r := decide (w.extractLsb' 0 2 ≠ 0)
  match ctx with
  | .copy2d e f g =>
    { rsv := r, top := tops || topBit e || topBit f || topBit g,
      i := some (.acopy2d (low5 (wD w)) (low5 (wA w)) (low5 (wB w)) (low5 c) (low5 e) (low5 f) (low5 g)) }
  | _ => { rsv := r, top := tops, i := some (.acopy (low5 (wD w)) (low5 (wA w)) (low5 (wB w)) (low5 c)) }

/-- Major 0x14 (R89). -/
def decSystem (w : IWord) : Dec :=
  let d := wD w
  let a := wA w
  let b := wB w
  let all0 := decide (d ≠ 0) || decide (a ≠ 0) || decide (b ≠ 0)
  match (wFn w).toNat with
  | 0x01 => { zer := decide (d ≠ 0), i := some (.trap (w.extractLsb' 8 12)) }
  | 0x02 => { zer := all0, i := some .eret }
  | 0x03 => { zer := decide (d ≠ 0), i := some (.brk (w.extractLsb' 8 12)) }
  | 0x04 =>
    match tabScope (w.extractLsb' 20 3).toNat with
    | none => .reserved
    | some sc =>
      { rsv := decide (w.extractLsb' 14 4 = 0),
        zer := decide (w.extractLsb' 23 3 ≠ 0) || decide (w.extractLsb' 18 2 ≠ 0) || decide (b ≠ 0),
        i := some (.fence sc ⟨w.getLsbD 14, w.getLsbD 15, w.getLsbD 16, w.getLsbD 17⟩) }
  | 0x05 => { zer := all0, i := some .fencei }
  | 0x06 =>
    match d.toNat with
    | 0 => { top := topBit a || topBit b, i := some (.tlbi .all (low5 a) (low5 b)) }
    | 1 => { top := topBit a || topBit b, i := some (.tlbi .asid (low5 a) (low5 b)) }
    | 2 => { top := topBit a || topBit b, i := some (.tlbi .addr (low5 a) (low5 b)) }
    | _ => .reserved
  | 0x07 => { zer := decide (d ≠ 0) || decide (b ≠ 0), top := topBit a, i := some (.ctxsv (low5 a)) }
  | 0x08 => { zer := decide (d ≠ 0) || decide (b ≠ 0), top := topBit a, i := some (.ctxld (low5 a)) }
  | 0x09 => { zer := all0, i := some .halt }
  | _ => .reserved

/-- Major 0x16 (R91). LANES of `vcfg` and `vshape` must be zero whatever it holds: 0x02 for 9 to 14 too, which are reserved values of
`setvl`'s LANES (DESIGN CHOICE; log 56). -/
def decVConfig (w : IWord) : Dec :=
  let d := wD w
  let a := wA w
  let b := wB w
  let lanes := w.extractLsb' 4 4
  match (w.extractLsb' 0 4).toNat with
  | 0 =>
    if lanes = 15 then decRrr w (fun d a b => .setvl d a b .cur)
    else { decRrr w (fun d a b => .setvl d a b (.octets lanes)) with rsv := decide (8 < lanes.toNat) }
  | 1 => { zer := decide (lanes ≠ 0) || decide (d ≠ 0) || decide (b ≠ 0), top := topBit a, i := some (.vcfg (low5 a)) }
  | 2 =>
    { rsv := decide (3 < b.toNat), zer := decide (lanes ≠ 0) || decide (d ≠ 0) || decide (a ≠ 0),
      i := some (.vshape (w.extractLsb' 8 2)) }
  | _ => .reserved

/-- Majors 0x0C to 0x0F (R87). -/
def decScalarMem (mj : Nat) (w : IWord) : Dec :=
  let wc := (w.extractLsb' 11 3).toNat
  let tops := topBit (wD w) || topBit (wA w)
  match mj with
  | 0x0C =>
    match tabLd wc with
    | none => .reserved
    | some k => { top := tops, i := some (k (low5 (wD w)) (low5 (wA w)) (w.getLsbD 10) (w.extractLsb' 0 10)) }
  | 0x0D =>
    match tabSt wc with
    | none => .reserved
    | some k => { top := tops, i := some (k (low5 (wD w)) (low5 (wA w)) (w.getLsbD 10) (w.extractLsb' 0 10)) }
  | 0x0E =>
    match (if w.getLsbD 4 then tabStx else tabLdx) (w.extractLsb' 5 3).toNat with
    | none => .reserved
    | some k => { decRrr w (fun d a b => k d a b (w.getLsbD 3)) with zer := decide (w.extractLsb' 0 3 ≠ 0) }
  | _ =>
    match tabAmo (w.extractLsb' 4 4).toNat with
    | none => .reserved
    | some k =>
      { decRrr w (fun d a b => k d a b (w.getLsbD 3) (w.getLsbD 2) (w.getLsbD 1)) with zer := w.getLsbD 0 }

/-- Majors 0x10 to 0x13 (R88). -/
def decFp (mj : Nat) (w : IWord) : Dec :=
  match mj with
  | 0x10 =>
    let op := (w.extractLsb' 1 7).toNat
    match tabFp3 op with
    | some k => decRrr w (fun d a b => k d a b (w.getLsbD 0))
    | none =>
      match tabFp2 op with
      | some k => decRr0 w (fun d a => k d a (w.getLsbD 0))
      | none => .reserved
  | 0x12 =>
    match (wFn w).toNat with
    | 0x80 => decRr0 w .fmvS
    | 0x81 => decRr0 w .fmvD
    | 0x82 => decRr0 w .fmvX
    | 0x83 => decRr0 w .fmvF
    | _ =>
      match tabFcvtTy (w.extractLsb' 4 4).toNat, tabFcvtTy (w.extractLsb' 0 4).toNat with
      | some t, some f => { decRr0 w (fun d a => .fcvt d a ⟨t, f⟩) with rsv := !FcvtPair.wf ⟨t, f⟩ }
      | _, _ => .reserved
  | _ =>
    match tabFma (w.extractLsb' 0 2).toNat with
    | none => .reserved
    | some k =>
      let c := w.extractLsb' 2 6
      { top := topBit (wD w) || topBit (wA w) || topBit (wB w) || topBit c,
        i := some (k (low5 (wD w)) (low5 (wA w)) (low5 (wB w)) (low5 c) (decide (mj = 0x13))) }

/-- Majors 0x02 to 0x07, with the WIDE forms (R85, R110). -/
def decImm (mj : Nat) (ctx : PreCtx) (w : IWord) : Dec :=
  let d := low5 (wD w)
  let a := low5 (wA w)
  let tops := topBit (wD w) || topBit (wA w)
  match mj with
  | 0x02 =>
    match ctx with
    | .wide u => { top := tops, i := some (.addiWide d a (u ++ w.extractLsb' 0 14)) }
    | _ => { top := tops, i := some (.addi d a (w.extractLsb' 0 14)) }
  | 0x03 =>
    match (w.extractLsb' 12 2).toNat with
    | 0 => { top := tops, i := some (.andi d a (w.extractLsb' 0 12)) }
    | 1 => { top := tops, i := some (.ori d a (w.extractLsb' 0 12)) }
    | 2 => { top := tops, i := some (.xori d a (w.extractLsb' 0 12)) }
    | _ => .reserved
  | 0x04 =>
    let z := decide (w.extractLsb' 6 6 ≠ 0)
    match (w.extractLsb' 12 2).toNat with
    | 0 => { zer := z, top := tops, i := some (.slli d a (w.extractLsb' 0 6)) }
    | 1 => { zer := z, top := tops, i := some (.srli d a (w.extractLsb' 0 6)) }
    | 2 => { zer := z, top := tops, i := some (.srai d a (w.extractLsb' 0 6)) }
    | _ => .reserved
  | 0x05 =>
    if w.getLsbD 13 then { top := tops, i := some (.sltiu d a (w.extractLsb' 0 13)) }
    else { top := tops, i := some (.slti d a (w.extractLsb' 0 13)) }
  | 0x06 =>
    match ctx with
    | .wide u => { top := topBit (wD w), i := some (.lhiWide d (u ++ w.extractLsb' 0 20)) }
    | _ => { top := topBit (wD w), i := some (.lhi d (w.extractLsb' 0 20)) }
  | _ =>
    match ctx with
    | .wide u => { top := topBit (wD w), i := some (.lpcWide d (u ++ w.extractLsb' 0 20)) }
    | _ => { top := topBit (wD w), i := some (.lpc d (w.extractLsb' 0 20)) }

/-- Majors 0x08 to 0x0B (R86). The B format names s registers in five bits (R80). -/
def decBranch (mj : Nat) (w : IWord) : Dec :=
  match mj with
  | 0x0A => { i := some (.j (w.extractLsb' 0 26)) }
  | 0x0B => { i := some (.jl (w.extractLsb' 0 26)) }
  | _ =>
    match tabBr mj ((if w.getLsbD 25 then 2 else 0) + (if w.getLsbD 19 then 1 else 0)) with
    | none => .reserved
    | some k => { i := some (k (w.extractLsb' 20 5) (w.extractLsb' 14 5) (w.extractLsb' 0 14)) }

/-- A base word of a major that is not reserved, under its prefix. -/
noncomputable def decBase (ctx : PreCtx) (w : IWord) : Dec :=
  let mj := (wMajor w).toNat
  if mj = 0x01 then
    match tabInt (wFn w).toNat with
    | some k => decRrr w k
    | none =>
      match (wFn w).toNat with
      | 0x18 => decRr0 w .clz
      | 0x19 => decRr0 w .ctz
      | 0x1A => decRr0 w .popc
      | 0x1C => decExt w .sext
      | 0x1D => decExt w .zext
      | _ => .reserved
  else if mj ≤ 0x07 then decImm mj ctx w
  else if mj ≤ 0x0B then decBranch mj w
  else if mj ≤ 0x0F then decScalarMem mj w
  else if mj ≤ 0x13 then decFp mj w
  else if mj = 0x14 then decSystem w
  else if mj = 0x15 then
    match (w.extractLsb' 0 2).toNat with
    | 0 => { zer := decide (wA w ≠ 0), top := topBit (wD w), i := some (.xrd (low5 (wD w)) (w.extractLsb' 2 12)) }
    | 1 => { zer := decide (wD w ≠ 0), top := topBit (wA w), i := some (.xwr (w.extractLsb' 2 12) (low5 (wA w))) }
    | 2 => { top := topBit (wD w) || topBit (wA w), i := some (.xset (low5 (wD w)) (w.extractLsb' 2 12) (low5 (wA w))) }
    | _ => { top := topBit (wD w) || topBit (wA w), i := some (.xclr (low5 (wD w)) (w.extractLsb' 2 12) (low5 (wA w))) }
  else if mj = 0x16 then decVConfig w
  else if mj = 0x17 then
    { top := topBit (wD w) || topBit (wA w), i := some (.setvli (low5 (wD w)) (low5 (wA w)) (w.extractLsb' 0 14)) }
  else if mj ≤ 0x24 then decV mj ctx w
  else if mj ≤ 0x2C then decM mj ctx w
  else if mj ≤ 0x2F then decMat mj w
  else if mj = 0x30 then decFx ctx w
  else if mj = 0x31 then decFabric w
  else if mj = 0x34 then decSync w
  else decCopy ctx w

/-- The prefix word's own checks and what it means (R108): a reserved value, a non-zero zero field, a top bit. -/
def decPrefix (kind : Nat) (w : IWord) : Bool × Bool × Bool × PreCtx :=
  let e := wD w
  let f := wA w
  match kind with
  | 1 =>
    let x := w.getLsbD 2
    (false, decide (w.extractLsb' 3 5 ≠ 0) || decide (f ≠ 0) || (!x && decide (e ≠ 0)), false,
      .mod ⟨w.getLsbD 0, w.getLsbD 1, if x then some e else none⟩)
  | 2 => (false, false, false, .wide (e ++ f ++ w.extractLsb' 0 8))
  | 3 => (decide (w.extractLsb' 0 2 = 3), false, topBit f || topBit (w.extractLsb' 2 6), .fx e f (w.extractLsb' 2 6) (w.extractLsb' 0 2))
  | _ => (false, decide (w.extractLsb' 0 2 ≠ 0), false, .copy2d e f (w.extractLsb' 2 6))

/-- One instruction from its first word and the word after it, which only a long form uses (R78, R112, R114). -/
noncomputable def decodeOne (w0 w1 : IWord) : Except Illegal Instr :=
  let m0 := (wMajor w0).toNat
  if m0 = 0x3E then
    let kind := (wB w0).toNat
    let m1 := (wMajor w1).toNat
    if kind = 0 ∨ 4 < kind ∨ reservedMajor m1 then .error .major
    else if m1 = 0x3E ∨ !kindAllows kind m1 then .error .misuse
    else
      let (rsv, zer, top, ctx) := decPrefix kind w0
      let d := decBase ctx w1
      ({ d with rsv := d.rsv || rsv, zer := d.zer || zer, top := d.top || top } : Dec).finish
  else if reservedMajor m0 then .error .major
  else (decBase .none w0).finish

/-- Whether a word is a MOD prefix with P = 1: the word after a first half (R109). -/
def isPairPrefix (w : IWord) : Bool :=
  decide (wMajor w = 0x3E) && decide (wB w = 0x01) && w.getLsbD 1

/-- The half of a pair that an instruction can be, with its modifiers (R109): an element-wise instruction of majors
0x18, 0x1A or 0x20 other than `vnclip` and `vnclip.u`. -/
def pairHalf : Instr → Option (PairHalf × VMod)
  | .vadd d a b md => some (⟨.int .add, d, a, b, md.pre.bind ModPre.x⟩, md)
  | .vsub d a b md => some (⟨.int .sub, d, a, b, md.pre.bind ModPre.x⟩, md)
  | .vrsub d a b md => some (⟨.int .rsub, d, a, b, md.pre.bind ModPre.x⟩, md)
  | .vmul d a b md => some (⟨.int .mul, d, a, b, md.pre.bind ModPre.x⟩, md)
  | .vmulh d a b md => some (⟨.int .mulh, d, a, b, md.pre.bind ModPre.x⟩, md)
  | .vmulhu d a b md => some (⟨.int .mulhu, d, a, b, md.pre.bind ModPre.x⟩, md)
  | .vmacc d a b md => some (⟨.int .macc, d, a, b, md.pre.bind ModPre.x⟩, md)
  | .vnmsac d a b md => some (⟨.int .nmsac, d, a, b, md.pre.bind ModPre.x⟩, md)
  | .vdiv d a b md => some (⟨.int .div, d, a, b, md.pre.bind ModPre.x⟩, md)
  | .vdivu d a b md => some (⟨.int .divu, d, a, b, md.pre.bind ModPre.x⟩, md)
  | .vrem d a b md => some (⟨.int .rem, d, a, b, md.pre.bind ModPre.x⟩, md)
  | .vremu d a b md => some (⟨.int .remu, d, a, b, md.pre.bind ModPre.x⟩, md)
  | .vmin d a b md => some (⟨.int .min, d, a, b, md.pre.bind ModPre.x⟩, md)
  | .vmax d a b md => some (⟨.int .max, d, a, b, md.pre.bind ModPre.x⟩, md)
  | .vminu d a b md => some (⟨.int .minu, d, a, b, md.pre.bind ModPre.x⟩, md)
  | .vmaxu d a b md => some (⟨.int .maxu, d, a, b, md.pre.bind ModPre.x⟩, md)
  | .vand d a b md => some (⟨.int .and, d, a, b, md.pre.bind ModPre.x⟩, md)
  | .vor d a b md => some (⟨.int .or, d, a, b, md.pre.bind ModPre.x⟩, md)
  | .vxor d a b md => some (⟨.int .xor, d, a, b, md.pre.bind ModPre.x⟩, md)
  | .vsll d a b md => some (⟨.int .sll, d, a, b, md.pre.bind ModPre.x⟩, md)
  | .vsrl d a b md => some (⟨.int .srl, d, a, b, md.pre.bind ModPre.x⟩, md)
  | .vsra d a b md => some (⟨.int .sra, d, a, b, md.pre.bind ModPre.x⟩, md)
  | .vclz d a md => some (⟨.int .clz, d, a, .reg 0, md.pre.bind ModPre.x⟩, md)
  | .vpopc d a md => some (⟨.int .popc, d, a, .reg 0, md.pre.bind ModPre.x⟩, md)
  | .vsadd d a b md => some (⟨.fix .sadd, d, a, b, md.pre.bind ModPre.x⟩, md)
  | .vsaddU d a b md => some (⟨.fix .saddU, d, a, b, md.pre.bind ModPre.x⟩, md)
  | .vssub d a b md => some (⟨.fix .ssub, d, a, b, md.pre.bind ModPre.x⟩, md)
  | .vssubU d a b md => some (⟨.fix .ssubU, d, a, b, md.pre.bind ModPre.x⟩, md)
  | .vaadd d a b md => some (⟨.fix .aadd, d, a, b, md.pre.bind ModPre.x⟩, md)
  | .vaaddU d a b md => some (⟨.fix .aaddU, d, a, b, md.pre.bind ModPre.x⟩, md)
  | .vsmul d a b md => some (⟨.fix .smul, d, a, b, md.pre.bind ModPre.x⟩, md)
  | .vssrl d a b md => some (⟨.fix .ssrl, d, a, b, md.pre.bind ModPre.x⟩, md)
  | .vssra d a b md => some (⟨.fix .ssra, d, a, b, md.pre.bind ModPre.x⟩, md)
  | .vfadd d a b md => some (⟨.flt .add, d, a, b, md.pre.bind ModPre.x⟩, md)
  | .vfsub d a b md => some (⟨.flt .sub, d, a, b, md.pre.bind ModPre.x⟩, md)
  | .vfmul d a b md => some (⟨.flt .mul, d, a, b, md.pre.bind ModPre.x⟩, md)
  | .vfdiv d a b md => some (⟨.flt .div, d, a, b, md.pre.bind ModPre.x⟩, md)
  | .vfmacc d a b md => some (⟨.flt .macc, d, a, b, md.pre.bind ModPre.x⟩, md)
  | .vfnmacc d a b md => some (⟨.flt .nmacc, d, a, b, md.pre.bind ModPre.x⟩, md)
  | .vfmsac d a b md => some (⟨.flt .msac, d, a, b, md.pre.bind ModPre.x⟩, md)
  | .vfnmsac d a b md => some (⟨.flt .nmsac, d, a, b, md.pre.bind ModPre.x⟩, md)
  | .vfmin d a b md => some (⟨.flt .min, d, a, b, md.pre.bind ModPre.x⟩, md)
  | .vfmax d a b md => some (⟨.flt .max, d, a, b, md.pre.bind ModPre.x⟩, md)
  | .vfsgnj d a b md => some (⟨.flt .sgnj, d, a, b, md.pre.bind ModPre.x⟩, md)
  | .vfsgnjN d a b md => some (⟨.flt .sgnjn, d, a, b, md.pre.bind ModPre.x⟩, md)
  | .vfsgnjX d a b md => some (⟨.flt .sgnjx, d, a, b, md.pre.bind ModPre.x⟩, md)
  | .vfsqrt d a md => some (⟨.flt .sqrt, d, a, .reg 0, md.pre.bind ModPre.x⟩, md)
  | .vfrsqe d a md => some (⟨.flt .rsqe, d, a, .reg 0, md.pre.bind ModPre.x⟩, md)
  | .vfrece d a md => some (⟨.flt .rece, d, a, .reg 0, md.pre.bind ModPre.x⟩, md)
  | .vfexp2 d a md => some (⟨.flt .exp2, d, a, .reg 0, md.pre.bind ModPre.x⟩, md)
  | .vfclass d a md => some (⟨.flt .cls, d, a, .reg 0, md.pre.bind ModPre.x⟩, md)
  | _ => none

/-- The number of words of an instruction (R78): 2 for a long form, 3 for a pair, 0 for an event. -/
def Instr.words : Instr → Nat
  | .add _ _ _ => 1
  | .sub _ _ _ => 1
  | .and _ _ _ => 1
  | .or _ _ _ => 1
  | .xor _ _ _ => 1
  | .andn _ _ _ => 1
  | .sll _ _ _ => 1
  | .srl _ _ _ => 1
  | .sra _ _ _ => 1
  | .slt _ _ _ => 1
  | .sltu _ _ _ => 1
  | .min _ _ _ => 1
  | .max _ _ _ => 1
  | .minu _ _ _ => 1
  | .maxu _ _ _ => 1
  | .mul _ _ _ => 1
  | .mulh _ _ _ => 1
  | .mulhu _ _ _ => 1
  | .div _ _ _ => 1
  | .divu _ _ _ => 1
  | .rem _ _ _ => 1
  | .remu _ _ _ => 1
  | .clz _ _ => 1
  | .ctz _ _ => 1
  | .popc _ _ => 1
  | .sext _ _ _ => 1
  | .zext _ _ _ => 1
  | .addi _ _ _ => 1
  | .addiWide _ _ _ => 2
  | .andi _ _ _ => 1
  | .ori _ _ _ => 1
  | .xori _ _ _ => 1
  | .slli _ _ _ => 1
  | .srli _ _ _ => 1
  | .srai _ _ _ => 1
  | .slti _ _ _ => 1
  | .sltiu _ _ _ => 1
  | .lhi _ _ => 1
  | .lhiWide _ _ => 2
  | .lpc _ _ => 1
  | .lpcWide _ _ => 2
  | .beq _ _ _ => 1
  | .bne _ _ _ => 1
  | .blt _ _ _ => 1
  | .bge _ _ _ => 1
  | .bltu _ _ _ => 1
  | .bgeu _ _ _ => 1
  | .jlr _ _ _ => 1
  | .j _ => 1
  | .jl _ => 1
  | .ldB _ _ _ _ => 1
  | .ldH _ _ _ _ => 1
  | .ldW _ _ _ _ => 1
  | .ldD _ _ _ _ => 1
  | .ldBu _ _ _ _ => 1
  | .ldHu _ _ _ _ => 1
  | .ldWu _ _ _ _ => 1
  | .stB _ _ _ _ => 1
  | .stH _ _ _ _ => 1
  | .stW _ _ _ _ => 1
  | .stD _ _ _ _ => 1
  | .ldBIndexed _ _ _ _ => 1
  | .ldHIndexed _ _ _ _ => 1
  | .ldWIndexed _ _ _ _ => 1
  | .ldDIndexed _ _ _ _ => 1
  | .ldBuIndexed _ _ _ _ => 1
  | .ldHuIndexed _ _ _ _ => 1
  | .ldWuIndexed _ _ _ _ => 1
  | .stBIndexed _ _ _ _ => 1
  | .stHIndexed _ _ _ _ => 1
  | .stWIndexed _ _ _ _ => 1
  | .stDIndexed _ _ _ _ => 1
  | .amoAdd _ _ _ _ _ _ => 1
  | .amoAnd _ _ _ _ _ _ => 1
  | .amoOr _ _ _ _ _ _ => 1
  | .amoXor _ _ _ _ _ _ => 1
  | .amoMin _ _ _ _ _ _ => 1
  | .amoMax _ _ _ _ _ _ => 1
  | .amoMinu _ _ _ _ _ _ => 1
  | .amoMaxu _ _ _ _ _ _ => 1
  | .amoSwap _ _ _ _ _ _ => 1
  | .cas _ _ _ _ _ _ => 1
  | .fadd _ _ _ _ => 1
  | .fsub _ _ _ _ => 1
  | .fmul _ _ _ _ => 1
  | .fdiv _ _ _ _ => 1
  | .fsqrt _ _ _ => 1
  | .fmin _ _ _ _ => 1
  | .fmax _ _ _ _ => 1
  | .fcmpEq _ _ _ _ => 1
  | .fcmpLt _ _ _ _ => 1
  | .fcmpLe _ _ _ _ => 1
  | .fcmpUo _ _ _ _ => 1
  | .fclass _ _ _ => 1
  | .fmadd _ _ _ _ _ => 1
  | .fmsub _ _ _ _ _ => 1
  | .fnmadd _ _ _ _ _ => 1
  | .fcvt _ _ _ => 1
  | .fmvS _ _ => 1
  | .fmvD _ _ => 1
  | .fmvX _ _ => 1
  | .fmvF _ _ => 1
  | .trap _ => 1
  | .eret => 1
  | .brk _ => 1
  | .fence _ _ => 1
  | .fencei => 1
  | .tlbi _ _ _ => 1
  | .ctxsv _ => 1
  | .ctxld _ => 1
  | .halt => 1
  | .xrd _ _ => 1
  | .xwr _ _ => 1
  | .xset _ _ _ => 1
  | .xclr _ _ _ => 1
  | .setvl _ _ _ _ => 1
  | .vcfg _ => 1
  | .vshape _ => 1
  | .setvli _ _ _ => 1
  | .vadd _ _ _ md => if md.pre.isSome then 2 else 1
  | .vsub _ _ _ md => if md.pre.isSome then 2 else 1
  | .vrsub _ _ _ md => if md.pre.isSome then 2 else 1
  | .vmul _ _ _ md => if md.pre.isSome then 2 else 1
  | .vmulh _ _ _ md => if md.pre.isSome then 2 else 1
  | .vmulhu _ _ _ md => if md.pre.isSome then 2 else 1
  | .vmacc _ _ _ md => if md.pre.isSome then 2 else 1
  | .vnmsac _ _ _ md => if md.pre.isSome then 2 else 1
  | .vdiv _ _ _ md => if md.pre.isSome then 2 else 1
  | .vdivu _ _ _ md => if md.pre.isSome then 2 else 1
  | .vrem _ _ _ md => if md.pre.isSome then 2 else 1
  | .vremu _ _ _ md => if md.pre.isSome then 2 else 1
  | .vmin _ _ _ md => if md.pre.isSome then 2 else 1
  | .vmax _ _ _ md => if md.pre.isSome then 2 else 1
  | .vminu _ _ _ md => if md.pre.isSome then 2 else 1
  | .vmaxu _ _ _ md => if md.pre.isSome then 2 else 1
  | .vand _ _ _ md => if md.pre.isSome then 2 else 1
  | .vor _ _ _ md => if md.pre.isSome then 2 else 1
  | .vxor _ _ _ md => if md.pre.isSome then 2 else 1
  | .vsll _ _ _ md => if md.pre.isSome then 2 else 1
  | .vsrl _ _ _ md => if md.pre.isSome then 2 else 1
  | .vsra _ _ _ md => if md.pre.isSome then 2 else 1
  | .vclz _ _ md => if md.pre.isSome then 2 else 1
  | .vpopc _ _ md => if md.pre.isSome then 2 else 1
  | .vwadd _ _ _ md => if md.pre.isSome then 2 else 1
  | .vwaddU _ _ _ md => if md.pre.isSome then 2 else 1
  | .vwsub _ _ _ md => if md.pre.isSome then 2 else 1
  | .vwsubU _ _ _ md => if md.pre.isSome then 2 else 1
  | .vwmul _ _ _ md => if md.pre.isSome then 2 else 1
  | .vwmulU _ _ _ md => if md.pre.isSome then 2 else 1
  | .vwmulSu _ _ _ md => if md.pre.isSome then 2 else 1
  | .vwmacc _ _ _ md => if md.pre.isSome then 2 else 1
  | .vwmaccU _ _ _ md => if md.pre.isSome then 2 else 1
  | .vwmaccSu _ _ _ md => if md.pre.isSome then 2 else 1
  | .vnsrl _ _ _ md => if md.pre.isSome then 2 else 1
  | .vnsra _ _ _ md => if md.pre.isSome then 2 else 1
  | .vsadd _ _ _ md => if md.pre.isSome then 2 else 1
  | .vsaddU _ _ _ md => if md.pre.isSome then 2 else 1
  | .vssub _ _ _ md => if md.pre.isSome then 2 else 1
  | .vssubU _ _ _ md => if md.pre.isSome then 2 else 1
  | .vaadd _ _ _ md => if md.pre.isSome then 2 else 1
  | .vaaddU _ _ _ md => if md.pre.isSome then 2 else 1
  | .vsmul _ _ _ md => if md.pre.isSome then 2 else 1
  | .vssrl _ _ _ md => if md.pre.isSome then 2 else 1
  | .vssra _ _ _ md => if md.pre.isSome then 2 else 1
  | .vnclip _ _ _ md => if md.pre.isSome then 2 else 1
  | .vnclipU _ _ _ md => if md.pre.isSome then 2 else 1
  | .vcmp _ _ _ _ md => if md.pre.isSome then 2 else 1
  | .vcmpBrk _ _ _ _ md => if md.pre.isSome then 2 else 1
  | .mkAnd _ _ _ md => if md.pre.isSome then 2 else 1
  | .mkOr _ _ _ md => if md.pre.isSome then 2 else 1
  | .mkXor _ _ _ md => if md.pre.isSome then 2 else 1
  | .mkAndn _ _ _ md => if md.pre.isSome then 2 else 1
  | .mkNot _ _ md => if md.pre.isSome then 2 else 1
  | .mcount _ _ md => if md.pre.isSome then 2 else 1
  | .mfirst _ _ md => if md.pre.isSome then 2 else 1
  | .vrank _ _ md => if md.pre.isSome then 2 else 1
  | .vindex _ md => if md.pre.isSome then 2 else 1
  | .vmv _ _ md => if md.pre.isSome then 2 else 1
  | .vmvScalar _ _ md => if md.pre.isSome then 2 else 1
  | .vmvSv _ _ md => if md.pre.isSome then 2 else 1
  | .vmvVs _ _ md => if md.pre.isSome then 2 else 1
  | .vslideu _ _ _ md => if md.pre.isSome then 2 else 1
  | .vslided _ _ _ md => if md.pre.isSome then 2 else 1
  | .vperm _ _ _ md => if md.pre.isSome then 2 else 1
  | .vcompr _ _ _ md => if md.pre.isSome then 2 else 1
  | .vexpd _ _ _ md => if md.pre.isSome then 2 else 1
  | .vmerge _ _ _ md => if md.pre.isSome then 2 else 1
  | .vtopk _ _ _ md => if md.pre.isSome then 2 else 1
  | .vred _ _ _ _ md => if md.pre.isSome then 2 else 1
  | .vscan _ _ _ _ md => if md.pre.isSome then 2 else 1
  | .vfadd _ _ _ md => if md.pre.isSome then 2 else 1
  | .vfsub _ _ _ md => if md.pre.isSome then 2 else 1
  | .vfmul _ _ _ md => if md.pre.isSome then 2 else 1
  | .vfdiv _ _ _ md => if md.pre.isSome then 2 else 1
  | .vfsqrt _ _ md => if md.pre.isSome then 2 else 1
  | .vfrsqe _ _ md => if md.pre.isSome then 2 else 1
  | .vfrece _ _ md => if md.pre.isSome then 2 else 1
  | .vfexp2 _ _ md => if md.pre.isSome then 2 else 1
  | .vfmacc _ _ _ md => if md.pre.isSome then 2 else 1
  | .vfnmacc _ _ _ md => if md.pre.isSome then 2 else 1
  | .vfmsac _ _ _ md => if md.pre.isSome then 2 else 1
  | .vfnmsac _ _ _ md => if md.pre.isSome then 2 else 1
  | .vfmin _ _ _ md => if md.pre.isSome then 2 else 1
  | .vfmax _ _ _ md => if md.pre.isSome then 2 else 1
  | .vfclass _ _ md => if md.pre.isSome then 2 else 1
  | .vfsgnj _ _ _ md => if md.pre.isSome then 2 else 1
  | .vfsgnjN _ _ _ md => if md.pre.isSome then 2 else 1
  | .vfsgnjX _ _ _ md => if md.pre.isSome then 2 else 1
  | .vfcmp _ _ _ _ md => if md.pre.isSome then 2 else 1
  | .vfcvt _ _ _ md => if md.pre.isSome then 2 else 1
  | .vfncvt _ _ _ md => if md.pre.isSome then 2 else 1
  | .vfwadd _ _ _ md => if md.pre.isSome then 2 else 1
  | .vfwmul _ _ _ md => if md.pre.isSome then 2 else 1
  | .vfwmacc _ _ _ md => if md.pre.isSome then 2 else 1
  | .vfred _ _ _ _ md => if md.pre.isSome then 2 else 1
  | .vfredoSum _ _ _ md => if md.pre.isSome then 2 else 1
  | .vfscan _ _ _ _ md => if md.pre.isSome then 2 else 1
  | .vlrec _ _ _ md => if md.pre.isSome then 2 else 1
  | .vlq _ _ _ md => if md.pre.isSome then 2 else 1
  | .vlx _ _ _ md => if md.pre.isSome then 2 else 1
  | .vlrq _ _ _ md => if md.pre.isSome then 2 else 1
  | .pair _ _ => 3
  | .vld _ _ _ md _ => if md.pre.isSome then 2 else 1
  | .vlds _ _ _ _ md _ => if md.pre.isSome then 2 else 1
  | .vldx _ _ _ _ md _ => if md.pre.isSome then 2 else 1
  | .vlseg _ _ _ _ md _ => if md.pre.isSome then 2 else 1
  | .vst _ _ _ md _ => if md.pre.isSome then 2 else 1
  | .vsts _ _ _ _ md _ => if md.pre.isSome then 2 else 1
  | .vstx _ _ _ _ md _ => if md.pre.isSome then 2 else 1
  | .vsseg _ _ _ _ md _ => if md.pre.isSome then 2 else 1
  | .vldsl _ _ _ md _ => if md.pre.isSome then 2 else 1
  | .vstp _ _ _ _ md _ => if md.pre.isSome then 2 else 1
  | .vstc _ _ _ _ md _ => if md.pre.isSome then 2 else 1
  | .vamo _ _ _ _ _ md _ => if md.pre.isSome then 2 else 1
  | .vstxr _ _ _ _ md _ => if md.pre.isSome then 2 else 1
  | .vstj _ _ _ md _ => if md.pre.isSome then 2 else 1
  | .vstjIndexed _ _ _ _ md _ => if md.pre.isSome then 2 else 1
  | .mxr _ _ _ => 1
  | .mxri _ _ _ _ => 1
  | .mxrt _ _ _ => 1
  | .tld _ _ _ _ => 1
  | .twait _ => 1
  | .tzero _ => 1
  | .fx _ _ _ => 1
  | .fxTwo _ _ _ _ => 1
  | .fxLong _ _ _ _ _ => 2
  | .fbind _ _ => 1
  | .funbind _ => 1
  | .fload _ _ => 1
  | .fdrop _ => 1
  | .fshadow _ _ => 1
  | .fquery _ _ _ => 1
  | .stj _ _ _ _ => 1
  | .ltw _ _ _ _ _ => 1
  | .ltwn _ _ _ _ _ => 1
  | .lsync _ => 1
  | .wait => 1
  | .waitY => 1
  | .cbar => 1
  | .await _ _ => 1
  | .aquery _ _ => 1
  | .vsendNx _ => 1
  | .vsendPv _ => 1
  | .vrecvNx _ => 1
  | .vrecvPv _ => 1
  | .launch _ _ => 1
  | .exit => 1
  | .acopy _ _ _ _ => 1
  | .acopy2d _ _ _ _ _ _ _ => 2
  | .instructionFetchReturn _ _ => 0
  | .loadReturn _ _ => 0
  | .storePerformed _ _ => 0
  | .walkComplete _ _ => 0
  | .vspcfgTakesEffect _ => 0
  | .vectorDispatch _ => 0
  | .elementGroupEntry _ _ => 0
  | .vectorComplete _ => 0
  | .reflowComplete _ _ => 0
  | .matrixRowStart _ => 0
  | .tileLoadComplete _ _ => 0
  | .shortSeatServe _ => 0
  | .gceilRaise _ => 0
  | .fxStart _ => 0
  | .nodeFire _ _ _ => 0
  | .fxEndOfStream _ => 0
  | .preemptionCut _ => 0
  | .tileClockChangeComplete _ _ => 0
  | .acopyComplete _ _ => 0
  | .copyPageRetry _ => 0
  | .cbarRelease _ _ _ => 0
  | .ltwSatisfied _ => 0
  | .ltwtoExpiry _ => 0
  | .waitResume _ => 0
  | .messageArrival _ _ => 0
  | .vsendRoom _ => 0
  | .settleRound _ _ => 0
  | .settleBlockReceive _ => 0
  | .hostRecordCommit _ _ _ => 0
  | .gateTest _ => 0
  | .priorityAging _ _ => 0
  | .taskPlacement => 0
  | .gangPlacement => 0
  | .gangReservation => 0
  | .groupCompletion _ _ => 0
  | .faultRecordPost _ => 0
  | .fqRetry _ _ => 0
  | .fqSkip _ _ => 0
  | .fqRemove _ _ => 0
  | .parkedTimeout _ => 0
  | .runtimeLimitExpiry _ => 0
  | .stopTimeout _ => 0
  | .exitRoutineTimeout _ => 0
  | .level3SaveTimeout _ => 0
  | .seatPreemption _ _ => 0
  | .contextRestore _ => 0
  | .bar2Read _ _ _ => 0
  | .bar2Write _ _ _ => 0
  | .seatgo _ => 0
  | .keyCreate _ => 0
  | .keyDestroy _ => 0
  | .keyCommandDone => 0
  | .stcmdWarm _ _ => 0
  | .stcmdCold _ _ => 0
  | .powerApplied _ => 0
  | .warmReset _ => 0
  | .vfFunctionReset _ => 0
  | .heartbeatSend _ => 0
  | .agentDeath _ => 0
  | .powerSample _ => 0
  | .temperatureSample _ => 0
  | .tripRecoveryStart _ => 0
  | .tclkWrite _ _ _ => 0
  | .portTraining _ => 0
  | .loadRequest _ _ => 0
  | .loadResponse _ _ => 0
  | .store _ _ => 0
  | .trainUnits _ _ => 0
  | .trainTail _ _ => 0
  | .acknowledgement _ _ => 0
  | .latticeExchange _ _ => 0
  | .peerHeartbeat _ _ => 0
  | .linkTimeout _ => 0
  | .qerrRead _ _ => 0
  | .setcfgRead _ => 0
  | .fleetCounterRead _ => 0
  | .registerWrite _ _ _ _ => 0
  | .copyEnginePageFault _ _ => 0
  | .fqconsWrite _ _ => 0
  | .qctlWrite _ _ => 0
  | .hbmRefresh _ _ => 0

/-- The instruction that starts at `w0`, given the three words after it (zero where there is none): a pair when the
word after the first instruction is a MOD prefix with P = 1, whatever the first instruction is (R109). -/
noncomputable def decode (w0 w1 w2 w3 : IWord) : Except Illegal Instr :=
  match decodeOne w0 w1 with
  | .error e => .error e
  | .ok i =>
    let (wp, wb) := if i.words = 2 then (w2, w3) else (w1, w2)
    if isPairPrefix wp then
      match decodeOne wp wb with
      | .error e => .error e
      | .ok j =>
        match pairHalf i, pairHalf j with
        | some (x, mx), some (y, my) =>
          if mx.m && mx.pre.isNone && my.m && (match my.pre with | some p => p.n | none => false) then .ok (.pair x y)
          else .error .pair
        | _, _ => .error .pair
    else .ok i

/-- The instruction the decoder reads from the bits of a table word: bit 0 is the least significant bit of the first
word, and every bit above `nbits` is 0. -/
noncomputable def decodeTableWord (nbits w : Nat) : Option Instr :=
  let v := w % 2 ^ nbits
  match decode (BitVec.ofNat 32 v) (BitVec.ofNat 32 (v >>> 32)) (BitVec.ofNat 32 (v >>> 64)) (BitVec.ofNat 32 (v >>> 96)) with
  | .ok i => some i
  | .error _ => none

/-! ## The encoder -/

/-- A scalar register in a 6-bit field (R81). -/
def e6 (r : SReg) : BitVec 6 := 0#1 ++ r
/-- One bit from a Bool. -/
def e1 (b : Bool) : BitVec 1 := BitVec.ofBool b
/-- R format (R79). -/
def encR (mj d a b : BitVec 6) (fn : BitVec 8) : IWord := mj ++ d ++ a ++ b ++ fn
/-- I format (R79). -/
def encI (mj d a : BitVec 6) (imm : BitVec 14) : IWord := mj ++ d ++ a ++ imm
/-- U format (R79). -/
def encU (mj d : BitVec 6) (imm : BitVec 20) : IWord := mj ++ d ++ imm
/-- B format (R79, R80). -/
def encB (mj : BitVec 6) (c1 c0 : BitVec 1) (a b : SReg) (off : BitVec 14) : IWord := mj ++ c1 ++ a ++ c0 ++ b ++ off
/-- S format (R79, R87). -/
def encS (mj d a : BitVec 6) (w : BitVec 3) (o : Bool) (imm : BitVec 10) : IWord := mj ++ d ++ a ++ w ++ e1 o ++ imm
/-- V format (R79, R92). -/
def encV (mj d a b : BitVec 6) (m k : Bool) (fn : BitVec 6) : IWord := mj ++ d ++ a ++ b ++ e1 m ++ e1 k ++ fn
/-- M format (R79, R99). -/
def encM (mj d a b : BitVec 6) (w : BitVec 3) (mode : BitVec 2) (m : Bool) (o : BitVec 2) : IWord :=
  mj ++ d ++ a ++ b ++ w ++ mode ++ e1 m ++ o
/-- A prefix word (R79, R108). -/
def encP (e f kind : BitVec 6) (ext : BitVec 8) : IWord := 0x3E#6 ++ e ++ f ++ kind ++ ext
/-- Field 19..14 of a source operand, and k (R92). -/
def encSrc : VSrc → BitVec 6 × Bool
  | .reg v => (v, false)
  | .scalar r => (e6 r, true)
/-- The MOD prefix word, if the modifiers have one (R108). -/
def encPre (md : VMod) : List IWord :=
  match md.pre with
  | none => []
  | some p => [encP (p.x.getD 0) 0 0x01 (0#5 ++ e1 p.x.isSome ++ e1 p.p ++ e1 p.n)]
/-- Width codes of `sext` and `zext` (R84). -/
def encExtW : ExtW → BitVec 6 | .b => 0 | .h => 1 | .w => 2
/-- Type codes of `fcvt` (R88). -/
def encFcvtTy : FcvtTy → BitVec 4 | .l => 0 | .lu => 1 | .w => 2 | .wu => 3 | .s => 4 | .d => 5
/-- Fence scopes (R89). -/
def encScope : FenceScope → BitVec 3 | .seat => 0 | .core => 1 | .die => 2 | .device => 3 | .domain => 4 | .system => 5
/-- `tlbi` variants (R89). -/
def encTlbi : TlbiKind → BitVec 6 | .all => 0 | .asid => 1 | .addr => 2
/-- LANES (R91). -/
def encLanes : LaneReq → BitVec 4 | .octets n => n | .cur => 15
/-- Conditions of `vcmp` (R94). -/
def encIntCmp : IntCmp → BitVec 4
  | .eq => 0 | .ne => 1 | .lt => 2 | .le => 3 | .gt => 4 | .ge => 5 | .ltu => 6 | .leu => 7 | .gtu => 8 | .geu => 9
/-- Relations of `vfcmp` (R96). -/
def encFltCmp : FltCmp → BitVec 6 | .eq => 0 | .ne => 1 | .lt => 2 | .le => 3 | .gt => 4 | .ge => 5 | .uo => 6
/-- Operations of `vred` and `vscan` (R95). -/
def encRedOp : RedOp → BitVec 3 | .add => 0 | .min => 1 | .max => 2 | .minu => 3 | .maxu => 4 | .and => 5 | .or => 6 | .xor => 7
/-- Operations of `vfred` and `vfscan` (R96). -/
def encFRedOp : FRedOp → BitVec 2 | .sum => 0 | .min => 1 | .max => 2
/-- Source formats (R97). -/
def encSrcFmt : SrcFmt → BitVec 6
  | .int8 => 0x00 | .int16 => 0x10 | .int32 => 0x20 | .int64 => 0x30 | .uint8 => 0x01 | .uint16 => 0x11 | .uint32 => 0x21
  | .uint64 => 0x31 | .fp64 => 0x32 | .fp32 => 0x23 | .bf16 => 0x14 | .fp16 => 0x15 | .e4m3 => 0x06 | .e5m2 => 0x07
  | .int4 => 0x08 | .el16 => 0x19 | .el32 => 0x2A
/-- Widths (R99). -/
def encMWidth : MWidth → BitVec 3 | .b => 0 | .h => 1 | .w => 2 | .d => 3 | .pk => 4
/-- Orders (R102). -/
def encMOrd : MOrd → BitVec 2 | .unord => 0 | .ord => 1 | .ff => 2
/-- Sparse patterns (R100). -/
def encSparse : SparsePat → BitVec 3 | .p24b => 0 | .p24h => 1 | .p48b => 4 | .p48h => 5
/-- Operations of `vamo` (R101). -/
def encVAmo : VAmoOp → BitVec 4
  | .add => 0 | .and => 1 | .or => 2 | .xor => 3 | .min => 4 | .max => 5 | .minu => 6 | .maxu => 7 | .swap => 8
/-- Tile formats (R103). -/
def encTileFmt : TileFmt → BitVec 4
  | .int8 => 0 | .fp64 => 2 | .fp32 => 3 | .bf16 => 4 | .fp16 => 5 | .e4m3 => 6 | .e5m2 => 7 | .int4 => 8 | .el16 => 9 | .el32 => 10
/-- The major and function code of one half of a pair (R93, R96). -/
def encPairOp : PairOp → BitVec 6 × BitVec 6
  | .int .add => (0x18, 0x00)
  | .int .sub => (0x18, 0x01)
  | .int .rsub => (0x18, 0x02)
  | .int .mul => (0x18, 0x03)
  | .int .mulh => (0x18, 0x04)
  | .int .mulhu => (0x18, 0x05)
  | .int .macc => (0x18, 0x06)
  | .int .nmsac => (0x18, 0x07)
  | .int .div => (0x18, 0x08)
  | .int .divu => (0x18, 0x09)
  | .int .rem => (0x18, 0x0A)
  | .int .remu => (0x18, 0x0B)
  | .int .min => (0x18, 0x0C)
  | .int .max => (0x18, 0x0D)
  | .int .minu => (0x18, 0x0E)
  | .int .maxu => (0x18, 0x0F)
  | .int .and => (0x18, 0x10)
  | .int .or => (0x18, 0x11)
  | .int .xor => (0x18, 0x12)
  | .int .sll => (0x18, 0x13)
  | .int .srl => (0x18, 0x14)
  | .int .sra => (0x18, 0x15)
  | .int .clz => (0x18, 0x16)
  | .int .popc => (0x18, 0x17)
  | .fix .sadd => (0x1A, 0x00)
  | .fix .saddU => (0x1A, 0x01)
  | .fix .ssub => (0x1A, 0x02)
  | .fix .ssubU => (0x1A, 0x03)
  | .fix .aadd => (0x1A, 0x04)
  | .fix .aaddU => (0x1A, 0x05)
  | .fix .smul => (0x1A, 0x06)
  | .fix .ssrl => (0x1A, 0x08)
  | .fix .ssra => (0x1A, 0x09)
  | .flt .add => (0x20, 0x00)
  | .flt .sub => (0x20, 0x01)
  | .flt .mul => (0x20, 0x02)
  | .flt .div => (0x20, 0x03)
  | .flt .macc => (0x20, 0x08)
  | .flt .nmacc => (0x20, 0x09)
  | .flt .msac => (0x20, 0x0A)
  | .flt .nmsac => (0x20, 0x0B)
  | .flt .min => (0x20, 0x0C)
  | .flt .max => (0x20, 0x0D)
  | .flt .sgnj => (0x20, 0x10)
  | .flt .sgnjn => (0x20, 0x11)
  | .flt .sgnjx => (0x20, 0x12)
  | .flt .sqrt => (0x20, 0x04)
  | .flt .rsqe => (0x20, 0x05)
  | .flt .rece => (0x20, 0x06)
  | .flt .exp2 => (0x20, 0x07)
  | .flt .cls => (0x20, 0x0E)
/-- The word of one half of a pair: m = 1 (R109). -/
def encHalf (h : PairHalf) : IWord :=
  encV (encPairOp h.op).1 h.vd (encSrc h.b).1 h.va true (encSrc h.b).2 (encPairOp h.op).2
/-- A V-format instruction with its prefix. -/
def encVI (md : VMod) (mj d a b : BitVec 6) (k : Bool) (fn : BitVec 6) : List IWord :=
  encPre md ++ [encV mj d a b md.m k fn]
/-- An M-format instruction with its prefix. -/
def encMI (md : VMod) (mj d a b : BitVec 6) (w : BitVec 3) (mode : BitVec 2) (mo : MOrd) : List IWord :=
  encPre md ++ [encM mj d a b w mode md.m (encMOrd mo)]

/-- The words of an instruction (R84 to R111); an event has none. -/
def encode : Instr → List IWord
  | .add d a b => [encR 0x01 (e6 d) (e6 a) (e6 b) 0x00]
  | .sub d a b => [encR 0x01 (e6 d) (e6 a) (e6 b) 0x01]
  | .and d a b => [encR 0x01 (e6 d) (e6 a) (e6 b) 0x02]
  | .or d a b => [encR 0x01 (e6 d) (e6 a) (e6 b) 0x03]
  | .xor d a b => [encR 0x01 (e6 d) (e6 a) (e6 b) 0x04]
  | .andn d a b => [encR 0x01 (e6 d) (e6 a) (e6 b) 0x05]
  | .sll d a b => [encR 0x01 (e6 d) (e6 a) (e6 b) 0x06]
  | .srl d a b => [encR 0x01 (e6 d) (e6 a) (e6 b) 0x07]
  | .sra d a b => [encR 0x01 (e6 d) (e6 a) (e6 b) 0x08]
  | .slt d a b => [encR 0x01 (e6 d) (e6 a) (e6 b) 0x09]
  | .sltu d a b => [encR 0x01 (e6 d) (e6 a) (e6 b) 0x0A]
  | .min d a b => [encR 0x01 (e6 d) (e6 a) (e6 b) 0x0B]
  | .max d a b => [encR 0x01 (e6 d) (e6 a) (e6 b) 0x0C]
  | .minu d a b => [encR 0x01 (e6 d) (e6 a) (e6 b) 0x0D]
  | .maxu d a b => [encR 0x01 (e6 d) (e6 a) (e6 b) 0x0E]
  | .mul d a b => [encR 0x01 (e6 d) (e6 a) (e6 b) 0x10]
  | .mulh d a b => [encR 0x01 (e6 d) (e6 a) (e6 b) 0x11]
  | .mulhu d a b => [encR 0x01 (e6 d) (e6 a) (e6 b) 0x12]
  | .div d a b => [encR 0x01 (e6 d) (e6 a) (e6 b) 0x14]
  | .divu d a b => [encR 0x01 (e6 d) (e6 a) (e6 b) 0x15]
  | .rem d a b => [encR 0x01 (e6 d) (e6 a) (e6 b) 0x16]
  | .remu d a b => [encR 0x01 (e6 d) (e6 a) (e6 b) 0x17]
  | .clz d a => [encR 0x01 (e6 d) (e6 a) 0 0x18]
  | .ctz d a => [encR 0x01 (e6 d) (e6 a) 0 0x19]
  | .popc d a => [encR 0x01 (e6 d) (e6 a) 0 0x1A]
  | .sext d a wid => [encR 0x01 (e6 d) (e6 a) (encExtW wid) 0x1C]
  | .zext d a wid => [encR 0x01 (e6 d) (e6 a) (encExtW wid) 0x1D]
  | .addi d a imm => [encI 0x02 (e6 d) (e6 a) imm]
  | .addiWide d a imm => [encP (imm.extractLsb' 28 6) (imm.extractLsb' 22 6) 0x02 (imm.extractLsb' 14 8), encI 0x02 (e6 d) (e6 a) (imm.extractLsb' 0 14)]
  | .andi d a imm => [encI 0x03 (e6 d) (e6 a) (0#2 ++ imm)]
  | .ori d a imm => [encI 0x03 (e6 d) (e6 a) (1#2 ++ imm)]
  | .xori d a imm => [encI 0x03 (e6 d) (e6 a) (2#2 ++ imm)]
  | .slli d a sh => [encI 0x04 (e6 d) (e6 a) (0#2 ++ 0#6 ++ sh)]
  | .srli d a sh => [encI 0x04 (e6 d) (e6 a) (1#2 ++ 0#6 ++ sh)]
  | .srai d a sh => [encI 0x04 (e6 d) (e6 a) (2#2 ++ 0#6 ++ sh)]
  | .slti d a imm => [encI 0x05 (e6 d) (e6 a) (0#1 ++ imm)]
  | .sltiu d a imm => [encI 0x05 (e6 d) (e6 a) (1#1 ++ imm)]
  | .lhi d imm => [encU 0x06 (e6 d) imm]
  | .lhiWide d imm => [encP (imm.extractLsb' 34 6) (imm.extractLsb' 28 6) 0x02 (imm.extractLsb' 20 8), encU 0x06 (e6 d) (imm.extractLsb' 0 20)]
  | .lpc d imm => [encU 0x07 (e6 d) imm]
  | .lpcWide d imm => [encP (imm.extractLsb' 34 6) (imm.extractLsb' 28 6) 0x02 (imm.extractLsb' 20 8), encU 0x07 (e6 d) (imm.extractLsb' 0 20)]
  | .beq a b off => [encB 0x08 0 0 a b off]
  | .bne a b off => [encB 0x08 0 1 a b off]
  | .blt a b off => [encB 0x08 1 0 a b off]
  | .bge a b off => [encB 0x08 1 1 a b off]
  | .bltu a b off => [encB 0x09 0 0 a b off]
  | .bgeu a b off => [encB 0x09 0 1 a b off]
  | .jlr d a off => [encB 0x09 1 0 d a off]
  | .j off => [0x0A#6 ++ off]
  | .jl off => [0x0B#6 ++ off]
  | .ldB d a acq imm => [encS 0x0C (e6 d) (e6 a) 0 acq imm]
  | .ldH d a acq imm => [encS 0x0C (e6 d) (e6 a) 1 acq imm]
  | .ldW d a acq imm => [encS 0x0C (e6 d) (e6 a) 2 acq imm]
  | .ldD d a acq imm => [encS 0x0C (e6 d) (e6 a) 3 acq imm]
  | .ldBu d a acq imm => [encS 0x0C (e6 d) (e6 a) 4 acq imm]
  | .ldHu d a acq imm => [encS 0x0C (e6 d) (e6 a) 5 acq imm]
  | .ldWu d a acq imm => [encS 0x0C (e6 d) (e6 a) 6 acq imm]
  | .stB d a rel imm => [encS 0x0D (e6 d) (e6 a) 0 rel imm]
  | .stH d a rel imm => [encS 0x0D (e6 d) (e6 a) 1 rel imm]
  | .stW d a rel imm => [encS 0x0D (e6 d) (e6 a) 2 rel imm]
  | .stD d a rel imm => [encS 0x0D (e6 d) (e6 a) 3 rel imm]
  | .ldBIndexed d a b acq => [encR 0x0E (e6 d) (e6 a) (e6 b) (0#3 ++ 0#1 ++ e1 acq ++ 0#3)]
  | .ldHIndexed d a b acq => [encR 0x0E (e6 d) (e6 a) (e6 b) (1#3 ++ 0#1 ++ e1 acq ++ 0#3)]
  | .ldWIndexed d a b acq => [encR 0x0E (e6 d) (e6 a) (e6 b) (2#3 ++ 0#1 ++ e1 acq ++ 0#3)]
  | .ldDIndexed d a b acq => [encR 0x0E (e6 d) (e6 a) (e6 b) (3#3 ++ 0#1 ++ e1 acq ++ 0#3)]
  | .ldBuIndexed d a b acq => [encR 0x0E (e6 d) (e6 a) (e6 b) (4#3 ++ 0#1 ++ e1 acq ++ 0#3)]
  | .ldHuIndexed d a b acq => [encR 0x0E (e6 d) (e6 a) (e6 b) (5#3 ++ 0#1 ++ e1 acq ++ 0#3)]
  | .ldWuIndexed d a b acq => [encR 0x0E (e6 d) (e6 a) (e6 b) (6#3 ++ 0#1 ++ e1 acq ++ 0#3)]
  | .stBIndexed d a b rel => [encR 0x0E (e6 d) (e6 a) (e6 b) (0#3 ++ 1#1 ++ e1 rel ++ 0#3)]
  | .stHIndexed d a b rel => [encR 0x0E (e6 d) (e6 a) (e6 b) (1#3 ++ 1#1 ++ e1 rel ++ 0#3)]
  | .stWIndexed d a b rel => [encR 0x0E (e6 d) (e6 a) (e6 b) (2#3 ++ 1#1 ++ e1 rel ++ 0#3)]
  | .stDIndexed d a b rel => [encR 0x0E (e6 d) (e6 a) (e6 b) (3#3 ++ 1#1 ++ e1 rel ++ 0#3)]
  | .amoAdd d a b dbl rel acq => [encR 0x0F (e6 d) (e6 a) (e6 b) (0#4 ++ e1 dbl ++ e1 rel ++ e1 acq ++ 0#1)]
  | .amoAnd d a b dbl rel acq => [encR 0x0F (e6 d) (e6 a) (e6 b) (1#4 ++ e1 dbl ++ e1 rel ++ e1 acq ++ 0#1)]
  | .amoOr d a b dbl rel acq => [encR 0x0F (e6 d) (e6 a) (e6 b) (2#4 ++ e1 dbl ++ e1 rel ++ e1 acq ++ 0#1)]
  | .amoXor d a b dbl rel acq => [encR 0x0F (e6 d) (e6 a) (e6 b) (3#4 ++ e1 dbl ++ e1 rel ++ e1 acq ++ 0#1)]
  | .amoMin d a b dbl rel acq => [encR 0x0F (e6 d) (e6 a) (e6 b) (4#4 ++ e1 dbl ++ e1 rel ++ e1 acq ++ 0#1)]
  | .amoMax d a b dbl rel acq => [encR 0x0F (e6 d) (e6 a) (e6 b) (5#4 ++ e1 dbl ++ e1 rel ++ e1 acq ++ 0#1)]
  | .amoMinu d a b dbl rel acq => [encR 0x0F (e6 d) (e6 a) (e6 b) (6#4 ++ e1 dbl ++ e1 rel ++ e1 acq ++ 0#1)]
  | .amoMaxu d a b dbl rel acq => [encR 0x0F (e6 d) (e6 a) (e6 b) (7#4 ++ e1 dbl ++ e1 rel ++ e1 acq ++ 0#1)]
  | .amoSwap d a b dbl rel acq => [encR 0x0F (e6 d) (e6 a) (e6 b) (8#4 ++ e1 dbl ++ e1 rel ++ e1 acq ++ 0#1)]
  | .cas d a b dbl rel acq => [encR 0x0F (e6 d) (e6 a) (e6 b) (9#4 ++ e1 dbl ++ e1 rel ++ e1 acq ++ 0#1)]
  | .fadd d a b dbl => [encR 0x10 (e6 d) (e6 a) (e6 b) (0x00#7 ++ e1 dbl)]
  | .fsub d a b dbl => [encR 0x10 (e6 d) (e6 a) (e6 b) (0x01#7 ++ e1 dbl)]
  | .fmul d a b dbl => [encR 0x10 (e6 d) (e6 a) (e6 b) (0x02#7 ++ e1 dbl)]
  | .fdiv d a b dbl => [encR 0x10 (e6 d) (e6 a) (e6 b) (0x03#7 ++ e1 dbl)]
  | .fsqrt d a dbl => [encR 0x10 (e6 d) (e6 a) 0 (0x04#7 ++ e1 dbl)]
  | .fmin d a b dbl => [encR 0x10 (e6 d) (e6 a) (e6 b) (0x05#7 ++ e1 dbl)]
  | .fmax d a b dbl => [encR 0x10 (e6 d) (e6 a) (e6 b) (0x06#7 ++ e1 dbl)]
  | .fcmpEq d a b dbl => [encR 0x10 (e6 d) (e6 a) (e6 b) (0x08#7 ++ e1 dbl)]
  | .fcmpLt d a b dbl => [encR 0x10 (e6 d) (e6 a) (e6 b) (0x09#7 ++ e1 dbl)]
  | .fcmpLe d a b dbl => [encR 0x10 (e6 d) (e6 a) (e6 b) (0x0A#7 ++ e1 dbl)]
  | .fcmpUo d a b dbl => [encR 0x10 (e6 d) (e6 a) (e6 b) (0x0B#7 ++ e1 dbl)]
  | .fclass d a dbl => [encR 0x10 (e6 d) (e6 a) 0 (0x0C#7 ++ e1 dbl)]
  | .fmadd d a b c dbl => [encR (if dbl then 0x13 else 0x11) (e6 d) (e6 a) (e6 b) (e6 c ++ 0#2)]
  | .fmsub d a b c dbl => [encR (if dbl then 0x13 else 0x11) (e6 d) (e6 a) (e6 b) (e6 c ++ 1#2)]
  | .fnmadd d a b c dbl => [encR (if dbl then 0x13 else 0x11) (e6 d) (e6 a) (e6 b) (e6 c ++ 2#2)]
  | .fcvt d a conv => [encR 0x12 (e6 d) (e6 a) 0 (encFcvtTy conv.dst ++ encFcvtTy conv.src)]
  | .fmvS d a => [encR 0x12 (e6 d) (e6 a) 0 0x80]
  | .fmvD d a => [encR 0x12 (e6 d) (e6 a) 0 0x81]
  | .fmvX d a => [encR 0x12 (e6 d) (e6 a) 0 0x82]
  | .fmvF d a => [encR 0x12 (e6 d) (e6 a) 0 0x83]
  | .trap code => [0x14#6 ++ 0#6 ++ code ++ 0x01#8]
  | .eret => [encR 0x14 0 0 0 0x02]
  | .brk code => [0x14#6 ++ 0#6 ++ code ++ 0x03#8]
  | .fence scope kinds => [encR 0x14 (0#3 ++ encScope scope) (0#2 ++ e1 kinds.l ++ e1 kinds.a ++ e1 kinds.w ++ e1 kinds.r) 0 0x04]
  | .fencei => [encR 0x14 0 0 0 0x05]
  | .tlbi v a b => [encR 0x14 (encTlbi v) (e6 a) (e6 b) 0x06]
  | .ctxsv a => [encR 0x14 0 (e6 a) 0 0x07]
  | .ctxld a => [encR 0x14 0 (e6 a) 0 0x08]
  | .halt => [encR 0x14 0 0 0 0x09]
  | .xrd d n => [0x15#6 ++ e6 d ++ 0#6 ++ n ++ 0#2]
  | .xwr n a => [0x15#6 ++ 0#6 ++ e6 a ++ n ++ 1#2]
  | .xset d n a => [0x15#6 ++ e6 d ++ e6 a ++ n ++ 2#2]
  | .xclr d n a => [0x15#6 ++ e6 d ++ e6 a ++ n ++ 3#2]
  | .setvl d a b lanes => [encR 0x16 (e6 d) (e6 a) (e6 b) (encLanes lanes ++ 0#4)]
  | .vcfg a => [encR 0x16 0 (e6 a) 0 0x01]
  | .vshape n => [encR 0x16 0 0 (0#4 ++ n) 0x02]
  | .setvli d a imm => [encI 0x17 (e6 d) (e6 a) imm]
  | .vadd vd va b md => encVI md 0x18 vd (encSrc b).1 va (encSrc b).2 0x00
  | .vsub vd va b md => encVI md 0x18 vd (encSrc b).1 va (encSrc b).2 0x01
  | .vrsub vd va b md => encVI md 0x18 vd (encSrc b).1 va (encSrc b).2 0x02
  | .vmul vd va b md => encVI md 0x18 vd (encSrc b).1 va (encSrc b).2 0x03
  | .vmulh vd va b md => encVI md 0x18 vd (encSrc b).1 va (encSrc b).2 0x04
  | .vmulhu vd va b md => encVI md 0x18 vd (encSrc b).1 va (encSrc b).2 0x05
  | .vmacc vd va b md => encVI md 0x18 vd (encSrc b).1 va (encSrc b).2 0x06
  | .vnmsac vd va b md => encVI md 0x18 vd (encSrc b).1 va (encSrc b).2 0x07
  | .vdiv vd va b md => encVI md 0x18 vd (encSrc b).1 va (encSrc b).2 0x08
  | .vdivu vd va b md => encVI md 0x18 vd (encSrc b).1 va (encSrc b).2 0x09
  | .vrem vd va b md => encVI md 0x18 vd (encSrc b).1 va (encSrc b).2 0x0A
  | .vremu vd va b md => encVI md 0x18 vd (encSrc b).1 va (encSrc b).2 0x0B
  | .vmin vd va b md => encVI md 0x18 vd (encSrc b).1 va (encSrc b).2 0x0C
  | .vmax vd va b md => encVI md 0x18 vd (encSrc b).1 va (encSrc b).2 0x0D
  | .vminu vd va b md => encVI md 0x18 vd (encSrc b).1 va (encSrc b).2 0x0E
  | .vmaxu vd va b md => encVI md 0x18 vd (encSrc b).1 va (encSrc b).2 0x0F
  | .vand vd va b md => encVI md 0x18 vd (encSrc b).1 va (encSrc b).2 0x10
  | .vor vd va b md => encVI md 0x18 vd (encSrc b).1 va (encSrc b).2 0x11
  | .vxor vd va b md => encVI md 0x18 vd (encSrc b).1 va (encSrc b).2 0x12
  | .vsll vd va b md => encVI md 0x18 vd (encSrc b).1 va (encSrc b).2 0x13
  | .vsrl vd va b md => encVI md 0x18 vd (encSrc b).1 va (encSrc b).2 0x14
  | .vsra vd va b md => encVI md 0x18 vd (encSrc b).1 va (encSrc b).2 0x15
  | .vclz vd va md => encVI md 0x18 vd 0 va false 0x16
  | .vpopc vd va md => encVI md 0x18 vd 0 va false 0x17
  | .vwadd vd va b md => encVI md 0x19 vd (encSrc b).1 va (encSrc b).2 0x00
  | .vwaddU vd va b md => encVI md 0x19 vd (encSrc b).1 va (encSrc b).2 0x01
  | .vwsub vd va b md => encVI md 0x19 vd (encSrc b).1 va (encSrc b).2 0x04
  | .vwsubU vd va b md => encVI md 0x19 vd (encSrc b).1 va (encSrc b).2 0x05
  | .vwmul vd va b md => encVI md 0x19 vd (encSrc b).1 va (encSrc b).2 0x08
  | .vwmulU vd va b md => encVI md 0x19 vd (encSrc b).1 va (encSrc b).2 0x09
  | .vwmulSu vd va b md => encVI md 0x19 vd (encSrc b).1 va (encSrc b).2 0x0A
  | .vwmacc vd va b md => encVI md 0x19 vd (encSrc b).1 va (encSrc b).2 0x0C
  | .vwmaccU vd va b md => encVI md 0x19 vd (encSrc b).1 va (encSrc b).2 0x0D
  | .vwmaccSu vd va b md => encVI md 0x19 vd (encSrc b).1 va (encSrc b).2 0x0E
  | .vnsrl vd va b md => encVI md 0x19 vd (encSrc b).1 va (encSrc b).2 0x10
  | .vnsra vd va b md => encVI md 0x19 vd (encSrc b).1 va (encSrc b).2 0x11
  | .vsadd vd va b md => encVI md 0x1A vd (encSrc b).1 va (encSrc b).2 0x00
  | .vsaddU vd va b md => encVI md 0x1A vd (encSrc b).1 va (encSrc b).2 0x01
  | .vssub vd va b md => encVI md 0x1A vd (encSrc b).1 va (encSrc b).2 0x02
  | .vssubU vd va b md => encVI md 0x1A vd (encSrc b).1 va (encSrc b).2 0x03
  | .vaadd vd va b md => encVI md 0x1A vd (encSrc b).1 va (encSrc b).2 0x04
  | .vaaddU vd va b md => encVI md 0x1A vd (encSrc b).1 va (encSrc b).2 0x05
  | .vsmul vd va b md => encVI md 0x1A vd (encSrc b).1 va (encSrc b).2 0x06
  | .vssrl vd va b md => encVI md 0x1A vd (encSrc b).1 va (encSrc b).2 0x08
  | .vssra vd va b md => encVI md 0x1A vd (encSrc b).1 va (encSrc b).2 0x09
  | .vnclip vd va b md => encVI md 0x1A vd (encSrc b).1 va (encSrc b).2 0x0A
  | .vnclipU vd va b md => encVI md 0x1A vd (encSrc b).1 va (encSrc b).2 0x0B
  | .vcmp cc vd va b md => encVI md 0x1B vd (encSrc b).1 va (encSrc b).2 (0#2 ++ encIntCmp cc)
  | .vcmpBrk cc vd va b md => encVI md 0x1B vd (encSrc b).1 va (encSrc b).2 (2#2 ++ encIntCmp cc)
  | .mkAnd vd va vb md => encVI md 0x1C vd vb va false 0x00
  | .mkOr vd va vb md => encVI md 0x1C vd vb va false 0x01
  | .mkXor vd va vb md => encVI md 0x1C vd vb va false 0x02
  | .mkAndn vd va vb md => encVI md 0x1C vd vb va false 0x03
  | .mkNot vd va md => encVI md 0x1C vd 0 va false 0x04
  | .mcount d va md => encVI md 0x1C (e6 d) 0 va false 0x08
  | .mfirst d va md => encVI md 0x1C (e6 d) 0 va false 0x09
  | .vrank vd va md => encVI md 0x1C vd 0 va false 0x0A
  | .vindex vd md => encVI md 0x1C vd 0 0 false 0x0B
  | .vmv vd va md => encVI md 0x1D vd 0 va false 0x00
  | .vmvScalar vd a md => encVI md 0x1D vd (e6 a) 0 true 0x00
  | .vmvSv d va md => encVI md 0x1D (e6 d) 0 va false 0x01
  | .vmvVs vd a md => encVI md 0x1D vd (e6 a) 0 true 0x02
  | .vslideu vd va b md => encVI md 0x1D vd (e6 b) va true 0x03
  | .vslided vd va b md => encVI md 0x1D vd (e6 b) va true 0x04
  | .vperm vd va vb md => encVI md 0x1D vd vb va false 0x05
  | .vcompr vd va vb md => encVI md 0x1D vd vb va false 0x06
  | .vexpd vd va vb md => encVI md 0x1D vd vb va false 0x07
  | .vmerge vd va b md => encVI md 0x1D vd (encSrc b).1 va (encSrc b).2 0x08
  | .vtopk vd va b md => encVI md 0x1D vd (e6 b) va true 0x09
  | .vred op d va b md => encVI md 0x1E (e6 d) (e6 b) va true (0#3 ++ encRedOp op)
  | .vscan op vd va b md => encVI md 0x1E vd (e6 b) va true (1#3 ++ encRedOp op)
  | .vfadd vd va b md => encVI md 0x20 vd (encSrc b).1 va (encSrc b).2 0x00
  | .vfsub vd va b md => encVI md 0x20 vd (encSrc b).1 va (encSrc b).2 0x01
  | .vfmul vd va b md => encVI md 0x20 vd (encSrc b).1 va (encSrc b).2 0x02
  | .vfdiv vd va b md => encVI md 0x20 vd (encSrc b).1 va (encSrc b).2 0x03
  | .vfsqrt vd va md => encVI md 0x20 vd 0 va false 0x04
  | .vfrsqe vd va md => encVI md 0x20 vd 0 va false 0x05
  | .vfrece vd va md => encVI md 0x20 vd 0 va false 0x06
  | .vfexp2 vd va md => encVI md 0x20 vd 0 va false 0x07
  | .vfmacc vd va b md => encVI md 0x20 vd (encSrc b).1 va (encSrc b).2 0x08
  | .vfnmacc vd va b md => encVI md 0x20 vd (encSrc b).1 va (encSrc b).2 0x09
  | .vfmsac vd va b md => encVI md 0x20 vd (encSrc b).1 va (encSrc b).2 0x0A
  | .vfnmsac vd va b md => encVI md 0x20 vd (encSrc b).1 va (encSrc b).2 0x0B
  | .vfmin vd va b md => encVI md 0x20 vd (encSrc b).1 va (encSrc b).2 0x0C
  | .vfmax vd va b md => encVI md 0x20 vd (encSrc b).1 va (encSrc b).2 0x0D
  | .vfclass vd va md => encVI md 0x20 vd 0 va false 0x0E
  | .vfsgnj vd va b md => encVI md 0x20 vd (encSrc b).1 va (encSrc b).2 0x10
  | .vfsgnjN vd va b md => encVI md 0x20 vd (encSrc b).1 va (encSrc b).2 0x11
  | .vfsgnjX vd va b md => encVI md 0x20 vd (encSrc b).1 va (encSrc b).2 0x12
  | .vfcmp cc vd va b md => encVI md 0x21 vd (encSrc b).1 va (encSrc b).2 (encFltCmp cc)
  | .vfcvt vd va src md => encVI md 0x22 vd (encSrcFmt src) va false 0x00
  | .vfncvt vd va src md => encVI md 0x22 vd (encSrcFmt src) va false 0x01
  | .vfwadd vd va b md => encVI md 0x22 vd (encSrc b).1 va (encSrc b).2 0x04
  | .vfwmul vd va b md => encVI md 0x22 vd (encSrc b).1 va (encSrc b).2 0x05
  | .vfwmacc vd va b md => encVI md 0x22 vd (encSrc b).1 va (encSrc b).2 0x06
  | .vfred op d va b md => encVI md 0x23 (e6 d) (e6 b) va true (0#4 ++ encFRedOp op)
  | .vfredoSum d va b md => encVI md 0x23 (e6 d) (e6 b) va true 0x04
  | .vfscan op vd va c md => encVI md 0x23 vd (e6 c) va true (2#4 ++ encFRedOp op)
  | .vlrec vd va c md => encVI md 0x23 vd (e6 c) va true 0x10
  | .vlq vd va src md => encVI md 0x24 vd (encSrcFmt src) va false 0x00
  | .vlx vd va src md => encVI md 0x24 vd (encSrcFmt src) va false 0x01
  | .vlrq vd va src md => encVI md 0x24 vd (encSrcFmt src) va false 0x02
  | .pair x y => [encHalf x, encP (y.x.getD 0) 0 0x01 (0#5 ++ e1 y.x.isSome ++ 3#2), encHalf y]
  | .vld vd a wid md mo => encMI md 0x28 vd (e6 a) 0 (encMWidth wid) 0 mo
  | .vlds vd a b wid md mo => encMI md 0x28 vd (e6 a) (e6 b) (encMWidth wid) 1 mo
  | .vldx vd a vi wid md mo => encMI md 0x28 vd (e6 a) vi (encMWidth wid) 2 mo
  | .vlseg vd a nf wid md mo => encMI md 0x28 vd (e6 a) (0#3 ++ nf) (encMWidth wid) 3 mo
  | .vst vs a wid md mo => encMI md 0x29 vs (e6 a) 0 (encMWidth wid) 0 mo
  | .vsts vs a b wid md mo => encMI md 0x29 vs (e6 a) (e6 b) (encMWidth wid) 1 mo
  | .vstx vs a vi wid md mo => encMI md 0x29 vs (e6 a) vi (encMWidth wid) 2 mo
  | .vsseg vs a nf wid md mo => encMI md 0x29 vs (e6 a) (0#3 ++ nf) (encMWidth wid) 3 mo
  | .vldsl vd a p md mo => encMI md 0x2A vd (e6 a) 0 (encSparse p) 0 mo
  | .vstp vs a sl p md mo => encMI md 0x2A vs (e6 a) (e6 sl) (encSparse p) 1 mo
  | .vstc vs a sl wid md mo => encMI md 0x2A vs (e6 a) (e6 sl) (encMWidth wid) 2 mo
  | .vamo op dbl vd a vi md mo => encMI md 0x2B vd (e6 a) vi ((encVAmo op).extractLsb' 2 2 ++ e1 dbl) ((encVAmo op).extractLsb' 0 2) mo
  | .vstxr vs a vi wid md mo => encMI md 0x2C vs (e6 a) vi (encMWidth wid) 0 mo
  | .vstj vs a wid md mo => encMI md 0x2C vs (e6 a) 0 (encMWidth wid) 1 mo
  | .vstjIndexed vs a vi wid md mo => encMI md 0x2C vs (e6 a) vi (encMWidth wid) 2 mo
  | .mxr vd vs tb => [encV 0x2E vd 0 vs false tb 0x00]
  | .mxri vd vs vi tb => [encV 0x2E vd vi vs false tb 0x01]
  | .mxrt vd vs tb => [encV 0x2E vd 0 vs false tb 0x02]
  | .tld tb a b fmt => [encR 0x2F (0#5 ++ e1 tb) (e6 a) (e6 b) (encTileFmt fmt ++ 0#4)]
  | .twait tb => [encR 0x2F (0#5 ++ e1 tb) 0 0 0x01]
  | .tzero tb => [encR 0x2F (0#5 ++ e1 tb) 0 0 0x02]
  | .fx vd va slot => [encV 0x30 vd 0 va false false slot]
  | .fxTwo vd va vb slot => [encV 0x30 vd vb va false true slot]
  | .fxLong vd slot src len arg => match src with
    | .one x => [encP 0 (e6 len) 0x03 (e6 arg ++ 0#2), encV 0x30 vd 0 x false false slot]
    | .two x y => [encP 0 (e6 len) 0x03 (e6 arg ++ 1#2), encV 0x30 vd y x false false slot]
    | .three x y z => [encP z (e6 len) 0x03 (e6 arg ++ 2#2), encV 0x30 vd y x false false slot]
  | .fbind slot a => [encR 0x31 0 (e6 a) slot 0x01]
  | .funbind slot => [encR 0x31 0 0 slot 0x02]
  | .fload d a => [encR 0x31 (e6 d) (e6 a) 0 0x03]
  | .fdrop a => [encR 0x31 0 (e6 a) 0 0x04]
  | .fshadow slot a => [encR 0x31 0 (e6 a) slot 0x05]
  | .fquery d slot a => [encR 0x31 (e6 d) (e6 a) slot 0x06]
  | .stj a b rel dbl => [encR 0x34 0 (e6 a) (e6 b) (4#6 ++ e1 rel ++ e1 dbl)]
  | .ltw d a b acq dbl => [encR 0x34 (e6 d) (e6 a) (e6 b) (5#6 ++ e1 acq ++ e1 dbl)]
  | .ltwn d a b acq dbl => [encR 0x34 (e6 d) (e6 a) (e6 b) (6#6 ++ e1 acq ++ e1 dbl)]
  | .lsync a => [encR 0x34 0 (e6 a) 0 0x1C]
  | .wait => [encR 0x34 0 0 0 0x20]
  | .waitY => [encR 0x34 0 0 0 0x21]
  | .cbar => [encR 0x34 0 0 0 0x22]
  | .await d a => [encR 0x34 (e6 d) (e6 a) 0 0x28]
  | .aquery d a => [encR 0x34 (e6 d) (e6 a) 0 0x29]
  | .vsendNx vs => [encR 0x34 vs 0 0 0x30]
  | .vsendPv vs => [encR 0x34 vs 0 0 0x31]
  | .vrecvNx vd => [encR 0x34 vd 0 0 0x32]
  | .vrecvPv vd => [encR 0x34 vd 0 0 0x33]
  | .launch d a => [encR 0x34 (e6 d) (e6 a) 0 0x38]
  | .exit => [encR 0x34 0 0 0 0x39]
  | .acopy d a b c => [encR 0x35 (e6 d) (e6 a) (e6 b) (e6 c ++ 0#2)]
  | .acopy2d d a b c rows sstr dstr => [encP (e6 rows) (e6 sstr) 0x04 (e6 dstr ++ 0#2), encR 0x35 (e6 d) (e6 a) (e6 b) (e6 c ++ 0#2)]
  | .instructionFetchReturn _ _ => []
  | .loadReturn _ _ => []
  | .storePerformed _ _ => []
  | .walkComplete _ _ => []
  | .vspcfgTakesEffect _ => []
  | .vectorDispatch _ => []
  | .elementGroupEntry _ _ => []
  | .vectorComplete _ => []
  | .reflowComplete _ _ => []
  | .matrixRowStart _ => []
  | .tileLoadComplete _ _ => []
  | .shortSeatServe _ => []
  | .gceilRaise _ => []
  | .fxStart _ => []
  | .nodeFire _ _ _ => []
  | .fxEndOfStream _ => []
  | .preemptionCut _ => []
  | .tileClockChangeComplete _ _ => []
  | .acopyComplete _ _ => []
  | .copyPageRetry _ => []
  | .cbarRelease _ _ _ => []
  | .ltwSatisfied _ => []
  | .ltwtoExpiry _ => []
  | .waitResume _ => []
  | .messageArrival _ _ => []
  | .vsendRoom _ => []
  | .settleRound _ _ => []
  | .settleBlockReceive _ => []
  | .hostRecordCommit _ _ _ => []
  | .gateTest _ => []
  | .priorityAging _ _ => []
  | .taskPlacement => []
  | .gangPlacement => []
  | .gangReservation => []
  | .groupCompletion _ _ => []
  | .faultRecordPost _ => []
  | .fqRetry _ _ => []
  | .fqSkip _ _ => []
  | .fqRemove _ _ => []
  | .parkedTimeout _ => []
  | .runtimeLimitExpiry _ => []
  | .stopTimeout _ => []
  | .exitRoutineTimeout _ => []
  | .level3SaveTimeout _ => []
  | .seatPreemption _ _ => []
  | .contextRestore _ => []
  | .bar2Read _ _ _ => []
  | .bar2Write _ _ _ => []
  | .seatgo _ => []
  | .keyCreate _ => []
  | .keyDestroy _ => []
  | .keyCommandDone => []
  | .stcmdWarm _ _ => []
  | .stcmdCold _ _ => []
  | .powerApplied _ => []
  | .warmReset _ => []
  | .vfFunctionReset _ => []
  | .heartbeatSend _ => []
  | .agentDeath _ => []
  | .powerSample _ => []
  | .temperatureSample _ => []
  | .tripRecoveryStart _ => []
  | .tclkWrite _ _ _ => []
  | .portTraining _ => []
  | .loadRequest _ _ => []
  | .loadResponse _ _ => []
  | .store _ _ => []
  | .trainUnits _ _ => []
  | .trainTail _ _ => []
  | .acknowledgement _ _ => []
  | .latticeExchange _ _ => []
  | .peerHeartbeat _ _ => []
  | .linkTimeout _ => []
  | .qerrRead _ _ => []
  | .setcfgRead _ => []
  | .fleetCounterRead _ => []
  | .registerWrite _ _ _ _ => []
  | .copyEnginePageFault _ _ => []
  | .fqconsWrite _ _ => []
  | .qctlWrite _ _ => []
  | .hbmRefresh _ _ => []

/-- The four words a fetch window holds when the words `ws` stand at its start and zeros after them. -/
def window (ws : List IWord) : IWord × IWord × IWord × IWord :=
  (ws.getD 0 0, ws.getD 1 0, ws.getD 2 0, ws.getD 3 0)

/-- The decoder on the words an encoder gives. -/
noncomputable def decodeWords (ws : List IWord) : Except Illegal Instr :=
  decode (window ws).1 (window ws).2.1 (window ws).2.2.1 (window ws).2.2.2

end Sys2Proof
end

