-- ==== Sys2Proof/Config.lean ====
section
/-! DEFINITION. The free values of the model: what the manual leaves open. Each is an opaque constant applied to the
free-value counter of State (or to the operands), so that no statement can rest on its value. -/

namespace Sys2Proof.Config

/-- What a dead element holds (spec/06_vector_integer_instructions.md R159): 0 its previous bits, 1 all ones,
2 all zeros. Every value not 1 or 2 stands for 0. (log 8) -/
opaque deadChoice : Nat → Nat

/-- Whether a store unit above a faulting unit has been performed (spec/08_memory_instructions.md R220). (log 9) -/
opaque storeAbove : Nat → Bool

/-- Which line a slice gives up when another enters it, and whether it gives one up before it is full
(spec/13_memory_hierarchy.md R332). (log 10) -/
opaque sliceVictim : Nat → Nat

/-- Which fields an inconsistent page group uses: true for the first member's
(spec/22_translation_faults_preemption.md R443). (log 11) -/
opaque groupFirst : Nat → Bool

/-- How often flits on a port failed their CRC since its last heartbeat (spec/23_host_and_links.md R474; log 54). -/
opaque crcFailures : Nat → Nat

/-- Whether eight of them were failures of one flit (R474; log 54). -/
opaque crcFence : Nat → Bool

/-- What the ECC of a line read from HBM finds (spec/13_memory_hierarchy.md R334): 0 no error, 1 a corrected one, 2 an uncorrectable
one, 3 a corrected one for which a spare row takes the row's place (spec/24_startup.md R483; log 53). -/
opaque eccOutcome : Nat → Nat

/-- The entry of a TLB that a new one displaces (R445; log 16). -/
opaque tlbVictim : Nat → Nat

/-- Whether a translation also enters a core's TLB (R445; log 16). -/
opaque fillsTlb : Nat → Bool

/-- How many core cycles pass in a step (spec/01_state.md R37 fixes no count, since timing is out of the model).
(log 7) -/
opaque elapsed : Nat → Nat

/-- A byte of an overlapping copy, or a byte at or above OFF of a failed copy: true for the copied value
(spec/10_fabric_region_sync_system_instructions.md R271, spec/14_memory_ordering.md R355). (log 12) -/
opaque copyByte : Nat → Bool

/-- Whether an access uses the descriptor the device has cached where memory holds another one since: true for the cached
one (spec/16_lattice_regions.md R384). (log 16) -/
opaque oldDescriptor : Nat → Bool

/-- A value the manual calls undefined or does not state, where the machine goes on. (log 6) -/
opaque freeWord : Nat → BitVec 64

/-- A token or bit pattern the device chooses freely (identifiers, session secrets). (log 6) -/
opaque freeNat : Nat → Nat

end Sys2Proof.Config
end

