-- ==== Sys2Proof/Machine/Map.lean ====
section
/-! DEFINITION. Sparse tables: lists of (key, value) pairs in one canonical form. Keys rise strictly and no entry holds
the value an unlisted key reads as, so equal tables are equal data. Memory and the device's tables are all kept so. -/

namespace Sys2Proof.Machine

/-- What key `k` holds; `d` is what an unlisted key reads as. -/
def Map.get {α : Type} (d : α) : List (Nat × α) → Nat → α
  | [], _ => d
  | (k', v) :: m, k => if k = k' then v else Map.get d m k

/-- Table `m` with key `k` holding `v`; writing `d` removes the entry. -/
def Map.put {α : Type} [DecidableEq α] (d : α) : List (Nat × α) → Nat → α → List (Nat × α)
  | [], k, v => if v = d then [] else [(k, v)]
  | (k', v') :: m, k, v =>
    if k < k' then (if v = d then (k', v') :: m else (k, v) :: (k', v') :: m)
    else if k = k' then (if v = d then m else (k, v) :: m)
    else (k', v') :: Map.put d m k v

/-- Every key of `m` lies above `lo`, keys rise strictly, and no entry holds `d`. -/
def Map.wfFrom {α : Type} [DecidableEq α] (d : α) : Nat → List (Nat × α) → Bool
  | _, [] => true
  | lo, (k, v) :: m => decide (lo ≤ k) && decide (v ≠ d) && Map.wfFrom d (k + 1) m

/-- The canonical form of a table. -/
def Map.wf {α : Type} [DecidableEq α] (d : α) (m : List (Nat × α)) : Bool := Map.wfFrom d 0 m

/-- The listed keys. -/
def Map.keys {α : Type} (m : List (Nat × α)) : List Nat := m.map Prod.fst

/-- Writes the values `vs` at the consecutive keys from `k`. -/
def Map.putList {α : Type} [DecidableEq α] (d : α) : List (Nat × α) → Nat → List α → List (Nat × α)
  | m, _, [] => m
  | m, k, v :: vs => Map.putList d (Map.put d m k v) (k + 1) vs

/-- Reads `n` consecutive keys from `k`. -/
def Map.getList {α : Type} (d : α) (m : List (Nat × α)) (k n : Nat) : List α :=
  (List.range n).map (fun i => Map.get d m (k + i))

/-- Keeps the entries whose key and value `p` accepts. -/
def Map.filter {α : Type} (p : Nat → α → Bool) (m : List (Nat × α)) : List (Nat × α) :=
  m.filter (fun e => p e.1 e.2)

end Sys2Proof.Machine
end

