-- ==== Sys2Proof/Machine/State.lean ====
section
/-! DEFINITION. The state of the whole device as plain data (spec/01_state.md, and the chapters named at each field),
the reasons a step can stop, and the state at release (spec/24_startup.md R484). -/

namespace Sys2Proof.Machine

/-- The control registers that are private to a seat, in the order of the context save area
(spec/01_state.md R34, R35; spec/22_translation_faults_preemption.md R455). VSPCFG is the core's and CYCLE the
device's (R36, R37). -/
inductive Csr
  | vl | vtype | vshape | vstart | vstop | vxrm | vxsat | frm | fflags | grant | gceil | vstat | uvec | uepc | ucause | uvtype | fstat | fsx0 | fsx1 | fsx2 | fsx3 | fout | ften | ltwto | retired | seatid | coreid | taskid | taskcnt | argptr | epc | ecause | eval | eelem | evec | status | asid | owner | ptbase | lrtbase | exitpc | slottab | evtype | hscratch
  deriving DecidableEq, Repr

/-- Every private control register, in the order of R455. -/
def Csr.all : List Csr :=
  [.vl, .vtype, .vshape, .vstart, .vstop, .vxrm, .vxsat, .frm, .fflags, .grant, .gceil, .vstat, .uvec, .uepc, .ucause, .uvtype, .fstat, .fsx0, .fsx1, .fsx2, .fsx3, .fout, .ften, .ltwto, .retired, .seatid, .coreid, .taskid, .taskcnt, .argptr, .epc, .ecause, .eval, .eelem, .evec, .status, .asid, .owner, .ptbase, .lrtbase, .exitpc, .slottab, .evtype, .hscratch]

/-- The place of a control register in the file. -/
def Csr.idx : Csr → Fin 44
  | .vl => 0
  | .vtype => 1
  | .vshape => 2
  | .vstart => 3
  | .vstop => 4
  | .vxrm => 5
  | .vxsat => 6
  | .frm => 7
  | .fflags => 8
  | .grant => 9
  | .gceil => 10
  | .vstat => 11
  | .uvec => 12
  | .uepc => 13
  | .ucause => 14
  | .uvtype => 15
  | .fstat => 16
  | .fsx0 => 17
  | .fsx1 => 18
  | .fsx2 => 19
  | .fsx3 => 20
  | .fout => 21
  | .ften => 22
  | .ltwto => 23
  | .retired => 24
  | .seatid => 25
  | .coreid => 26
  | .taskid => 27
  | .taskcnt => 28
  | .argptr => 29
  | .epc => 30
  | .ecause => 31
  | .eval => 32
  | .eelem => 33
  | .evec => 34
  | .status => 35
  | .asid => 36
  | .owner => 37
  | .ptbase => 38
  | .lrtbase => 39
  | .exitpc => 40
  | .slottab => 41
  | .evtype => 42
  | .hscratch => 43

/-- One 64-byte piece of a tile load: where it lies, the virtual address and the row it belongs to, and whether its
leaf has PSN = 1 (spec/09_matrix_lattice_format_instructions.md R239); for a piece on another device that device and the bytes it has
answered, `psn` then meaning that it found poison (log 18). -/
structure TilePiece where
  pa : Nat
  va : Word
  row : Nat
  psn : Bool
  dev : Option Nat
  got : List Byte
  deriving DecidableEq, Repr

/-- A tile register (spec/01_state.md R18; spec/09_matrix_lattice_format_instructions.md R239). `pending` holds the
pieces a `tld` still transfers. -/
structure Tile where
  data : BitVec 524288
  tag : BitVec 4
  pending : Option (List TilePiece)
  poison : Bool
  paddr : Word
  prow : BitVec 32
  owner : Option (BitVec 10)
  deriving DecidableEq, Repr

/-- A tile register at thread start (spec/01_state.md R44). -/
def Tile.reset : Tile := ⟨0, 0, none, false, 0, 0, none⟩

/-- A store of the seat that has entered the load-store queue and is not yet performed
(spec/14_memory_ordering.md R345, R347). `rel` marks a release: it is performed only as the oldest. `node` marks a store of a fabric
node, which bypasses the L1s (spec/13_memory_hierarchy.md R333). -/
structure PendingStore where
  pa : Nat
  bytes : List Byte
  owner : Nat
  rel : Bool
  node : Bool
  deriving DecidableEq, Repr

/-- The units to which a vector queue dispatches (spec/12_execution_model.md R308). -/
inductive VUnit | lane | memory | matrix | fabric | control
  deriving DecidableEq, Repr

/-- A vector queue entry (spec/12_execution_model.md R307 to R312): its unit; its element groups and how many have entered
the unit; whether it is dispatched; whether its instruction still waits at issue; the vector registers it reads group by
group, those whose producers must have completed before it starts, and those it writes; whether it writes group by group,
and whether it sets VL as it runs; the tile register of a row instruction (spec/09_matrix_lattice_format_instructions.md R248);
whether it holds an entry of the load-store queue until it completes (spec/13_memory_hierarchy.md R336); and whether it completes in
program order with the others (spec/10_fabric_region_sync_system_instructions.md R255). -/
structure VqEntry where
  unit : VUnit
  groups : Nat
  entered : Nat
  dispatched : Bool
  held : Bool
  reads : List Nat
  needs : List Nat
  writes : List Nat
  byGroup : Bool
  setsVl : Bool
  tile : Option Bool
  queued : Bool
  inOrder : Bool
  deriving DecidableEq, Repr

/-- The cells a threshold wait looks at (spec/10_fabric_region_sync_system_instructions.md R267): the address, the
count, the width, and the values last seen. -/
structure CellRange where
  va : Word
  count : Nat
  dbl : Bool
  vals : List Word
  deriving DecidableEq, Repr

/-- What a waiting thread waits for. The waiting instruction is executed again when the wait ends, except for a
threshold wait, which carries its operands (R267) and whose end writes its result. -/
inductive WaitKind
  /-- `ltw` and `ltwn`: destination, whether `ltwn`, the cells' address, the threshold, c, n, width, acquire (R267). -/
  | cells (d : SReg) (many : Bool) (va thr : Word) (c n : Nat) (dbl acq : Bool)
  /-- `wait` and `wait.y` (R269). -/
  | event (yields : Bool)
  /-- `cbar` (R270). -/
  | cbar
  /-- `await` of a copy handle (R272). -/
  | copy (handle : Nat)
  /-- A 17th `acopy` (R271). -/
  | copyRoom
  /-- `vsend` without room (R273). -/
  | sendRoom (next : Bool)
  /-- `vrecv` without a message (R273). -/
  | message (next : Bool)
  /-- Short at `setvl`, `setvli` or `ctxld`: the demand in octets (spec/12_execution_model.md R316). -/
  | lanes (q : Nat)
  /-- Short at placement, before the first instruction (spec/12_execution_model.md R304). -/
  | firstLanes (q : Nat)
  /-- A restored thread short of its saved octets (R281). -/
  | restoreLanes (q : Nat)
  /-- A pending tile (R240 to R243); `left`: a wait of `twait`, which a stop of the thread abandons
  (spec/22_translation_faults_preemption.md R458). -/
  | tile (tb left : Bool)
  /-- An `fx` in flight (R261). -/
  | fx
  /-- A free Sideboard entry for `fshadow` (spec/15_fabric_programming.md R364). -/
  | fabricEntry
  /-- An access to another device, by its tag (spec/23_host_and_links.md R475); `units`: one of a vector load or store, which a
  stop of the thread ends (spec/22_translation_faults_preemption.md R458). -/
  | remote (tag : Nat) (units : Bool)
  /-- A VSPCFG write that drains (spec/13_memory_hierarchy.md R330). -/
  | vspcfg
  deriving DecidableEq, Repr

/-- What waits here completes before a stop of its thread does: all but the waits that the stop abandons, or ends at a unit
(spec/22_translation_faults_preemption.md R458). -/
def WaitKind.completes : WaitKind → Bool
  | .cells _ _ _ _ _ _ _ _ | .event _ | .lanes _ | .firstLanes _ | .restoreLanes _ | .fx => false
  | .tile _ left => !left
  | .remote _ units => !units
  | .cbar | .copy _ | .copyRoom | .sendRoom _ | .message _ | .fabricEntry | .vspcfg => true

/-- What a seat is doing. -/
inductive Run
  /-- No thread: the seat can receive a task (spec/12_execution_model.md R303). -/
  | free
  | running
  | waiting (k : WaitKind)
  /-- Stopped by `halt` until a start command (R282, spec/23_host_and_links.md R468). -/
  | halted
  /-- Off the seat while a fault is answered; a gang's seat stays reserved (spec/22_translation_faults_preemption.md R451). -/
  | parked
  /-- The core, die or device has stopped it (R479, R481). -/
  | dead
  deriving DecidableEq, Repr

/-- A node of a fabric image (spec/11_fabric_configuration.md R286). -/
structure FNode where
  tile : Nat
  node : Nat
  op : Nat
  fmt : Nat
  ew : Nat
  exit : Bool
  aux : Nat
  imm : BitVec 32
  deriving DecidableEq, Repr

/-- A link of a fabric image (R287). -/
structure FLink where
  stile : Nat
  snode : Nat
  sout : Nat
  dtile : Nat
  dnode : Nat
  din : Nat
  slots : Nat
  deriving DecidableEq, Repr

/-- A parsed fabric image (R285). -/
structure FImage where
  marked : Bool
  foot : Nat
  seg : Nat
  nodes : List FNode
  links : List FLink
  length : Nat
  deriving DecidableEq, Repr

/-- What a token carries (R288). -/
inductive TokKind | data (w : Word) | eos (swap : Bool) | marker
  deriving DecidableEq, Repr

/-- A token with its position on input ports 0 to 2 and the record that follows it there: element and sub-index (R299). -/
structure FTok where
  kind : TokKind
  pos : List (Option (Nat × Nat))
  rcd : List (Nat × Nat)
  deriving DecidableEq, Repr

/-- A node that ends a stream or a segment (R292, R293): the token it emits, whether it has, and the inputs whose own such
token it has not yet consumed. -/
structure FClose where
  tok : FTok
  sent : Bool
  left : List Nat
  deriving DecidableEq, Repr

/-- What a node holds between firings (R292 to R296, R299): an accumulator (`red`), a count or cursor, the outputs made so far from each
element of each port (expanding nodes; element e of port p under 4 e + p), whether a `carry` is inside its loop, the closing in hand, the token that follows a written state, whether end of stream has
been emitted, whether a loop exit discards (R294), the tag of an access to another device, and whether the end of stream emitted
carried the swap flag (spec/15_fabric_programming.md R376). -/
structure FNodeSt where
  acc : Option Word
  cnt : Nat
  outs : List (Nat × Nat)
  on : Bool
  close : Option FClose
  pend : Option FTok
  ended : Bool
  skip : Bool
  tag : Option Nat
  endSwap : Bool
  deriving DecidableEq, Repr

/-- A node at reset (R292, R372). -/
def FNodeSt.reset : FNodeSt := ⟨none, 0, [], false, none, none, false, false, none, false⟩

/-- One request of an `ereq` node (R296): a response ready to leave, or a copy that runs. -/
inductive FReq | ready (t : FTok) | copy (handle : Nat) (t : FTok)
  deriving DecidableEq, Repr

/-- A stream of an `fx` (R261): the elements still to inject, the index of the next one, the element and sub-index it
started from, whether a marker is due, and whether end of stream has been injected. -/
structure FStream where
  elems : List Word
  next : Nat
  start : Nat
  sub : Nat
  mark : Bool
  done : Bool
  deriving DecidableEq, Repr

/-- An `fx` that has issued (R261, R288 to R300; spec/15_fabric_programming.md R364 to R377): its image and binding, its
words, destination and element width in bits, VLMAX in units, its base tile once started, its streams and ports, the tokens on its
links, its nodes, what the output ports took, the first output index, the committed output count, the records and the
markers counted, REM, DISC and flags so far, the swap it carries with the shadow's identifier and footprint and the tiles swapped,
and its stores so far: positions, address, the bytes before and those written (spec/14_memory_ordering.md R360). -/
structure FxRun where
  img : FImage
  cid : Nat
  tab : Nat
  slot : Nat
  words : Nat
  vd : VReg
  w : Nat
  vlmax : Nat
  base : Nat
  started : Bool
  sources : Nat
  streams : List FStream
  arg : Word
  argSent : Nat
  copySent : Nat
  queues : List (List FTok)
  nodes : List FNodeSt
  reqs : List (List FReq)
  out0 : List Word
  out1 : List Word
  out : Nat
  committed : Nat
  records : List (Nat × Nat)
  marks : Nat
  rem : Nat
  disc : Nat
  flags : BitVec 5
  swap : Bool
  sid : Nat
  sfoot : Nat
  swapped : List Nat
  stores : List (List (Option (Nat × Nat)) × Nat × List Byte × List Byte)
  cut : Bool
  deriving DecidableEq, Repr

/-- What the scalar instructions younger than a waiting vector-queue instruction have done ahead of it
(spec/12_execution_model.md R307, R316): the pc they started from and the one they have come to, the scalar and f registers as they leave
them, the register that the waiting instruction has still to write for them, FFLAGS as they leave it, how many they are, and
their stores, which are performed only after it (spec/22_translation_faults_preemption.md R448). -/
structure Ahead where
  start : PC
  pc : PC
  s : Vector Word 32
  f : Vector Word 32
  dst : Option SReg
  flags : Word
  count : Nat
  lsq : List PendingStore
  deriving DecidableEq, Repr

/-- One thread on a seat: its architectural state and what the chapters on waiting, launch and faults keep beside it. -/
structure Thread where
  s : Vector Word 32
  f : Vector Word 32
  pc : PC
  csr : Vector Word 44
  slices : Vector (BitVec 8192) 64
  vvalid : BitVec 64
  tb0 : Tile
  tb1 : Tile
  slotValid : BitVec 64
  run : Run
  lsq : List PendingStore
  vq : List VqEntry
  fx : Option FxRun
  copySeq : Nat
  wake : Bool
  lastRange : Option CellRange
  lastRecv : Option Bool
  waitStart : Option Nat
  waitUsed : Nat
  grp : Option (Nat × Nat)
  gang : Bool
  prio : Nat
  placedAt : Nat
  /-- Core cycles for which the thread held a seat before it last took one (spec/22_translation_faults_preemption.md R461). -/
  held : Nat
  /-- When a stop for pre-emption of the thread began (R458, R461) and whether R460 chose it; when its GCEIL fell (R459). -/
  stopping : Option (Nat × Bool)
  /-- The instruction that last waited, by its pc, where it is one that completes before a stop of the thread does (R458). -/
  finishing : Option PC
  ceilFell : Option Nat
  /-- The Bench has lowered GCEIL and not yet raised it back; the supervisor has written it (R318). -/
  lowered : Bool
  ceilHeld : Bool
  exitRoutine : Bool
  removed : Bool
  /-- `cbar` (R270): a participant of the current generation, arrived at it, released from one and not yet past it. -/
  cbarIn : Bool
  cbarArrived : Bool
  cbarPassed : Bool
  /-- The flags of the passes of an `fx` that stopped (spec/11_fabric_configuration.md R291); of each uncommitted store firing of those
  passes the position, and the address and value of each byte it wrote; and what every byte stored by the `fx` held before the
  `fx` (spec/14_memory_ordering.md R360). -/
  fxFlags : BitVec 5
  fxStores : List (List (Option (Nat × Nat)) × Nat × Byte)
  fxBase : List (Nat × Byte)
  /-- KIND of a record of its last trap to the firmware (spec/22_translation_faults_preemption.md R453). -/
  trapKind : Nat
  /-- What younger scalar instructions have done ahead of the instruction that waits (log 3). -/
  ahead : Option Ahead
  deriving DecidableEq, Repr

/-- A seat without a thread, and the registers of a thread that starts (spec/01_state.md R44): scalar, f and control
registers 0, every vector register invalid, both tile registers 0, the slot-table cache empty. -/
def Thread.free : Thread where
  s := Vector.replicate 32 0
  f := Vector.replicate 32 0
  pc := 0
  csr := Vector.replicate 44 0
  slices := Vector.replicate 64 0
  vvalid := 0
  tb0 := Tile.reset
  tb1 := Tile.reset
  slotValid := 0
  run := .free
  lsq := []
  vq := []
  fx := none
  copySeq := 0
  wake := false
  lastRange := none
  lastRecv := none
  waitStart := none
  waitUsed := 0
  grp := none
  gang := false
  prio := 0
  placedAt := 0
  held := 0
  stopping := none
  finishing := none
  ceilFell := none
  lowered := false
  ceilHeld := false
  exitRoutine := false
  removed := false
  cbarIn := false
  cbarArrived := false
  cbarPassed := false
  fxFlags := 0
  fxStores := []
  fxBase := []
  trapKind := 0
  ahead := none

/-- The value of a control register. -/
def Thread.get (t : Thread) (c : Csr) : Word := t.csr[c.idx]

/-- The thread with a control register holding `v`. -/
def Thread.set (t : Thread) (c : Csr) (v : Word) : Thread := { t with csr := t.csr.set c.idx v }

/-- A message of a stream buffer (spec/13_memory_hierarchy.md R337): VL, EW code, FMT code, owner and the elements. -/
structure Msg where
  vl : Nat
  ew : BitVec 2
  fmt : BitVec 4
  owner : Nat
  elems : List Word
  deriving DecidableEq, Repr

/-- A stream buffer, held in the receiving core (R337): the messages whose tail has arrived, those published and still
on their way (R338), and whether it was emptied because its other core was declared dead (R339). -/
structure StreamBuf where
  msgs : List Msg
  flight : List Msg
  dead : Bool
  deriving DecidableEq, Repr

/-- A tile context: the configuration whose nodes a tile holds (spec/15_fabric_programming.md R364, R365). `shadow` is
the slot table and slot it is armed for. -/
structure TileCtx where
  tile : Nat
  cid : Nat
  shadow : Option (Nat × Nat)
  lastRun : Nat
  active : Bool
  deriving DecidableEq, Repr

/-- A configuration's placement on a core (R364). -/
structure Placement where
  cid : Nat
  base : Nat
  foot : Nat
  deriving DecidableEq, Repr

/-- What the eight seats of a core share: `resv` and `returning` list octets with the seat they are reserved for or come from
(spec/12_execution_model.md R315, R317), `shortQ` the short seats with the start of their wait (R316). -/
structure Core where
  vspcfg : BitVec 2
  vspPending : Option (Nat × BitVec 2)
  resv : List (Nat × Nat)
  returning : List (Nat × Nat)
  shortQ : List (Nat × Nat)
  ctx : List TileCtx
  place : List Placement
  fxq : List Nat
  useStamp : Nat
  tclk : Vector (BitVec 8) 8
  clk : Vector (BitVec 8) 8
  fromPrev : StreamBuf
  fromNext : StreamBuf
  /-- The instruction L1 (R331): line, owner tag and bytes. -/
  icache : List (Nat × Nat × List Byte)
  matLast : Nat
  deriving DecidableEq, Repr

/-- A core at release (spec/24_startup.md R484): VSPCFG 0, no context, every tile clock at 1.0 GHz (code 10). -/
def Core.reset : Core where
  vspcfg := 0
  vspPending := none
  resv := []
  returning := []
  shortQ := []
  ctx := []
  place := []
  fxq := []
  useStamp := 0
  tclk := Vector.replicate 8 10
  clk := Vector.replicate 8 10
  fromPrev := ⟨[], [], false⟩
  fromNext := ⟨[], [], false⟩
  icache := []
  matLast := 0

/-- The registers of a die's Settle and its temperature sample (spec/16_lattice_regions.md R395;
spec/25_fleet_operation.md R492). -/
structure Die where
  setEn : Bool
  setShare : Nat
  setCarry : Nat
  setDrop : Nat
  temp : Nat
  deriving DecidableEq, Repr

/-- A die at release: EN 1, SHARE 10 (R395). -/
def Die.reset : Die := ⟨true, 10, 0, 0, 0⟩

/-- The tag of a 128-byte line (spec/13_memory_hierarchy.md R334, R340, R341). `owner = none` is a line no live key
decodes: every read of it finds poison. -/
structure LineTag where
  owner : Option Nat
  poison : Bool
  deriving DecidableEq, Repr

/-- The tag of a line that no owner has written since release (spec/24_startup.md R484). -/
def LineTag.reset : LineTag := ⟨none, true⟩

/-- A cached translation (spec/22_translation_faults_preemption.md R445): the TLB that holds it (core c's for fetches and scalar
accesses is c, its vector one 192 + c, die d's shared one 384 + d), its ASID, the virtual page number, log2 of the page size (of
a whole group's, where a group is cached as one), the page's base and the leaf's fields. -/
structure TlbEntry where
  tlb : Nat
  asid : Nat
  vpn : Nat
  size : Nat
  base : Nat
  leaf : BitVec 64
  deriving DecidableEq, Repr

/-- A fabric image resident in the Armoires (R258, R363). -/
structure Image where
  owner : Nat
  img : FImage
  deriving DecidableEq, Repr

/-- A copy (R271, R272). `seat` is its thread's seat, 2^16 + token while that thread is saved off its seat, and 2^32 once it
has ended; `core` is the core it started on. `status = none` while it runs; `fault` holds the token of a posted page fault,
`faultPath` then the entries its walk read and `retry` that a `tlbi` covered it after they changed (R454);
`tag` names the flits of a copy from or to another device once they are sent; `sent` and `ends` are then the bytes a copy to another
device has sent and the status that ends it. `hand` holds the bytes it has read, by offset, `made` the ranges of offsets, by their first and their
length, that it has written (spec/14_memory_ordering.md R355), and `wrote` of each line it has written in part the bytes, as a bit mask. -/
structure Copy where
  seat : Nat
  handle : Nat
  core : Nat
  dst : Word
  src : Word
  len : Nat
  rows : Nat
  sstr : Word
  dstr : Word
  asid : Nat
  owner : Nat
  ptbase : Nat
  lrtbase : Nat
  priv : Bool
  status : Option Word
  fault : Option Nat
  faultVa : Nat
  faultStore : Bool
  faultPath : List Nat
  retry : Bool
  grp : Option (Nat × Nat)
  tag : Option Nat
  sent : Nat
  ends : Word
  hand : List (Nat × List Byte)
  made : List (Nat × Nat)
  wrote : List (Nat × Nat)
  deriving DecidableEq, Repr

/-- The 64 bytes of a launch record (spec/21_launch_and_scheduling.md R430), as eight words. -/
structure LaunchRec where
  entry : Word
  argptr : Word
  exitpc : Word
  gcell : Word
  gthr : Word
  ccell : Word
  cval : Word
  ctrl : Word
  deriving DecidableEq, Repr

/-- An intake queue (R427): its registers, its staging area and the records it holds with their sequence numbers. `prev` is the
last record that has left it since EN last became 1 (R432). -/
structure Queue where
  ctl : Word
  pt : Word
  lrt : Word
  slot : Word
  cr : Word
  seq : Nat
  err : Nat
  staging : Vector Word 8
  recs : List (Nat × LaunchRec)
  prev : Option Nat
  deriving DecidableEq, Repr

/-- An intake queue at release (R427). -/
def Queue.reset : Queue where
  ctl := 0
  pt := 0
  lrt := 0
  slot := 0
  cr := 0
  seq := 0
  err := 0
  staging := Vector.replicate 8 0
  recs := []
  prev := none

/-- A task group that has left its queue (R433 to R437). `boost` is the aging of R433. -/
structure Group where
  queue : Nat
  seq : Nat
  r : LaunchRec
  owner : Nat
  asid : Word
  pt : Word
  lrt : Word
  slot : Word
  placed : Nat
  exited : Nat
  removed : Nat
  boost : Nat
  since : Nat
  lastDie : Nat
  gateFailed : Bool
  deriving DecidableEq, Repr

/-- A fault record (spec/22_translation_faults_preemption.md R453). -/
structure FaultRec where
  va : Word
  asid : Word
  cause : Nat
  sub : Nat
  kind : Nat
  fatal : Bool
  gang : Bool
  seat : Nat
  token : Nat
  elem : Nat
  pc : Word
  deriving DecidableEq, Repr

/-- A function's fault queue (R452) and the records its full ring makes the firmware hold (R451). -/
structure FaultQ where
  base : Word
  prod : Nat
  cons : Nat
  ctl : Word
  held : List FaultRec
  deriving DecidableEq, Repr

/-- A fault queue at release: EN 0 (R484). -/
def FaultQ.reset : FaultQ := ⟨0, 0, 0, 0, []⟩

/-- A thread that is off its seat (R451, R459): the token of its fault record, its core, the seat it held. -/
structure Saved where
  token : Nat
  seat : Nat
  th : Thread
  /-- `true` while a fault record waits for its answer; `false` when it can be restored. -/
  parked : Bool
  /-- The seat is kept for it: a gang's thread whose fault is being answered (R451). -/
  kept : Bool
  fn : Nat
  since : Nat
  deriving DecidableEq, Repr

/-- A block that a Settle has still to send to a partner die (spec/16_lattice_regions.md R390): the region by its table
base and index, the block by its number, and when it was first marked (R391). -/
structure Change where
  die : Nat
  partner : Nat
  lrt : Nat
  idx : Nat
  block : Nat
  since : Nat
  deriving DecidableEq, Repr

/-- A block on its way between dies (R390). -/
structure SettleMsg where
  src : Nat
  dst : Nat
  lrt : Nat
  idx : Nat
  block : Nat
  bytes : List Byte
  deriving DecidableEq, Repr

/-- An access of a seat to another device (spec/23_host_and_links.md R475): the flits' tag, the number of unit records
sent, those returned or performed, the first failure reported, by position and sub-cause (R234), and when it left (R476). -/
structure RemoteOp where
  tag : Nat
  seat : Nat
  dev : Nat
  load : Bool
  count : Nat
  got : Nat
  recs : List UnitRec
  fail : Option (Nat × Nat)
  done : Bool
  sent : Nat
  deriving DecidableEq, Repr

/-- A train being received: its source, its tag, the units received, those that failed and the first of them (R475). -/
structure Inbound where
  src : Nat
  tag : Nat
  got : Nat
  bad : Nat
  failAt : Option (Nat × Nat)
  deriving DecidableEq, Repr

/-- A Feryan port (spec/23_host_and_links.md R474, R479). `peer` is the device whose heartbeat came over it last. -/
structure Port where
  trained : Bool
  fenced : Bool
  session : Nat
  txSeq : Nat
  fences : Nat
  peer : Option Nat
  deriving DecidableEq, Repr

/-- A port at release: not trained. -/
def Port.reset : Port := ⟨false, false, 0, 0, 0, none⟩

/-- The start status (spec/24_startup.md R486). `state` is 1 STARTING, 2 READY, 3 FAILED. -/
structure StartSt where
  fcode : Nat
  wcode : Nat
  fdet : Nat
  step : Nat
  wfail : Nat
  kind : Nat
  state : Nat
  starts : Nat
  tripped : Bool
  deriving DecidableEq, Repr

/-- The fleet block (spec/25_fleet_operation.md R488 to R496). `cnt` holds the counters of R493 by block offset, `beats`
when each agent last sent a heartbeat (spec/23_host_and_links.md R479). `eccTotal` and `spares` are of each stack the uncorrectable errors
since the last cold start and the spare rows in use (spec/24_startup.md R483, R496). -/
structure Fleet where
  pcap : Nat
  power : Nat
  thr : Nat
  thermHold : Bool
  rtlim : Nat
  hbcfg : BitVec 3
  replBits : BitVec 5
  replUnit : List (Nat × Nat)
  deadCores : List Nat
  deadDies : List Nat
  deadPeers : List Nat
  cnt : List (Nat × Nat)
  beats : List (Nat × Nat)
  eccTotal : List (Nat × Nat)
  spares : List (Nat × Nat)
  deriving DecidableEq, Repr

/-- The fleet block at release: CAP 72, HBCFG 7 (R488, R494). -/
def Fleet.reset : Fleet := ⟨72, 0, 0, false, 0, 7, 0, [], [], [], [], [], [], [], []⟩

/-- How a host's read, or a request that the device does not take, completes (spec/23_host_and_links.md R467, R469): with data, with
data in a poisoned TLP, as Completer Abort or as Unsupported Request. -/
inductive Completion | data (bytes : List Byte) | poisoned (bytes : List Byte) | abort | unsupported
  deriving DecidableEq, Repr

/-- Which agent moves next (the model's own; log 5): a seat runs its next instruction, an event of the table happens, a copy of a
seat, by its handle, reads `n` bytes from an offset on, or writes them (log 12), or a seat that waits at a vector-queue instruction runs
the next scalar instruction (spec/12_execution_model.md R307). -/
inductive Agent | seat (n : Nat) | event (i : Instr) | part (seat handle off n : Nat) (write : Bool) | ahead (n : Nat)
  deriving DecidableEq, Repr

/-- The device. `th` is the thread of seat `cur` (device-wide number, spec/00_scope.md R4); the threads of the other
seats are in `seats`. -/
structure State where
  cur : Nat
  th : Thread
  seats : List (Nat × Thread)
  cores : List (Nat × Core)
  dies : List (Nat × Die)
  /-- HBM bytes by physical address, VSP bytes by bank storage (spec/13_memory_hierarchy.md R326, R328). -/
  mem : List Host.Cell
  lines : List (Nat × LineTag)
  vspTags : List (Nat × Option Nat)
  /-- L1 copies (R331 to R333): line, core, dirty. -/
  l1 : List (Nat × Nat × Bool)
  /-- The HBM lines that their home slices hold, oldest first, and whether each is dirty (R332). -/
  slice : List (Nat × Bool)
  /-- Lines on their way to a core's data L1 for a scalar load that missed there: core, line (R331, R343). -/
  loads : List (Nat × Nat)
  /-- Lines on their way to a core's instruction L1 for a fetch that missed there: core, line (R331). -/
  fetches : List (Nat × Nat)
  tlb : List TlbEntry
  /-- Cached lattice descriptors (spec/16_lattice_regions.md R384): the physical address and the 64 bytes read there. -/
  descs : List (Nat × List Byte)
  /-- CYCLE (spec/01_state.md R37). It is 0 at reset and at every start, for which the spec gives no value (DESIGN CHOICE; log 56). -/
  cycle : Nat
  images : List (Nat × Option Image)
  copies : List Copy
  changes : List Change
  settleMsgs : List SettleMsg
  /-- One more than the instant at which the last round of each region began, by 4,096 times its table base plus its index (R391). -/
  rounds : List (Nat × Nat)
  queues : List (Nat × Queue)
  groups : List Group
  gangResv : Option (Nat × Nat × Nat)
  rr : Nat
  fqs : List (Nat × FaultQ)
  saved : List Saved
  nextToken : Nat
  /-- The function table (spec/23_host_and_links.md R466): VF registers by number. -/
  vfs : List (Nat × Word)
  pfown : Nat
  pfwin : Word
  /-- Owners whose key is held (R477). -/
  keys : List Nat
  /-- The key command running: identifier and operation. -/
  keyCmd : Option (Nat × Nat)
  keyLid : Nat
  keyRes : Nat
  devnum : Nat
  lto : Nat
  routes : List (Nat × Word)
  ports : List (Nat × Port)
  outbox : List (Nat × Flit)
  remotes : List RemoteOp
  inbound : List Inbound
  nextTag : Nat
  start : StartSt
  fleet : Fleet
  openRows : List (Nat × Nat)
  /-- MSI-X messages sent: function and vector (R465). -/
  msi : List (Nat × Nat)
  /-- Completions of host requests, newest first (R467, R469). -/
  hostOut : List Completion
  /-- Errors logged through AER: function and BAR2 offset (R469). -/
  aer : List (Nat × Nat)
  /-- The schedule (the model's own, log 5). -/
  sched : List Agent
  /-- The free-value counter (the model's own, log 6). -/
  free : Nat
  deriving DecidableEq, Repr

/-- Why a step can stop. -/
inductive Fault
  /-- Raised by `step` when the device is not READY and no start event is scheduled: after a thermal trip or a failed
  cold start nothing runs (spec/24_startup.md R481, R485). Safe: the model stops where the device is stopped. -/
  | deviceStopped
  deriving DecidableEq, Repr

/-- Why an instruction has no meaning here. -/
inductive Refusal
  /-- Raised by an arm of `exec` whose instruction is not modelled yet. Safe. -/
  | notModelled (mnemonic : String)
  deriving DecidableEq, Repr

/-- The supervisor thread of die `d` at release (spec/24_startup.md R484, spec/12_execution_model.md R303): seat 7 of
core 32d at STATUS.PRIV = 1; what R34 and R35 mark L is 0 but for SEATID, COREID and GCEIL (log 1). -/
def Thread.firmware (d : Nat) : Thread :=
  { (((Thread.free.set .status 1).set .seatid 7).set .coreid (BitVec.ofNat 64 (32 * d))).set .gceil 8 with
    run := .running, prio := 7 }

/-- The device right after a cold start reaches READY (spec/24_startup.md R484): the firmware runs on the six
supervisor seats, seat 7 of core 0 in focus; everything else is free, empty or invalid; owner 0 has its key. -/
def State.reset : State where
  cur := 7
  th := Thread.firmware 0
  seats := [(263, Thread.firmware 1), (519, Thread.firmware 2), (775, Thread.firmware 3), (1031, Thread.firmware 4),
    (1287, Thread.firmware 5)]
  cores := []
  dies := []
  mem := []
  lines := []
  vspTags := []
  l1 := []
  slice := []
  loads := []
  fetches := []
  tlb := []
  descs := []
  cycle := 0
  images := []
  copies := []
  changes := []
  settleMsgs := []
  rounds := []
  queues := []
  groups := []
  gangResv := none
  rr := 0
  fqs := []
  saved := []
  nextToken := 1
  vfs := []
  pfown := 0
  pfwin := 0
  keys := [0]
  keyCmd := none
  keyLid := 0
  keyRes := 0
  devnum := 0
  lto := 100
  routes := []
  ports := []
  outbox := []
  remotes := []
  inbound := []
  nextTag := 0
  start := ⟨0, 0, 0, 7, 0, 1, 2, 1, false⟩
  fleet := Fleet.reset
  openRows := []
  msi := []
  hostOut := []
  aer := []
  sched := []
  free := 0

end Sys2Proof.Machine
end

