-- ==== Sys2Proof/Machine/Ops.lean ====
section
/-! DEFINITION. The named operations over threads, seats, cores and registers (spec/01_state.md), the free choices, the
control registers (R31 to R36), taking an exception (R41, R42) and returning from one (R43), and the end of a thread. -/

namespace Sys2Proof.Machine

/-! ## Threads, seats and cores -/

/-- The state with the focused thread replaced. -/
def State.withTh (s : State) (t : Thread) : State := { s with th := t }

/-- The thread of device-wide seat `n` (spec/00_scope.md R4). -/
def State.seat (s : State) (n : Nat) : Thread :=
  if n = s.cur then s.th else Map.get Thread.free s.seats n

/-- The state with the thread of seat `n` replaced. -/
def State.setSeat (s : State) (n : Nat) (t : Thread) : State :=
  if n = s.cur then { s with th := t } else { s with seats := Map.put Thread.free s.seats n t }

/-- Seat `n` in focus. -/
def State.focus (s : State) (n : Nat) : State :=
  if n = s.cur then s
  else
    { s with
      cur := n
      th := Map.get Thread.free s.seats n
      seats := Map.put Thread.free (Map.put Thread.free s.seats s.cur s.th) n Thread.free }

/-- The core of seat `n` (R4). -/
def coreOf (n : Nat) : Nat := n / 8

/-- The die of core `c` (R3). -/
def dieOf (c : Nat) : Nat := c / 32

/-- Core `c`. -/
def State.core (s : State) (c : Nat) : Core := Map.get Core.reset s.cores c

/-- The state with core `c` replaced. -/
def State.setCore (s : State) (c : Nat) (k : Core) : State := { s with cores := Map.put Core.reset s.cores c k }

/-- The eight seats of core `c`. -/
def seatsOf (c : Nat) : List Nat := (List.range 8).map (fun k => 8 * c + k)

/-- Die `d`'s Settle registers and sensor. -/
def State.die (s : State) (d : Nat) : Die := Map.get Die.reset s.dies d

/-- The state with die `d`'s registers replaced. -/
def State.setDie (s : State) (d : Nat) (x : Die) : State := { s with dies := Map.put Die.reset s.dies d x }

/-- Every seat that holds a thread or has held one, the focused one among them. -/
def State.allSeats (s : State) : List Nat := s.cur :: (Map.keys s.seats).filter (fun n => n ≠ s.cur)

/-- The argument of a free choice made in this step about `x` (log 6). -/
def State.pick (s : State) (x : Nat) : Nat := s.free * 2 ^ 64 + x

/-! ## Registers -/

/-- A scalar register; s0 reads zero (R16). -/
def Thread.x (t : Thread) (r : SReg) : Word := if r = 0 then 0 else t.s.getD r.toNat 0

/-- Writes a scalar register; a write to s0 is discarded (R16). -/
def Thread.setX (t : Thread) (r : SReg) (v : Word) : Thread :=
  if r = 0 then t else { t with s := t.s.setIfInBounds r.toNat v }

/-- An f register, all 64 bits (R16). -/
def Thread.fr (t : Thread) (r : SReg) : Word := t.f.getD r.toNat 0

/-- Writes an f register. -/
def Thread.setFr (t : Thread) (r : SReg) (v : Word) : Thread := { t with f := t.f.setIfInBounds r.toNat v }

/-- A single-precision read: the canonical NaN unless bits 63..32 are all ones (R16). -/
def Thread.fs (t : Thread) (r : SReg) : BitVec 32 :=
  if (t.fr r).extractLsb' 32 32 = BitVec.allOnes 32 then (t.fr r).extractLsb' 0 32 else 0x7FC00000#32

/-- A binary32 value in an f register: bits 63..32 all ones (R16). -/
def boxS (v : BitVec 32) : Word := BitVec.allOnes 32 ++ v

/-- The thread past an instruction of `words` words that counts `k` in RETIRED (R37). -/
def Thread.advance (t : Thread) (words k : Nat) : Thread :=
  { t.set .retired (t.get .retired + BitVec.ofNat 64 k) with pc := t.pc + BitVec.ofNat 57 (4 * words), run := .running }

/-- A counter of the fleet block, by its offset (spec/25_fleet_operation.md R493). -/
def State.count (s : State) (off k : Nat) : State :=
  { s with fleet := { s.fleet with cnt := Map.put 0 s.fleet.cnt off (Map.get 0 s.fleet.cnt off + k) } }

/-- A condition of REPL arises (R496): its bit is set, with the unit that set it first. -/
def State.indicate (s : State) (bit unit : Nat) : State :=
  if s.fleet.replBits.getLsbD bit then s
  else
    { s with fleet := { s.fleet with
        replBits := s.fleet.replBits ||| (1#5 <<< bit), replUnit := s.fleet.replUnit ++ [(bit, unit)] } }

/-- RETSUM of the die of seat `n` counts `k` instructions (R493). -/
def State.retired (s : State) (n k : Nat) : State := s.count (0x1000 + 8 * dieOf (coreOf n)) k

/-- The focused thread has run an instruction of `words` words and is `t` otherwise. -/
def State.finish (s : State) (t : Thread) (words : Nat) : State := (s.withTh (t.advance words 1)).retired s.cur 1

/-- The focused thread past an instruction of `words` words. -/
def State.adv (s : State) (words : Nat) : State := s.finish s.th words

/-- The waiting instruction of seat `n`, of `words` words, completes on thread `t`. -/
def State.finishSeat (s : State) (n : Nat) (t : Thread) (words : Nat) : State :=
  (s.setSeat n (t.advance words 1)).retired n 1

/-- Writes a scalar register of the focused thread. -/
def State.setX (s : State) (r : SReg) (v : Word) : State := s.withTh (s.th.setX r v)

/-- Writes an f register of the focused thread. -/
def State.setFr (s : State) (r : SReg) (v : Word) : State := s.withTh (s.th.setFr r v)

/-- Writes a control register of the focused thread. -/
def State.setCsr (s : State) (c : Csr) (v : Word) : State := s.withTh (s.th.set c v)

/-- The focused thread waits; its instruction has not completed. -/
def State.waitOn (s : State) (k : WaitKind) : State :=
  s.withTh { s.th with run := .waiting k, finishing := if k.completes then some s.th.pc else none }

/-- The thread with what its younger scalar instructions have done ahead of an instruction that has now completed
(spec/12_execution_model.md R307; log 3). -/
def Thread.takeAhead (t : Thread) (a : Ahead) : Thread :=
  let u : Thread := { t with pc := a.pc, s := a.s, f := a.f, lsq := t.lsq ++ a.lsq, ahead := none }
  let u := match a.dst with | some d => u.setX d (t.x d) | none => u
  (u.set .fflags (t.get .fflags ||| a.flags)).set .retired (t.get .retired + BitVec.ofNat 64 a.count)

/-- Seat `n` with what ran ahead of an instruction that has now completed. -/
def State.mergeSeat (s : State) (n : Nat) : State :=
  let t := s.seat n
  match t.ahead with
  | none => s
  | some a => if t.run ≠ .running ∨ t.pc ≠ a.start then s else (s.setSeat n (t.takeAhead a)).retired n a.count

/-- The thread without stores that wait to be performed after an instruction in hand: what ran ahead of it is undone, and runs again. -/
def Thread.dropAhead (t : Thread) : Thread :=
  match t.ahead with
  | some a => if a.lsq.isEmpty then t else { t with ahead := none }
  | none => t

/-- STATUS.PRIV (R40). -/
def Thread.priv (t : Thread) : Bool := (t.get .status).getLsbD 0

/-- STATUS.UACT (R40). -/
def Thread.uact (t : Thread) : Bool := (t.get .status).getLsbD 2

/-- OWNER, bits 9..0 (R35). -/
def Thread.owner (t : Thread) : Nat := (t.get .owner).toNat % 1024

/-! ## VTYPE, shape and grant -/

/-- The element width in bits: the EW code of VTYPE (R27). -/
def ewBits (code : Nat) : Nat := 8 * 2 ^ code

/-- VTYPE.FMT (R27). -/
def vtFmt (v : Word) : Nat := (v.extractLsb' 3 4).toNat
/-- VTYPE.EW code (R27). -/
def vtEwc (v : Word) : Nat := (v.extractLsb' 0 3).toNat
/-- VTYPE.FZ (R27). -/
def vtFz (v : Word) : Nat := (v.extractLsb' 7 2).toNat
/-- VTYPE.TD (R27). -/
def vtTd (v : Word) : Bool := v.getLsbD 9
/-- VTYPE.MD (R27). -/
def vtMd (v : Word) : Bool := v.getLsbD 10
/-- VTYPE.RM (R27). -/
def vtRm (v : Word) : Nat := (v.extractLsb' 11 3).toNat
/-- VTYPE.XM (R27). -/
def vtXm (v : Word) : BitVec 5 := v.extractLsb' 14 5
/-- VTYPE.SFMT (R27). -/
def vtSfmt (v : Word) : Nat := (v.extractLsb' 19 4).toNat
/-- VTYPE.SCL (R27). -/
def vtScl (v : Word) : Bool := v.getLsbD 23
/-- VTYPE.SATCVT (R27). -/
def vtSat (v : Word) : Bool := v.getLsbD 24

/-- R28: the legal FMT and EW pairs. -/
def fmtEwLegal (fmt ewc : Nat) : Bool :=
  match fmt with
  | 0 | 1 => decide (ewc ≤ 3)
  | 2 => decide (ewc = 3)
  | 3 | 10 => decide (ewc = 2)
  | 4 | 5 | 9 => decide (ewc = 1)
  | 6 | 7 | 8 => decide (ewc = 0)
  | _ => false

/-- R29: no reserved value in any field and a legal FMT and EW pair. -/
def vtypeLegal (v : Word) : Bool :=
  decide (v.extractLsb' 25 39 = 0) &&
  decide (vtSfmt v ∈ [0, 4, 5, 6, 7, 9, 10]) && decide (vtRm v ≤ 4) && fmtEwLegal (vtFmt v) (vtEwc v)

/-- NREG under a shape (R19). -/
def nregOf (shape : Nat) : Nat := 8 * 2 ^ (shape % 4)

/-- NREG of the thread. -/
def Thread.nreg (t : Thread) : Nat := nregOf (t.get .vshape).toNat

/-- A register's portion per lane in words, W = 256/NREG (R19). -/
def Thread.portion (t : Thread) : Nat := 256 / t.nreg

/-- GRANT.CNT, 0 to 8 (R39). -/
def Thread.octets (t : Thread) : Nat := Nat.min 8 ((t.get .grant).extractLsb' 0 4).toNat

/-- The lane count g = 8 × GRANT.CNT (R20). -/
def Thread.lanes (t : Thread) : Nat := 8 * t.octets

/-- VLMAX under a portion of `W` words, `g` lanes and a type (R21); a reserved EW or FMT that `eret` has restored (R43) counts as
elements of 8·2^EW bits (log 47). -/
def vlmaxOf (W g : Nat) (vt : Word) : Nat :=
  match vtFmt vt with
  | 8 => 2 * (W * g * 4)
  | 9 => 8 * (W * g * 2)
  | 10 => 8 * (W * g)
  | _ => W * g * 32 / ewBits (vtEwc vt)

/-- VLMAX of the thread (R21). -/
def Thread.vlmax (t : Thread) : Nat := vlmaxOf t.portion t.lanes (t.get .vtype)

/-- The length an instruction runs under: VL, or VLMAX while VL exceeds it (R22). -/
def Thread.vl (t : Thread) : Nat := Nat.min (t.get .vl).toNat t.vlmax

/-- Every vector register invalid (R26). -/
def Thread.invalidate (t : Thread) : Thread := { t with vvalid := 0 }

/-! ## Traps -/

/-- A trap (spec/10_fabric_region_sync_system_instructions.md R283): cause, sub-cause, EVAL, EELEM, the flags of cause
0x0C, the physical address of a line that the failed read leaves poisoned (R341), and KIND of a record of it
(spec/22_translation_faults_preemption.md R453): 4 for a trap that no access raises (log 37). -/
structure Trap where
  cause : BitVec 8
  sub : BitVec 8 := 0
  eval : Word := 0
  elem : Nat := 0
  flags : BitVec 5 := 0
  poisons : Option Nat := none
  kind : Nat := 4
  deriving DecidableEq, Repr

/-- Illegal instruction with a sub-cause (R114). -/
def Trap.illegal (sub : BitVec 8) : Trap := { cause := 0x01, sub := sub }

/-- What an instruction comes to: a next state, or a trap on the state its partial effect left. -/
inductive Res
  | ok (s : State)
  | trap (s : State) (t : Trap)

/-- A list of octets with their seats, but for those of seat `n`. -/
def dropSeat (n : Nat) (l : List (Nat × Nat)) : List (Nat × Nat) := l.filter (fun e => e.2 ≠ n)

/-- The short seats but for seat `n` (spec/12_execution_model.md R316). -/
def leaveShort (n : Nat) (l : List (Nat × Nat)) : List (Nat × Nat) := l.filter (fun e => e.1 ≠ n)

/-- The Bench and the Sideboard without seat `n` of core `c` (spec/12_execution_model.md R314, R317, R320): its
reservations lapse, it is short no more and waits for no tiles. -/
def Core.forget (k : Core) (n : Nat) : Core :=
  { k with
    resv := dropSeat n k.resv
    shortQ := leaveShort n k.shortQ
    returning := dropSeat n k.returning
    fxq := k.fxq.filter (· ≠ n) }

/-- A group with one more of its tasks ended (spec/21_launch_and_scheduling.md R437). -/
def Group.ended (g : Group) (removed : Bool) (die : Nat) : Group :=
  if removed then { g with removed := g.removed + 1, lastDie := die } else { g with exited := g.exited + 1, lastDie := die }

/-- The copies of a list after the thread of seat `n` has ended: those that run go on without it
(spec/10_fabric_region_sync_system_instructions.md R275), each with a number of its own. -/
def orphanCopies (n : Nat) (cs : List Copy) : List Copy :=
  cs.foldl (fun (a : List Copy) (c : Copy) =>
    if c.seat ≠ n then a ++ [c]
    else if c.status.isSome then a
    else
      let h := (cs ++ a).foldl (fun m (x : Copy) => if x.seat = 2 ^ 32 then Nat.max m (x.handle + 1) else m) 0
      a ++ [{ c with seat := 2 ^ 32, handle := h }]) []

/-- The thread of seat `n` ends (spec/10_fabric_region_sync_system_instructions.md R275,
spec/22_translation_faults_preemption.md R462): the seat and its octets are free and its group counts it. A removed
thread counts as removed, whatever its exit routine did. -/
def State.endThread (s : State) (n : Nat) : State :=
  let t := s.seat n
  let s := s.setCore (coreOf n) ((s.core (coreOf n)).forget n)
  let gs : List Group := match t.grp with
    | none => s.groups
    | some (q, k) => s.groups.map (fun (g : Group) =>
        if g.queue = q ∧ g.seq = k then g.ended t.removed (dieOf (coreOf n)) else g)
  let s : State := { s with
    groups := gs, remotes := s.remotes.filter (fun (r : RemoteOp) => r.seat ≠ n), copies := orphanCopies n s.copies }
  s.setSeat n Thread.free

/-- The line of physical address `pa` becomes poisoned (spec/13_memory_hierarchy.md R334). A tag without an owner is that of a VSP
line that is not poisoned, so the line takes one. -/
def State.poisonLine (s : State) (pa : Nat) : State :=
  let tag := Map.get LineTag.reset s.lines (pa / 128)
  { s with lines := Map.put LineTag.reset s.lines (pa / 128) ⟨some (tag.owner.getD 0), true⟩ }

/-- R41: the four conditions of a delivery to the user handler. A trap of cause 0x0C is raised only for a flag enabled
in FTEN, which is the second of them. -/
def Thread.toUser (t : Thread) (x : Trap) : Bool := decide (x.cause = 0x0C) && !t.uact && !t.priv

/-- R41: entry to the user handler. An instruction that waited in the vector queue has not completed and leaves it. -/
def Thread.enterUser (t : Thread) (x : Trap) : Thread :=
  let t := t.set .uepc (t.pc.setWidth 64)
  let t := t.set .ucause (0x0C ||| (x.flags.setWidth 64 <<< 8) ||| (BitVec.ofNat 64 (x.elem % 2 ^ 32) <<< 32))
  let t := t.set .uvtype (t.get .vtype)
  let t := t.set .vtype 0
  let t := t.set .status (t.get .status ||| 4)
  { t with
    pc := (t.get .uvec).extractLsb' 0 57, run := .running, vq := t.vq.filter (fun e => !e.held), finishing := none, ahead := none }

/-- R42: entry to the supervisor handler. An instruction that waited in the vector queue has not completed and leaves it. -/
def Thread.enterSuper (t : Thread) (x : Trap) : Thread :=
  let t := t.set .epc (t.pc.setWidth 64)
  let t := t.set .ecause (x.cause.setWidth 64 ||| (x.sub.setWidth 64 <<< 8))
  let t := t.set .eval x.eval
  let t := t.set .eelem (BitVec.ofNat 64 (x.elem % 2 ^ 32))
  let t := t.set .evtype (t.get .vtype)
  let t := t.set .vtype 0
  let t := t.set .status ((t.get .status &&& 4) ||| (if t.priv then 3 else 1))
  { t with
    pc := (t.get .evec).extractLsb' 0 57, run := .running, vq := t.vq.filter (fun e => !e.held), finishing := none, ahead := none
    trapKind := x.kind }

/-- Taking an exception on the focused seat (R41, R42); PSNC counts a *poison consumed* (R493). In an exit routine no trap goes to
a user handler: the firmware ends the thread (spec/22_translation_faults_preemption.md R463). -/
def State.takeTrap (s : State) (x : Trap) : State :=
  let s := match x.poisons with
    | none => s
    | some pa => s.poisonLine pa
  let s := if x.cause = 0x0D then s.count (0x1400 + 8 * dieOf (coreOf s.cur)) 1 else s
  if s.th.toUser x && !s.th.exitRoutine then s.withTh (s.th.enterUser x)
  else s.withTh (s.th.enterSuper x)

/-- What a step answers. -/
abbrev Out := Host.Outcome State Fault Refusal

/-- The outcome of an instruction: its next state, or the state after the trap is taken. -/
def Res.out : Res → Out
  | .ok s => .next s
  | .trap s x => .next (s.takeTrap x)

/-- R43: return from the supervisor handler. VTYPE takes bits 24..0 of EVTYPE, unchecked. -/
def Thread.eretSuper (t : Thread) : Thread :=
  let t' := t.set .vtype (t.get .evtype &&& 0x1FFFFFF)
  let t' := t'.set .status ((t.get .status &&& 6) ||| ((t.get .status >>> 1) &&& 1))
  { t'.set .retired (t.get .retired + 1) with pc := (t.get .epc).extractLsb' 0 57 }

/-- R43: return from the user handler. -/
def Thread.eretUser (t : Thread) : Thread :=
  let t' := t.set .vtype (t.get .uvtype &&& 0x1FFFFFF)
  let t' := t'.set .status (t.get .status &&& 3)
  { t'.set .retired (t.get .retired + 1) with pc := (t.get .uepc).extractLsb' 0 57 }

/-! ## Control registers -/

/-- Where a control register number leads: a private register, the core's VSPCFG or the device's CYCLE (R34 to R37). -/
inductive CsrRef
  | own (c : Csr)
  | vspcfg
  | cycle
  deriving DecidableEq, Repr

/-- The control register maps (R34, R35); `none` for a number that is not assigned. -/
def csrRef : Nat → Option CsrRef
  | 0x000 => some (.own .vl) | 0x001 => some (.own .vtype) | 0x002 => some (.own .vshape)
  | 0x003 => some (.own .vstart) | 0x004 => some (.own .vstop) | 0x005 => some (.own .vxrm)
  | 0x006 => some (.own .vxsat) | 0x007 => some (.own .frm) | 0x008 => some (.own .fflags)
  | 0x009 => some (.own .grant) | 0x00A => some (.own .gceil) | 0x00B => some (.own .vstat)
  | 0x00C => some (.own .uvec) | 0x00D => some (.own .uepc) | 0x00E => some (.own .ucause)
  | 0x00F => some (.own .uvtype) | 0x010 => some (.own .fstat) | 0x011 => some (.own .fsx0)
  | 0x012 => some (.own .fsx1) | 0x013 => some (.own .fsx2) | 0x014 => some (.own .fsx3)
  | 0x015 => some (.own .fout) | 0x016 => some (.own .ften) | 0x020 => some (.own .ltwto)
  | 0x030 => some .cycle | 0x031 => some (.own .retired) | 0x040 => some (.own .seatid)
  | 0x041 => some (.own .coreid) | 0x042 => some (.own .taskid) | 0x043 => some (.own .taskcnt)
  | 0x044 => some (.own .argptr) | 0x100 => some (.own .epc) | 0x101 => some (.own .ecause)
  | 0x102 => some (.own .eval) | 0x103 => some (.own .eelem) | 0x104 => some (.own .evec)
  | 0x105 => some (.own .status) | 0x106 => some (.own .asid) | 0x107 => some (.own .owner)
  | 0x108 => some (.own .ptbase) | 0x109 => some (.own .lrtbase) | 0x10A => some (.own .exitpc)
  | 0x10B => some (.own .slottab) | 0x10C => some .vspcfg | 0x10D => some (.own .hscratch)
  | 0x10E => some (.own .evtype) | _ => none

/-- Registers marked "whole ro" at a level (R34). -/
def CsrRef.readOnly (r : CsrRef) (priv : Bool) : Bool :=
  match r with
  | .cycle => true
  | .own .grant | .own .retired | .own .seatid | .own .coreid | .own .taskid | .own .taskcnt => true
  | .own .vl | .own .gceil | .own .argptr => !priv
  | _ => false

/-- The listed bits of a register; every other bit is rs (R34, R35). -/
def Csr.mask : Csr → Word
  | .vl | .vstart | .ltwto | .argptr | .eval | .hscratch | .evtype | .uvtype => BitVec.allOnes 64
  | .fsx0 | .fsx1 | .fsx2 | .fsx3 => BitVec.allOnes 64
  | .vtype => 0x1FFFFFF
  | .vshape | .vxrm => 0x3
  | .vstop | .fout | .eelem => 0xFFFFFFFF
  | .vxsat | .vstat | .status | .frm => 0x7
  | .fflags | .ften => 0x1F
  | .gceil => 0xF
  | .uvec | .uepc | .epc | .evec | .exitpc => 0x01FFFFFFFFFFFFFC
  | .ucause => 0xFFFFFFFF00FF1FFF
  | .fstat => 0xFFFFFFFFFFFF0003
  | .ecause => 0xFFFF
  | .asid => 0xFFFF
  | .owner => 0x3FF
  | .ptbase | .lrtbase => 0x000FFFFFFFFFF000
  | .slottab => 0x000FFFFFFFFFFE00
  | .grant => 0xFF0F
  | .retired | .taskid | .taskcnt => BitVec.allOnes 64
  | .seatid => 0x7
  | .coreid => 0xFF

/-- R32 order 4, but for R29: no rs bit and no reserved value. -/
def Csr.legal (c : Csr) (v : Word) : Bool :=
  decide (v &&& ~~~ c.mask = 0) &&
  (match c with
   | .frm => decide (v.toNat ≤ 4)
   | .gceil => decide (v.toNat ≤ 8)
   | _ => true)

/-- The value `xrd` reads. CYCLE is one count for the device, so that two cores never differ (log 7). -/
def State.readCsr (s : State) (r : CsrRef) : Word :=
  match r with
  | .own c => s.th.get c
  | .vspcfg => (s.core (coreOf s.cur)).vspcfg.setWidth 64
  | .cycle => BitVec.ofNat 64 s.cycle

/-- R32 orders 1 and 2. -/
def csrLookup (t : Thread) (n : BitVec 12) : Except Trap CsrRef :=
  if 0x100 ≤ n.toNat ∧ n.toNat ≤ 0x1FF ∧ !t.priv then .error { cause := 0x02 }
  else
    match csrRef n.toNat with
    | none => .error (.illegal 0x06)
    | some r => .ok r

/-- R32 orders 3 and 4. -/
def csrWritable (t : Thread) (r : CsrRef) (v : Word) : Except Trap Unit :=
  if r.readOnly t.priv then .error (.illegal 0x06)
  else
    match r with
    | .own .vtype => if vtypeLegal v then .ok () else .error (.illegal 0x07)
    | .own c => if c.legal v then .ok () else .error (.illegal 0x06)
    | .vspcfg => if v.toNat ≤ 2 then .ok () else .error (.illegal 0x06)
    | .cycle => .ok ()

/-- The thread with VL at most VLMAX (R30, R170). -/
def Thread.capVl (t : Thread) : Thread := t.set .vl (BitVec.ofNat 64 (Nat.min (t.get .vl).toNat t.vlmax))

/-- The effect of a write to VSHAPE (R26): VL and VSTART 0, every vector register invalid. -/
def Thread.setShape (t : Thread) (v : Word) : Thread := (((t.set .vshape v).set .vl 0).set .vstart 0).invalidate

/-- A checked write to a private control register, with its effects (R26, R30, R34;
spec/12_execution_model.md R318). -/
def State.writeOwn (s : State) (c : Csr) (v : Word) : State :=
  match c with
  | .vl => s.setCsr .vl (BitVec.ofNat 64 (Nat.min v.toNat s.th.vlmax))
  | .vtype => s.withTh (s.th.set .vtype v).capVl
  | .vshape => s.withTh (s.th.setShape v)
  | .gceil => s.withTh { s.th.set .gceil v with ceilHeld := true, lowered := false }
  | c => s.setCsr c v

/-- `xrd` (R32, R277). -/
def csrRead (d : SReg) (n : BitVec 12) (s : State) : Res :=
  match csrLookup s.th n with
  | .error t => .trap s t
  | .ok r => .ok ((s.setX d (s.readCsr r)).adv 1)

/-- `xwr`, `xset` and `xclr` (R32, R277): the value written is a function of the old value. A write to VSPCFG waits
until it takes effect (spec/13_memory_hierarchy.md R330). -/
def csrWrite (d : SReg) (n : BitVec 12) (f : Word → Word) (s : State) : Res :=
  match csrLookup s.th n with
  | .error t => .trap s t
  | .ok r =>
    match csrWritable s.th r (f (s.readCsr r)) with
    | .error t => .trap s t
    | .ok () =>
      match r with
      | .vspcfg =>
        let k := s.core (coreOf s.cur)
        .ok (((s.setCore (coreOf s.cur) { k with
          vspPending := some (s.cur, (f (s.readCsr r)).extractLsb' 0 2) }).setX d (s.readCsr r)).waitOn .vspcfg)
      | .own c => .ok (((s.writeOwn c (f (s.readCsr r))).setX d (s.readCsr r)).adv 1)
      | .cycle => .ok s

end Sys2Proof.Machine
end

