-- ==== Sys2Proof/Machine/Memory.lean ====
section
/-! DEFINITION. Memory: the physical map and the scratchpad (spec/13_memory_hierarchy.md R326 to R330), owners and poison
(R334, R340, R341), translation (spec/22_translation_faults_preemption.md R440 to R445), lattice cells
(spec/16_lattice_regions.md R379 to R390), the checks of an access (spec/05_scalar_instructions.md R144) and the seat's
pending stores (spec/14_memory_ordering.md R345, R347). -/

namespace Sys2Proof.Machine

/-! ## Bytes -/

/-- The number little-endian bytes hold (spec/00_scope.md R9). -/
def leNat : List Byte → Nat
  | [] => 0
  | b :: bs => b.toNat + 256 * leNat bs

/-- The low `n` bytes of a number, least significant first. -/
def natLe : Nat → Nat → List Byte
  | 0, _ => []
  | n + 1, v => BitVec.ofNat 8 v :: natLe n (v / 256)

/-! ## The physical map -/

/-- The bytes of one die's HBM window (R326). -/
def hbmWindow : Nat := 2 ^ 37
/-- The backed bytes of a window (R326). -/
def hbmBacked : Nat := 128000000000
/-- Base of the VSP windows (R326). -/
def vspBase : Nat := 0xE000000000000
/-- Bytes of a core's VSP window (R326). -/
def vspSpan : Nat := 0x2000000
/-- Base of device control space (R326). -/
def ctlBase : Nat := 0xF000000000000

/-- What a physical address reaches (R326). -/
inductive PaKind | hbm | vsp | ctl | unbacked
  deriving DecidableEq, Repr

/-- R326. -/
def paKind (pa : Nat) : PaKind :=
  if pa < 6 * hbmWindow then (if pa % hbmWindow < hbmBacked then .hbm else .unbacked)
  else if vspBase ≤ pa ∧ pa < vspBase + 192 * vspSpan then .vsp
  else if ctlBase ≤ pa ∧ pa < 2 ^ 52 then .ctl
  else .unbacked

/-- The VSP granule of a VSPCFG value (spec/01_state.md R35). -/
def granule (cfg : BitVec 2) : Nat := if cfg = 0 then 64 else if cfg = 1 then 256 else 4096

/-- The bank and storage byte of a VSP offset (R328). -/
def vspBank (g o : Nat) : Nat × Nat := (o / g % 64, o / (64 * g) * g + o % g)

/-- Where a byte is stored: an HBM byte by its physical address, a VSP byte by its core, bank and storage byte (R328). -/
def State.memKey (s : State) (pa : Nat) : Nat :=
  if paKind pa = .vsp then
    let c := (pa - vspBase) / vspSpan
    let b := vspBank (granule (s.core c).vspcfg) ((pa - vspBase) % vspSpan)
    vspBase + c * vspSpan + b.1 * 2 ^ 19 + b.2
  else pa

/-- The core whose slice or bank is the coherence point of an address (R329, R332). -/
def homeCore (pa : Nat) : Nat :=
  if paKind pa = .vsp then (pa - vspBase) / vspSpan
  else
    let a := pa % hbmWindow
    32 * (pa / hbmWindow) +
      (Nat.xor (a / 2 ^ 7) (Nat.xor (a / 2 ^ 12) (Nat.xor (a / 2 ^ 17) (Nat.xor (a / 2 ^ 22)
        (Nat.xor (a / 2 ^ 27) (a / 2 ^ 32)))))) % 32

/-- The coherence point lies on a dead core or die (spec/23_host_and_links.md R480). -/
def State.pointDead (s : State) (pa : Nat) : Bool :=
  s.fleet.deadCores.contains (homeCore pa) || s.fleet.deadDies.contains (dieOf (homeCore pa))

/-! ## Owners and poison -/

/-- What a reader under an owner finds in a line or block (R334, R340, R341). -/
inductive View | data | zeros | poison
  deriving DecidableEq, Repr

/-- The home slice of an HBM line holds it (R332). -/
def State.inSlice (s : State) (line : Nat) : Bool := s.slice.any (fun (e : Nat × Bool) => decide (e.1 = line))

/-- R334, R340, R341. A line last written under another owner shows zeros where its slice holds it, else poison. -/
def State.view (s : State) (owner pa : Nat) : View :=
  let tag := Map.get LineTag.reset s.lines (pa / 128)
  if paKind pa = .vsp then
    if tag.owner.isSome && tag.poison then .poison
    else if Map.get none s.vspTags (s.memKey pa / 4096) = some owner then .data else .zeros
  else if tag.poison then .poison
  else if tag.owner = some owner then .data
  else if s.inSlice (pa / 128) then .zeros else .poison

/-- A stored byte, whoever wrote it. -/
def State.rawByte (s : State) (pa : Nat) : Byte := Map.get 0 s.mem (s.memKey pa)

/-- A byte of a table as the device reads it for itself, whoever wrote it (R440, R381). What it finds in a line that no key decodes or
that is poisoned is open (R334, R341; spec/24_startup.md R484; log 15): in one so marked, or one in which the read from HBM, which this step
makes, finds an uncorrectable error. -/
def State.tableByte (s : State) (pa : Nat) : Byte :=
  if decide (paKind pa = .hbm) && ((Map.get LineTag.reset s.lines (pa / 128)).poison ||
      (!s.inSlice (pa / 128) && decide (Config.eccOutcome (s.pick (pa / 128)) % 4 = 2)))
  then (Config.freeWord (s.pick pa)).setWidth 8 else s.rawByte pa

/-- `n` bytes of a table as a number (log 15). -/
def State.rawNat (s : State) (pa n : Nat) : Nat := leNat ((List.range n).map (fun i => s.tableByte (pa + i)))

/-- A byte as a reader under an owner sees it. -/
def State.byteAs (s : State) (owner pa : Nat) : Byte :=
  if s.view owner pa = .zeros then 0 else s.rawByte pa

/-- Stores bytes at consecutive physical addresses. -/
def State.putBytes : State → Nat → List Byte → State
  | s, _, [] => s
  | s, pa, b :: bs => State.putBytes { s with mem := Map.put 0 s.mem (s.memKey pa) b } (pa + 1) bs

/-- Bytes [k, k + n) of the store hold what an unlisted byte reads as. -/
def State.clearKeys (s : State) (k n : Nat) : State :=
  { s with mem := Map.filter (fun a _ => decide (a < k ∨ k + n ≤ a)) s.mem }

/-- The stack of a physical HBM address (R326). -/
def stackOf (pa : Nat) : Nat := 2 * (pa / hbmWindow) + pa / 256 % 2

/-- A line is read from HBM (R334, R343; spec/24_startup.md R483; spec/25_fleet_operation.md R493, R496): HBMRD counts its bytes; the row it
lies in is then open, which bank and row that is the manual does not say (log 6); and what its ECC finds is free. An uncorrectable error
poisons the line; the sixteenth of a stack, or its 64th spare row, sets REPL.HBM (log 53). -/
def State.hbmRead (s : State) (line : Nat) : State :=
  let k := stackOf (128 * line)
  let bank := k * 2 ^ 16 + Config.freeNat (s.pick line) % 2 ^ 16
  let s : State := { s.count (0x1100 + 16 * k) 128 with
    openRows := Map.put 0 s.openRows bank (Config.freeNat (s.pick (line + 2 ^ 50)) + 1) }
  let corrected (s : State) : State := s.count (0x1300 + 8 * k) 1
  match Config.eccOutcome (s.pick line) % 4 with
  | 0 => s
  | 1 => corrected s
  | 2 =>
    let n := Map.get 0 s.fleet.eccTotal k + 1
    let s := (s.poisonLine (128 * line)).count (0x1380 + 8 * k) 1
    let s : State := { s with fleet := { s.fleet with eccTotal := Map.put 0 s.fleet.eccTotal k n } }
    if n = 16 then s.indicate 0 k else s
  | _ =>
    let n := Nat.min 64 (Map.get 0 s.fleet.spares k + 1)
    let s : State := { corrected s with fleet := { (corrected s).fleet with spares := Map.put 0 s.fleet.spares k n } }
    if n = 64 then s.indicate 0 k else s

/-- A line leaves its slice, and with it every L1 (R332); a dirty one is written back, and HBMWR counts its bytes
(spec/25_fleet_operation.md R493). -/
def State.evictLine (s : State) (line : Nat) : State :=
  let dirty := s.slice.any (fun (e : Nat × Bool) => decide (e.1 = line) && e.2)
  let s : State := { s with
    slice := s.slice.filter (fun (e : Nat × Bool) => e.1 ≠ line)
    l1 := s.l1.filter (fun (e : Nat × Nat × Bool) => e.1 ≠ line) }
  if dirty then s.count (0x1108 + 16 * stackOf (128 * line)) 128 else s

/-- A line enters its home slice, of 4 MiB in 2,048 sets of 16 lines (R332). A full set gives up one of its lines; before that the slice
may give up any of its own, since the manual does not say how lines are placed or replaced (log 10). -/
def State.fillSlice (s : State) (line : Nat) (dirty : Bool) : State :=
  if s.inSlice line then
    { s with slice := s.slice.map (fun (e : Nat × Bool) => if e.1 = line then (e.1, e.2 || dirty) else e) }
  else
    let home := (s.slice.filter (fun (e : Nat × Bool) => decide (homeCore (128 * e.1) = homeCore (128 * line)))).map Prod.fst
    let set := home.filter (fun l => decide (l % 2048 = line % 2048))
    let k := Config.sliceVictim (s.pick line)
    let s := match (if 16 ≤ set.length then set[k % set.length]? else home[k]?) with
      | some v => s.evictLine v
      | none => s
    { s with slice := s.slice ++ [(line, dirty)] }

/-- A line is read from HBM under an owner: one last written under another fails its ECC and is poisoned (R341). -/
def State.readLineAs (s : State) (owner line : Nat) : State :=
  let s := s.hbmRead line
  let tag := Map.get LineTag.reset s.lines line
  if tag.owner = some owner ∨ tag.poison then s else s.poisonLine (128 * line)

/-- The coherence point of an HBM line comes to hold it for an access under an owner: a line absent from its slice is read from HBM
(R343). -/
def State.fetchLine (s : State) (owner line : Nat) : State :=
  if paKind (128 * line) ≠ .hbm ∨ s.inSlice line then s else (s.readLineAs owner line).fillSlice line false

/-- The VSP block of `pa` carries the writer's tag: a block of another owner is zeroed first (R340). -/
def State.claimBlock (s : State) (owner pa : Nat) : State :=
  let b := s.memKey pa / 4096
  if Map.get none s.vspTags b = some owner then s
  else { s.clearKeys (b * 4096) 4096 with vspTags := Map.put none s.vspTags b (some owner) }

/-- Readies the line or block of `pa` for a write of `n` bytes under an owner (R334, R340, R341): a whole line takes the
writer's tag and loses its poison; a partial write to another owner's line finds it in its slice and zeroes it, or poisons it;
a poisoned line stays poisoned. -/
def State.claim (s : State) (owner pa n : Nat) : State :=
  if paKind pa = .vsp then
    if n = 128 then
      ({ s with lines := Map.put LineTag.reset s.lines (pa / 128) LineTag.reset }.claimBlock owner pa).claimBlock owner
        (pa + 64)
    else s.claimBlock owner pa
  else
    let tag := Map.get LineTag.reset s.lines (pa / 128)
    if n = 128 then { s with lines := Map.put LineTag.reset s.lines (pa / 128) ⟨some owner, false⟩ }
    else if tag.poison then { s with lines := Map.put LineTag.reset s.lines (pa / 128) ⟨some owner, true⟩ }
    else if tag.owner = some owner then s
    else if s.inSlice (pa / 128) then
      { s.clearKeys (pa / 128 * 128) 128 with lines := Map.put LineTag.reset s.lines (pa / 128) ⟨some owner, false⟩ }
    else { s with lines := Map.put LineTag.reset s.lines (pa / 128) ⟨some owner, true⟩ }

/-- A scalar access of core `c` leaves a copy of a line in the core's data L1 (R331): 64 KiB in 64 sets of 8 lines, a line lying in the
set of its number modulo 64. A line that finds its set full takes the place of the one that came first (log 10 for both), whose dirty
bytes are written back to its slice. -/
def State.fillL1 (s : State) (c line : Nat) (dirty : Bool) : State :=
  let rest := s.l1.filter (fun (e : Nat × Nat × Bool) => !decide (e.1 = line ∧ e.2.1 = c))
  let set := rest.filter (fun (e : Nat × Nat × Bool) => decide (e.2.1 = c ∧ e.1 % 64 = line % 64))
  { s with l1 := (if 8 ≤ set.length then rest.erase (set.headD (0, 0, false)) else rest) ++ [(line, c, dirty)] }

/-- A load that bypasses L1 recalls the dirty copies of its lines (R333). -/
def State.recallL1 (s : State) (lines : List Nat) : State :=
  { s with l1 := s.l1.map (fun (e : Nat × Nat × Bool) => if lines.contains e.1 then (e.1, e.2.1, false) else e) }

/-- The L1 copies of a line leave every L1 (R333), and one on its way to an L1 is not kept. -/
def State.dropL1 (s : State) (line : Nat) : State :=
  { s with l1 := s.l1.filter (fun e => e.1 ≠ line), loads := s.loads.filter (fun e => e.2 ≠ line) }

/-- The coherence point of a line serves loads under an owner that bypass the L1s: dirty copies are recalled, and a line absent from its
slice is fetched (R332, R333). -/
def State.serveLines (s : State) (owner : Nat) (lines : List Nat) : State :=
  lines.foldl (fun s l => s.fetchLine owner l) (s.recallL1 lines)

/-- The coherence point of a table's line in HBM serves a read that the device makes for itself, under the owner that wrote the line
(R440; log 15). -/
def State.serveTable (s : State) (pa : Nat) : State :=
  if paKind pa = .hbm then s.serveLines ((Map.get LineTag.reset s.lines (pa / 128)).owner.getD 0) [pa / 128] else s

/-- The line of a write of `n` bytes is in its slice and dirty: one absent from it is first fetched, unless all of it is written
(R343). -/
def State.slotLine (s : State) (owner pa n : Nat) : State :=
  if paKind pa ≠ .hbm then s
  else (if n = 128 then s else s.fetchLine owner (pa / 128)).fillSlice (pa / 128) true

/-- A write of bytes within one line takes effect at its coherence point (R345). -/
def State.writePhys (s : State) (owner pa : Nat) (bs : List Byte) : State :=
  (((s.slotLine owner pa bs.length).claim owner pa bs.length).putBytes pa bs).dropL1 (pa / 128)

/-- A line all of whose bytes one instruction has written is clean and its writer's (R334). -/
def State.cleanLine (s : State) (owner line : Nat) : State :=
  let tag : LineTag := if paKind (line * 128) = .vsp then LineTag.reset else ⟨some owner, false⟩
  { s with lines := Map.put LineTag.reset s.lines line tag }

/-- The bytes an instruction has written, as a bit mask per line, beside those of `m`. -/
def coverFrom (m : List (Nat × Nat)) : List (Nat × List Byte) → List (Nat × Nat)
  | [] => m
  | (pa, bs) :: us =>
    let m := coverFrom m us
    Map.put 0 m (pa / 128) (Nat.lor (Map.get 0 m (pa / 128)) ((2 ^ bs.length - 1) * 2 ^ (pa % 128)))

/-- The lines of which every byte has been written. -/
def wholeLines (m : List (Nat × Nat)) : List Nat := (m.filter (fun e => decide (e.2 = 2 ^ 128 - 1))).map Prod.fst

/-- The lines that writes cover whole. -/
def coverage (us : List (Nat × List Byte)) : List Nat := wholeLines (coverFrom [] us)

/-- The units of one store instruction, in ascending index order, so that the highest index wins a byte
(spec/08_memory_instructions.md R220); lines it writes whole are not read first (R343) and are clean (R334). -/
def State.writeUnits (s : State) (owner : Nat) (us : List (Nat × List Byte)) : State :=
  let s := (coverage us).foldl (fun s l => s.slotLine owner (128 * l) 128) s
  let s := us.foldl (fun s u => s.writePhys owner u.1 u.2) s
  (coverage us).foldl (fun s l => s.cleanLine owner l) s

/-- Bytes cut into pieces that stay within 64-byte blocks. -/
def pieces64 : Nat → Nat → List Byte → List (Nat × List Byte)
  | 0, _, _ => []
  | _ + 1, _, [] => []
  | n + 1, pa, b :: bs =>
    let k := 64 - pa % 64
    (pa, (b :: bs).take k) :: pieces64 n (pa + k) ((b :: bs).drop k)

/-- One write of any length and alignment; lines it covers whole are clean (R334). -/
def State.writeSpan (s : State) (owner pa : Nat) (bs : List Byte) : State :=
  s.writeUnits owner (pieces64 (bs.length + 1) pa bs)

/-! ## Lattice regions -/

/-- A lattice region as one die reads its descriptor (spec/16_lattice_regions.md R381, R382). -/
structure Region where
  typ : Nat
  width : Nat
  domain : Bool
  home : Nat
  pages : Nat
  period : Nat
  vbase : Nat
  rb : Nat
  lrt : Nat
  idx : Nat
  deriving DecidableEq, Repr

/-- R379: the cell widths legal for a type, by log2 of the width. -/
def wlogLegal (typ wlog : Nat) : Bool :=
  match typ with
  | 1 | 2 | 3 | 4 => decide (wlog = 2 ∨ wlog = 3)
  | 5 => decide (2 ≤ wlog ∧ wlog ≤ 6)
  | 6 => decide (wlog = 3)
  | _ => false

/-- Bits lo+n-1..lo of a number. -/
def bitsOf (v lo n : Nat) : Nat := v / 2 ^ lo % 2 ^ n

/-- The descriptor at `p` as the access `sub` of this step uses it: what memory holds, or, where the device has cached what
stood there before, either of the two (R384; log 16). -/
def State.descBytes (s : State) (p sub : Nat) : List Byte :=
  let now := (List.range 64).map (fun i => s.tableByte (p + i))
  match s.descs.find? (fun e => decide (e.1 = p)) with
  | none => now
  | some e => if Config.oldDescriptor (s.pick sub) then e.2 else now

/-- The descriptor of a region as the access `sub` uses it on die `d`; `none` where R383 gives sub-cause 0x01. -/
def State.descriptorFor (s : State) (sub lrt idx d : Nat) : Option Region :=
  let p := lrt + 64 * idx
  if paKind p ≠ .hbm ∨ paKind (p + 63) ≠ .hbm then none
  else
    let b := s.descBytes p sub
    let ctl := leNat (b.take 8)
    let vb := leNat ((b.drop 8).take 8)
    let rbs := (List.range 6).map (fun i => leNat ((b.drop (16 + 8 * i)).take 8))
    let typ := bitsOf ctl 0 4
    let wlog := bitsOf ctl 4 3
    let home := bitsOf ctl 9 3
    let pcnt := bitsOf ctl 20 12
    let dom := decide (bitsOf ctl 8 1 = 1)
    let die := if dom then home else d
    let rb := rbs.getD die 0
    if bitsOf ctl 63 1 = 1 ∧ bitsOf ctl 50 13 = 0 ∧ bitsOf ctl 12 8 = 0 ∧ bitsOf ctl 7 1 = 0 ∧ 1 ≤ pcnt ∧ pcnt ≤ 2000 ∧
        home ≤ 5 ∧ wlogLegal typ wlog ∧ bitsOf vb 0 12 = 0 ∧ bitsOf vb 57 7 = 0 ∧
        (rbs.all (fun r => bitsOf r 0 12 = 0 && bitsOf r 52 12 = 0)) ∧ rb / hbmWindow = die then
      some ⟨typ, 2 ^ wlog, dom, home, bitsOf ctl 32 18 + 1, pcnt, vb, rb, lrt, idx⟩
    else none

/-- The descriptor of a region as the Settle uses it on die `d`. -/
def State.descriptor (s : State) (lrt idx d : Nat) : Option Region := s.descriptorFor (2 ^ 57 + d) lrt idx d

/-- The width in bits of the part of a cell that one access joins: the cell, or 64 bits of a wider BOR cell. -/
def Region.bits (r : Region) : Nat := 8 * Nat.min r.width 8

/-- A number of `w` bits read as signed. -/
def toS (w v : Nat) : Int := if v % 2 ^ w < 2 ^ (w - 1) then (v % 2 ^ w : Nat) else ((v % 2 ^ w : Nat) : Int) - (2 ^ w : Nat)

/-- The low `w` bits of an integer. -/
def ofS (w : Nat) (v : Int) : Nat := (v % (2 ^ w : Nat)).toNat

/-- R380: a NaN encoding becomes the canonical NaN of its sign. -/
def canonF (w v : Nat) : Nat :=
  let (e, f) := if w = 32 then (8, 23) else (11, 52)
  if bitsOf v f e = 2 ^ e - 1 ∧ bitsOf v 0 f ≠ 0 then bitsOf v (w - 1) 1 * 2 ^ (w - 1) + ((2 ^ e - 1) * 2 + 1) * 2 ^ (f - 1)
  else v

/-- R380: the order key of a MAXF cell. -/
def keyF (w v : Nat) : Nat :=
  if bitsOf v (w - 1) 1 = 1 then 2 ^ w - 1 - v % 2 ^ w else Nat.xor (v % 2 ^ w) (2 ^ (w - 1))

/-- a ⊑ b in a region's order, on `w`-bit values (R379). -/
def Region.le (r : Region) (a b : Nat) : Bool :=
  let w := r.bits
  match r.typ with
  | 1 | 6 => decide (a ≤ b)
  | 2 => decide (toS w a ≤ toS w b)
  | 3 => decide (b ≤ a)
  | 4 => decide (keyF w a ≤ keyF w b)
  | _ => decide (Nat.land a b = a)

/-- a ⊔ b (R379). -/
def Region.join (r : Region) (a b : Nat) : Nat :=
  if r.typ = 5 then Nat.lor a b else if r.le a b then b else a

/-- A value as a region stores it (R380). -/
def Region.canon (r : Region) (v : Nat) : Nat := if r.typ = 4 then canonF r.bits v else v

/-- The replica blocks a change marks (R390, R396): for every other die under device scope, for the ring's next device
(partner 6) under domain scope; `from?` is the partner the change came from. -/
def State.markBlock (s : State) (r : Region) (die : Nat) (from? : Option Nat) (pa : Nat) : State :=
  let die := if r.domain then r.home else die
  let partners := if r.domain then [6] else (List.range 6).filter (fun p => p ≠ die)
  let new := (partners.filter (fun p => some p ≠ from?)).map
    (fun p => (⟨die, p, r.lrt, r.idx, (pa - r.rb) / 64, s.cycle⟩ : Change))
  { s with changes := s.changes ++ new.filter (fun c => !s.changes.any (fun x => decide ({ x with since := c.since } = c))) }

/-- The part of the cell that an access at `pa` reaches, as an owner finds it; what a line shown as poison holds there is open
(R334, R341; log 6). -/
def State.cellAt (s : State) (owner : Nat) (r : Region) (pa : Nat) : Nat :=
  if s.view owner pa = .poison then (Config.freeWord (s.pick pa)).toNat % 2 ^ r.bits
  else leNat ((List.range (r.bits / 8)).map (fun i => s.byteAs owner (pa + i)))

/-- The join of a value into the cell part at `pa` of the local replica, one step (R386, R388). -/
def State.joinCell (s : State) (owner : Nat) (r : Region) (die : Nat) (pa v : Nat) : State :=
  let old := s.cellAt owner r pa
  let new := r.join old (r.canon v)
  let s := s.writePhys owner pa (natLe (r.bits / 8) new)
  if new = old then s else s.markBlock r die none pa

/-! ## Translation -/

/-- The kinds of access (R442, R444). -/
inductive Acc | load | store | atomic | fetch
  deriving DecidableEq, Repr

/-- The page fault of a kind (R442). -/
def Acc.pageFault : Acc → BitVec 8
  | .load => 0x04
  | .store | .atomic => 0x05
  | .fetch => 0x06

/-- KIND of a record of a trap that an access raised (R453). -/
def Acc.kind : Acc → Nat
  | .load => 0
  | .store | .atomic => 1
  | .fetch => 2

/-- A trap that an access of a kind raised. -/
def Trap.by (x : Trap) (k : Acc) : Trap := { x with kind := k.kind }

/-- Under whose registers an access is made. -/
structure Ctx where
  core : Nat
  tlb : Nat
  owner : Nat
  asid : Nat
  ptbase : Nat
  lrtbase : Nat
  priv : Bool
  deriving DecidableEq, Repr

/-- The registers a thread's accesses are made under (R35). -/
def Thread.ctx (t : Thread) (core : Nat) : Ctx :=
  ⟨core, core, t.owner, (t.get .asid).toNat, (t.get .ptbase).toNat, (t.get .lrtbase).toNat, t.priv⟩

/-- The focused thread's. -/
def State.ctx (s : State) : Ctx := s.th.ctx (coreOf s.cur)

/-- The TLB of a core's vector memory instructions, `tld`, the sorter and fabric memory nodes (R445). -/
def vecTlb (core : Nat) : Nat := 192 + core

/-- The TLB that the cores of a die share with its copy engine (R445). -/
def dieTlb (die : Nat) : Nat := 384 + die

/-- The focused thread's, for the accesses that go through its core's vector TLB. -/
def State.vctx (s : State) : Ctx := { s.ctx with tlb := vecTlb (coreOf s.cur) }

/-- How a walk fails (R442): V = 0, or a malformed entry. -/
inductive WalkErr | invalid | malformed
  deriving DecidableEq, Repr

/-- A translation: the page's base, log2 of its size, and the leaf's fields. -/
structure Xlat where
  base : Nat
  size : Nat
  leaf : Nat
  deriving DecidableEq, Repr

/-- log2 of the page size at a level (R440). -/
def pageLog (level : Nat) : Nat := if level = 0 then 12 else if level = 1 then 21 else 30

/-- The members of a group at a level (R443). -/
def groupSize (level : Nat) : Nat := if level = 0 then 16 else 4

/-- FRAME of an entry (R441). -/
def frameOf (e : Nat) : Nat := bitsOf e 12 40 * 4096

/-- R441, R442: a leaf at a level is well formed; `m` is its place in its group. -/
def leafOk (e level m : Nat) : Bool :=
  let grp := bitsOf e 9 2
  let lr := bitsOf e 7 1
  let size := 2 ^ pageLog level
  decide (bitsOf e 11 1 = 0) && decide (grp ≠ 3) && decide (grp = 1 → level = 0) && decide (grp = 2 → level = 2) &&
  decide (bitsOf e 3 1 = 1 → bitsOf e 2 1 = 1) && decide (bitsOf e 52 12 ≠ 0 → lr = 1) &&
  (if lr = 1 then decide (grp = 0)
   else if grp = 0 then decide (frameOf e % size = 0)
   else decide (m * size ≤ frameOf e) && decide ((frameOf e - m * size) % (size * groupSize level) = 0))

/-- The whole group of an entry as one translation by its first member's fields, where the device freely uses those (R443): the
first member is a valid, well-formed leaf with the group's GRP at the level (log 11). The addressed entry `epa`, of index `i`,
need not be one: it may be absent, malformed or of another GRP. -/
def State.groupXlat (s : State) (level i epa : Nat) : Option Xlat :=
  let e := s.rawNat (epa - 8 * (i % groupSize level)) 8
  if (level = 0 ∨ level = 2) ∧ bitsOf e 0 2 = 1 ∧ bitsOf e 9 2 = level / 2 + 1 ∧ leafOk e level 0 ∧ Config.groupFirst (s.pick epa)
  then some ⟨frameOf e, pageLog level + (groupSize level).log2, e⟩ else none

/-- The walk of R440 to R443 from a table, over the levels still to read. -/
def State.walkFrom (s : State) (va : Nat) : List Nat → Nat → Except WalkErr Xlat
  | [], _ => .error .malformed
  | level :: ls, table =>
    if paKind table ≠ .hbm then .error .malformed
    else
      let i := bitsOf va (12 + 9 * level) 9
      let epa := table + 8 * i
      let e := s.rawNat epa 8
      match s.groupXlat level i epa with
      | some x => .ok x
      | none =>
        if bitsOf e 0 1 = 0 then .error .invalid
        else if bitsOf e 1 1 = 1 then
          if level = 0 ∨ bitsOf e 2 10 ≠ 0 ∨ bitsOf e 52 12 ≠ 0 then .error .malformed
          else s.walkFrom va ls (frameOf e)
        else if 3 ≤ level then .error .malformed
        else if !leafOk e level (if bitsOf e 9 2 = 0 then 0 else i % groupSize level) then .error .malformed
        else .ok ⟨frameOf e, pageLog level, e⟩

/-- The entries that a walk reads, one for each level it comes to. -/
def State.pathFrom (s : State) (va : Nat) : List Nat → Nat → List Nat
  | [], _ => []
  | level :: ls, table =>
    let e := s.rawNat (table + 8 * bitsOf va (12 + 9 * level) 9) 8
    e :: (if bitsOf e 0 2 = 3 then s.pathFrom va ls (frameOf e) else [])

/-- A walk from PTBASE (R440). -/
def State.walk (s : State) (ptbase va : Nat) : Except WalkErr Xlat := s.walkFrom va [4, 3, 2, 1, 0] ptbase

/-- A cached translation serves an access that looks into a TLB (R445). -/
def TlbEntry.hit (e : TlbEntry) (tlb : Nat) (c : Ctx) (va : Nat) : Bool :=
  decide (e.tlb = tlb) && (decide (e.asid = c.asid) || e.leaf.getLsbD 6) && decide (va / 2 ^ e.size = e.vpn)

/-- What a TLB holds for an access. -/
def State.cached (s : State) (tlb : Nat) (c : Ctx) (va : Nat) : Option TlbEntry := s.tlb.find? (fun e => e.hit tlb c va)

/-- The translation an access uses: the one its own TLB holds, or its die's, or a walk's (R445, R446; log 16). -/
def State.lookup (s : State) (c : Ctx) (va : Nat) : Except WalkErr Xlat :=
  match (s.cached c.tlb c va).orElse (fun _ => s.cached (dieTlb (dieOf c.core)) c va) with
  | some e => .ok ⟨e.base, e.size, e.leaf.toNat⟩
  | none => s.walk c.ptbase va

/-- The reads of a walk, in turn, at the coherence points of their lines (R440, R446). -/
def State.walkServe (s : State) (va : Nat) : List Nat → Nat → State
  | [], _ => s
  | level :: ls, table =>
    if paKind table ≠ .hbm then s
    else
      let i := bitsOf va (12 + 9 * level) 9
      let epa := table + 8 * i
      let s := s.serveTable epa
      let e := s.rawNat epa 8
      match s.groupXlat level i epa with
      | some _ => s
      | none =>
        if level ≠ 0 ∧ bitsOf e 0 2 = 3 ∧ bitsOf e 2 10 = 0 ∧ bitsOf e 52 12 = 0 then s.walkServe va ls (frameOf e) else s

/-- The device reads what translating an address takes (R446; spec/16_lattice_regions.md R384): the entries of a walk, where no TLB holds the
translation, and the descriptor of a lattice page that it has not cached. -/
def State.walkAt (s : State) (c : Ctx) (va : Nat) : State :=
  let s := if ((s.cached c.tlb c va).orElse (fun _ => s.cached (dieTlb (dieOf c.core)) c va)).isSome then s
    else s.walkServe va [4, 3, 2, 1, 0] c.ptbase
  match s.lookup c va with
  | .error _ => s
  | .ok x =>
    let p := c.lrtbase + 64 * bitsOf x.leaf 52 12
    if bitsOf x.leaf 7 1 = 1 ∧ !s.descs.any (fun e => decide (e.1 = p)) then s.serveTable p else s

/-- The device reads what translating some addresses takes, once for each page; an address on another device is not translated here. -/
def State.walked (s : State) (c : Ctx) (vas : List Word) : State :=
  ((vas.filter (fun va => decide (va.toNat / 2 ^ 57 = 0))).map (fun va => va.toNat / 4096)).eraseDups.foldl
    (fun s p => s.walkAt c (4096 * p)) s

/-- The same for accesses of which only those aligned to `n` come to their translation (R144). -/
def State.reach (s : State) (c : Ctx) (n : Nat) (vas : List Word) : State :=
  s.walked c (vas.filter (fun va => decide (va.toNat % n = 0)))

/-- Where an access lands after checks 1 to 4 of R144: the physical address, the lattice region and PSN. -/
structure Loc where
  pa : Nat
  region : Option Region
  psn : Bool
  deriving DecidableEq, Repr

/-- Check 3: translation and the descriptor checks of R383. -/
def State.translate (s : State) (c : Ctx) (k : Acc) (va : Nat) : Except (BitVec 8 × BitVec 8) (Loc × Nat) :=
  match s.lookup c va with
  | .error .invalid => .error (k.pageFault, 0)
  | .error .malformed => .error (0x07, 0)
  | .ok x =>
    if bitsOf x.leaf 7 1 = 0 then .ok (⟨x.base + va % 2 ^ x.size, none, decide (bitsOf x.leaf 8 1 = 1)⟩, x.leaf)
    else
      match s.descriptorFor va c.lrtbase (bitsOf x.leaf 52 12) (dieOf c.core) with
      | none => .error (0x0B, 0x01)
      | some r =>
        if va < r.vbase ∨ r.pages * 4096 ≤ va - r.vbase then .error (0x0B, 0x02)
        else .ok (⟨r.rb + (va - r.vbase), some r, decide (bitsOf x.leaf 8 1 = 1)⟩, x.leaf)

/-- R444: the leaf allows the access. -/
def leafAllows (leaf : Nat) (k : Acc) (priv : Bool) : Bool :=
  let r := decide (bitsOf leaf 2 1 = 1)
  let w := decide (bitsOf leaf 3 1 = 1)
  (priv || decide (bitsOf leaf 5 1 = 1)) &&
  (match k with
   | .load => r
   | .store => w && r && decide (bitsOf leaf 8 1 = 0)
   | .atomic => w && r
   | .fetch => decide (bitsOf leaf 4 1 = 1) && decide (bitsOf leaf 7 1 = 0))

/-- Check 4: the leaf, the physical map of R326, dead coherence points (R480), and the owner's key
(0x14, R341, R478; log 17). `ctl` says that the access may reach device control space. -/
def State.permit (s : State) (c : Ctx) (k : Acc) (ctl : Bool) (l : Loc) (leaf : Nat) : Option (BitVec 8) :=
  if !leafAllows leaf k c.priv then some 0x07
  else if paKind l.pa = .unbacked ∨ (paKind l.pa = .ctl ∧ !ctl) then some 0x07
  else if paKind l.pa ≠ .ctl ∧ s.pointDead l.pa ∧ k = .store then some 0x07
  else if !s.keys.contains c.owner then some 0x14
  else none

/-- Checks 1 to 4 of R144 for a device-local access of unit `elem`; `al` is the alignment. -/
def State.access (s : State) (c : Ctx) (k : Acc) (ctl : Bool) (va : Word) (al elem : Nat) : Except Trap Loc :=
  if va.toNat % al ≠ 0 then .error { cause := 0x03, eval := va, elem := elem, kind := k.kind }
  else if va.toNat / 2 ^ 57 ≠ 0 then .error { cause := 0x07, eval := va, elem := elem, kind := k.kind }
  else
    match s.translate c k va.toNat with
    | .error e => .error { cause := e.1, sub := e.2, eval := va, elem := if e.1 = 0x0B then 0 else elem, kind := k.kind }
    | .ok (l, leaf) =>
      match s.permit c k ctl l leaf with
      | some cause => .error { cause := cause, eval := va, elem := elem, kind := k.kind }
      | none => .ok l

/-- The device of a remote address: F of R471, or `none` for the issuing device. -/
def State.remoteOf (s : State) (va : Word) : Option Nat :=
  let f := va.toNat / 2 ^ 57
  if f = 0 then none else some (Nat.xor f s.devnum)

/-- Check 2 of R144: the device is a member of the domain (R470, R471). -/
def State.member (s : State) (dev : Nat) : Bool := (Map.get 0 s.routes dev).getLsbD 63

/-! ## Loads -/

/-- The byte at `pa` as a load of the seat finds it: the youngest pending store of the seat to it, else memory (R145). -/
def forward (q : List PendingStore) (pa : Nat) (b : Byte) : Byte :=
  q.foldl (fun b p => if p.pa ≤ pa then p.bytes.getD (pa - p.pa) b else b) b

/-- Check 6: the line shows poison, the page is poisoned, or the coherence point is dead (R144, R444, R480). -/
def State.poisoned (s : State) (owner : Nat) (l : Loc) : Bool :=
  l.psn || s.pointDead l.pa || decide (s.view owner l.pa = .poison)

/-- The bytes a load of the seat reads at a checked place. -/
def State.readAt (s : State) (owner : Nat) (q : List PendingStore) (pa n : Nat) : List Byte :=
  (List.range n).map (fun i => forward q (pa + i) (s.byteAs owner (pa + i)))

/-- The line that a load at an address reaches, where it passes checks 1 to 4 and can be read (R144, R444, R480). -/
def State.lineAt (s : State) (c : Ctx) (va : Word) : Option Nat :=
  match s.access c .load false va 1 0 with
  | .ok l => if l.psn || s.pointDead l.pa then none else some (l.pa / 128)
  | .error _ => none

/-- The coherence points of the lines at some addresses, once translated, serve loads that bypass L1 (R333). -/
def State.serveAt (s : State) (c : Ctx) (vas : List Word) : State :=
  let s := s.walked c vas
  s.serveLines c.owner ((((vas.map (fun va => va.toNat / 128)).eraseDups).filterMap
    (fun l => s.lineAt c (BitVec.ofNat 64 (128 * l)))).eraseDups)

/-- A scalar load at a checked place goes through the data L1 of the focused seat's core (R331, R343): a line it does not hold is served
by its coherence point, and is on its way to L1. An acquire goes to the coherence point and allocates nothing. -/
def State.loadLine (s : State) (l : Loc) (acq : Bool) : State :=
  let c := coreOf s.cur
  let line := l.pa / 128
  if l.psn || s.pointDead l.pa || (!acq && s.l1.any (fun (e : Nat × Nat × Bool) => decide (e.1 = line ∧ e.2.1 = c))) then s
  else
    let s := s.serveLines s.th.owner [line]
    if acq ∨ s.loads.contains (c, line) then s else { s with loads := s.loads ++ [(c, line)] }

/-- A device-local load of `n` bytes, aligned to `n` (R143 to R146): the value as a number. -/
def State.loadUnit (s : State) (c : Ctx) (va : Word) (n elem : Nat) : Except Trap Nat :=
  match s.access c .load false va n elem with
  | .error t => .error t
  | .ok l =>
    if s.poisoned c.owner l then
      .error { cause := 0x0D, eval := va, elem := elem, poisons := if l.psn then none else some l.pa, kind := 0 }
    else .ok (leNat (s.readAt c.owner s.th.lsq l.pa n))

/-! ## Stores -/

/-- Check 5 for a store of `n` bytes in a lattice region, made when it is performed (R146, R225, R386). -/
def State.latticeStore (s : State) (c : Ctx) (r : Region) (pa n v : Nat) : Option (BitVec 8) :=
  if n ≠ r.width then some 0x01
  else if r.le (s.cellAt c.owner r pa) (r.canon v) then none
  else some 0x00

/-- The checks 1 to 5 of a store; the place it lands at. A store refused because its cell stands higher has read it: a line that shows
poison is poisoned (R341). -/
def State.storeCheck (s : State) (c : Ctx) (va : Word) (n v elem : Nat) : Except Trap Loc :=
  match s.access c .store false va n elem with
  | .error t => .error t
  | .ok l =>
    match l.region with
    | none => .ok l
    | some r =>
      match s.latticeStore c r l.pa n v with
      | none => .ok l
      | some sub =>
        .error { cause := 0x08, sub := sub, eval := va, elem := elem, kind := 1
                 poisons := if sub = 0x00 ∧ s.view c.owner l.pa = .poison then some l.pa else none }

/-- A store refused because its cell stands higher has read that cell at its coherence point (R386). -/
def State.refused (s : State) (c : Ctx) (x : Trap) : State :=
  if x.cause = 0x08 ∧ x.sub = 0x00 then s.serveAt c [x.eval] else s

/-- A checked store is performed: a write, or a join in a lattice region (R386). -/
def State.storePerform (s : State) (c : Ctx) (l : Loc) (n v : Nat) : State :=
  match l.region with
  | none => s.writePhys c.owner l.pa (natLe n v)
  | some r => s.joinCell c.owner r (dieOf c.core) l.pa v

/-- One pending store of core `c` is performed (R345). It leaves a dirty copy in the core's L1, unless it is a release (R331) or a
fabric node's (R333). -/
def State.performOne (s : State) (c : Nat) (p : PendingStore) : State :=
  let s := s.writePhys p.owner p.pa p.bytes
  if p.rel || p.node then s else s.fillL1 c (p.pa / 128) true

/-- The bytes of a piece of a tile load: those another device answered, or memory's (R239). -/
def State.pieceBytes (s : State) (owner : Nat) (p : TilePiece) : List Byte :=
  if p.dev.isSome then (List.range 64).map (fun i => p.got.getD i 0) else s.readAt owner [] p.pa 64

/-- The first of some pieces of a tile load that finds poison, in address order (R239). -/
def State.tilePoison (s : State) (owner : Nat) (ps : List TilePiece) : Option TilePiece :=
  (ps.filter (fun p => p.psn || (p.dev.isNone && s.poisoned owner ⟨p.pa, none, false⟩))).foldl (fun b p => match b with
    | none => some p
    | some q => if p.va.toNat < q.va.toNat then some p else some q) none

/-- A pending tile load reads its bytes (spec/09_matrix_lattice_format_instructions.md R239, R240): its data and its poison
are set; pending is cleared later, when the load completes. -/
def State.transfer (s : State) (t : Tile) : State × Tile :=
  match t.pending with
  | some (p :: ps) =>
    let owner := (t.owner.map (fun o => o.toNat)).getD 0
    let s := s.serveLines owner ((((p :: ps).filter (fun q => q.dev.isNone && !q.psn && !s.pointDead q.pa)).map
      (fun q => q.pa / 128)).eraseDups)
    let bs := (p :: ps).flatMap (s.pieceBytes owner)
    let u := { t with data := BitVec.ofNat 524288 (leNat bs), pending := some [] }
    match s.tilePoison owner (p :: ps) with
    | none => (s, u)
    | some q =>
      (if q.psn then s else s.poisonLine q.pa, { u with poison := true, paddr := q.va, prow := BitVec.ofNat 32 q.row })
  | _ => (s, t)

/-- The pending tile loads of seat `n` read their bytes: they do so before a younger store of the seat is performed
(R240). -/
def State.readTiles (s : State) (n : Nat) : State :=
  let t := s.seat n
  let a := s.transfer t.tb0
  let b := a.1.transfer t.tb1
  b.1.setSeat n { t with tb0 := a.2, tb1 := b.2 }

/-- Every pending store of the focused seat is performed, oldest first. -/
def State.drain (s : State) : State :=
  let s := s.readTiles s.cur
  (s.th.lsq.foldl (fun s p => s.performOne (coreOf s.cur) p) s).withTh { s.th with lsq := [] }

/-- Every pending store of seat `n` is performed; one that must come after an instruction in hand has not been made yet. -/
def State.drainSeat (s : State) (n : Nat) : State :=
  let s := s.readTiles n
  let t := s.seat n
  (t.lsq.foldl (fun s p => s.performOne (coreOf n) p) s).setSeat n { t.dropAhead with lsq := [] }

/-- A store enters the queue, which has a free entry when it issues (R336). -/
def State.enqueue (s : State) (p : PendingStore) : State := s.withTh { s.th with lsq := s.th.lsq ++ [p] }

/-- A tile load of the thread that has still to read its pieces holds an entry of the load-store queue (R336). -/
def Tile.queued (x : Tile) : Bool := match x.pending with | some (_ :: _) => true | _ => false

/-- The entries of the load-store queue that are taken (R336): pending stores, tile loads that have still to read, vector memory
instructions that have run and not completed, and the accesses of fabric nodes to other devices. -/
def Thread.lsqUsed (t : Thread) : Nat :=
  t.lsq.length + (if t.tb0.queued then 1 else 0) + (if t.tb1.queued then 1 else 0) +
    t.vq.countP (fun e => e.queued && !e.held) +
    (match t.fx with | some r => r.nodes.countP (fun x => x.tag.isSome) | none => 0)

/-- The load-store queue has no free entry of its 64 (R336). -/
def Thread.lsqFull (t : Thread) : Bool := decide (64 ≤ t.lsqUsed)

/-! ## Other devices -/

/-- The port on which flits to a device leave (R470). -/
def State.portOf (s : State) (dev : Nat) : Nat := ((Map.get 0 s.routes dev).extractLsb' 0 4).toNat

/-- A port can send: it is trained and not fenced (R474, R479). -/
def Port.up (p : Port) : Bool := p.trained && !p.fenced

/-- A port is fenced (R479): it counts its fences, and the third sets REPL.LINK (spec/25_fleet_operation.md R496). -/
def State.fencePort (s : State) (port : Nat) : State :=
  let p := Map.get Port.reset s.ports port
  if p.fenced then s
  else
    let s : State := { s with ports := Map.put Port.reset s.ports port { p with fenced := true, fences := p.fences + 1 } }
    if p.fences + 1 = 3 then s.indicate 2 port else s

/-- A flit leaves on a port, with the port's next sequence number, and is counted (R472; spec/25_fleet_operation.md R493). A
port that is not trained, or is fenced, sends nothing (R474, R479). -/
def State.emit (s : State) (port : Nat) (f : Flit) : State :=
  let p := Map.get Port.reset s.ports port
  if !p.up then s
  else
    ({ s with
      outbox := s.outbox ++ [(port, { f with seq := p.txSeq })]
      ports := Map.put Port.reset s.ports port { p with txSeq := (p.txSeq + 1) % 2 ^ 32 } } : State).count (0x1200 + 16 * port) 1

/-- A flit of unit records (R472). -/
def unitFlit (type src dst owner tag aux : Nat) (recs : List UnitRec) : Flit :=
  { type := type, line := false, len := 16 * recs.length, src := src, dst := dst, owner := owner, tag := tag, seq := 0,
    addr := 0, aux := aux, recs := recs, bytes := [] }

/-- The unit records of an access in flits of at most 13, each with the position of its first record (R472, R473). -/
def chunk13 {α : Type} : Nat → Nat → List α → List (Nat × List α)
  | 0, _, _ => []
  | _ + 1, _, [] => []
  | n + 1, pos, x :: xs => (pos, (x :: xs).take 13) :: chunk13 n (pos + 13) ((x :: xs).drop 13)

/-- An access to another device leaves as flits and is remembered until every unit is answered (R475): load requests
(0x01), a scalar store (0x03), or train units with a tail (0x04, 0x05; log 18). -/
def State.sendRemote (s : State) (dev owner : Nat) (type : Nat) (recs : List UnitRec) : State :=
  let tag := s.nextTag
  let port := s.portOf dev
  let s := (chunk13 recs.length 0 recs).foldl (fun s e =>
    s.emit port (unitFlit type s.devnum dev owner tag (if type = 0x04 then e.1 else 0) e.2)) s
  let s := if type = 0x04 then s.emit port (unitFlit 0x05 s.devnum dev owner tag recs.length []) else s
  { s with
    nextTag := (tag + 1) % 2 ^ 32
    remotes := s.remotes ++ [⟨tag, s.cur, dev, decide (type = 0x01), recs.length, 0, [], none, false, s.cycle⟩] }

/-- The focused seat's accesses to other devices. -/
def State.myRemotes (s : State) : List RemoteOp := s.remotes.filter (fun r => r.seat = s.cur)

/-- The state without them. -/
def State.dropRemotes (s : State) : State := { s with remotes := s.remotes.filter (fun r => r.seat ≠ s.cur) }

/-- log2 of 1, 2, 4 or 8 bytes: the width code of a unit record (R472). -/
def widthCode (n : Nat) : Nat := if n = 1 then 0 else if n = 2 then 1 else if n = 4 then 2 else 3

/-! ## Fetch -/

/-- The fetch of one word (spec/03_encoding.md R113 order 1; R444; log 15): the core's instruction L1 if it holds the
line (R279, R331, R340), else memory. -/
def State.fetchWord (s : State) (c : Ctx) (va : PC) : Except Trap IWord :=
  match s.access c .fetch false (va.setWidth 64) 4 0 with
  | .error t => .error t
  | .ok l =>
    if l.psn then .error { cause := 0x0D, eval := va.setWidth 64, kind := 2 }
    else
      match (s.core c.core).icache.find? (fun e => e.1 = l.pa / 128) with
      | some e =>
        if e.2.1 ≠ c.owner then .ok 0
        else .ok (BitVec.ofNat 32 (leNat ((List.range 4).map (fun i => e.2.2.getD (l.pa % 128 + i) 0))))
      | none =>
        if s.poisoned c.owner l then .error { cause := 0x0D, eval := va.setWidth 64, poisons := some l.pa, kind := 2 }
        else .ok (BitVec.ofNat 32 (leNat (s.readAt c.owner [] l.pa 4)))

/-- The canonical form of memory: addresses rise strictly and no entry holds what an unlisted byte reads as (log 2). -/
def Memory.wf (m : List Host.Cell) : Bool := Map.wf (0 : Byte) m

end Sys2Proof.Machine
end

