-- ==== Sys2Proof/Machine/Control.lean ====
section
/-! DEFINITION. Device control space (spec/23_host_and_links.md R467): SETCFG of each die (spec/16_lattice_regions.md
R395) and the tile clock registers (spec/25_fleet_operation.md R489 to R491). -/

namespace Sys2Proof.Machine

/-- A register of control space. -/
inductive CtlReg | setcfg (die : Nat) | tclk (core : Nat)
  deriving DecidableEq, Repr

/-- The register at an 8-byte aligned offset of control space, if there is one (R467). -/
def ctlReg (off : Nat) : Option CtlReg :=
  let die := off / 0x1000000
  let o := off % 0x1000000
  if 6 ≤ die then none
  else if o = 0x1000 then some (.setcfg die)
  else if 0x2000 ≤ o ∧ o < 0x2100 then some (.tclk (32 * die + (o - 0x2000) / 8))
  else none

/-- SETCFG as a word (R395). -/
def Die.setcfg (d : Die) : Nat :=
  (if d.setEn then 1 else 0) + d.setShare * 16 + Nat.min d.setCarry 65535 * 2 ^ 32 + Nat.min d.setDrop 65535 * 2 ^ 48

/-- The tile clock codes of a core as a word (R491). -/
def Core.tclkWord (k : Core) : Nat := leNat k.tclk.toList

/-- The value of a control register. -/
def State.ctlValue (s : State) : CtlReg → Nat
  | .setcfg d => (s.die d).setcfg
  | .tclk c => (s.core c).tclkWord

/-- The read of `n` bytes at a control address; reading the upper half of SETCFG clears DROP and CARRY (R31, R395). -/
def State.ctlRead (s : State) (pa n : Nat) : State × Nat :=
  let off := pa - ctlBase
  match ctlReg (off / 8 * 8) with
  | none => (s, 0)
  | some r =>
    let v := s.ctlValue r / 2 ^ (8 * (off % 8)) % 2 ^ (8 * n)
    match r with
    | .setcfg d =>
      if off % 8 + n = 8 then (s.setDie d { s.die d with setCarry := 0, setDrop := 0 }, v) else (s, v)
    | .tclk _ => (s, v)

/-- A write of SETCFG bits 31..0 (R395): reserved bits or a reserved SHARE leave it unchanged. -/
def State.setcfgWrite (s : State) (d v : Nat) : State :=
  if bitsOf v 8 24 ≠ 0 ∨ bitsOf v 1 3 ≠ 0 ∨ bitsOf v 4 4 = 0 ∨ 10 < bitsOf v 4 4 then s
  else s.setDie d { s.die d with setEn := decide (bitsOf v 0 1 = 1), setShare := bitsOf v 4 4 }

/-- A write of the tile clock codes of a core (R491): a code above 30 leaves them all unchanged. The tiles change clock
when they are free (R490, R367). -/
def State.tclkWrite (s : State) (c v : Nat) : State :=
  let bs := natLe 8 v
  if bs.any (fun b => decide (30 < b.toNat)) then s
  else s.setCore c { s.core c with tclk := Vector.ofFn (fun i => bs.getD i.val 0) }

/-- The write of `n` bytes at a control address (R467). -/
def State.ctlWrite (s : State) (pa n v : Nat) : State :=
  let off := pa - ctlBase
  match ctlReg (off / 8 * 8) with
  | none => s
  | some (.setcfg d) => if off % 8 = 0 then s.setcfgWrite d (v % 2 ^ 32) else s
  | some (.tclk c) =>
    let old := (s.core c).tclkWord
    let sh := 2 ^ (8 * (off % 8))
    s.tclkWrite c (if n = 8 then v else old - old / sh % 2 ^ 32 * sh + v % 2 ^ 32 * sh)

/-- The clock code a tile's registers and the throttle level call for (R489, R490): 500 + 50·code MHz. -/
def State.clockTarget (s : State) (c t : Nat) : Nat :=
  Nat.min ((s.core c).tclk.getD t 10).toNat (30 - 2 * s.fleet.thr)

/-- A tile's clock is changing (R367, R490). -/
def State.clockChanging (s : State) (c t : Nat) : Bool := decide (((s.core c).clk.getD t 10).toNat ≠ s.clockTarget c t)

end Sys2Proof.Machine
end

