-- ==== Sys2Proof/Machine/Operands.lean ====
section
/-! DEFINITION. The operand forms: scalar sources and immediates, the layout of vector elements and masks
(spec/01_state.md R19 to R26), activity and dead elements (spec/06_vector_integer_instructions.md R158 to R161), what an
instruction checks at issue (spec/03_encoding.md R98, R113), and the element loops every vector instruction writes with. -/

namespace Sys2Proof.Machine

/-! ## Scalar operands -/

/-- A scalar register of the focused thread. -/
def State.x (s : State) (r : SReg) : Word := s.th.x r

/-- The 7-bit device field and the 57-bit address of base plus an offset, modulo 2^64 (spec/03_encoding.md R87). -/
def State.addr (s : State) (a : SReg) (off : Word) : Word := s.x a + off

/-- A signed 10-bit offset scaled by the access size (R87). -/
def scaled (imm : BitVec 10) (n : Nat) : Word := imm.signExtend 64 * BitVec.ofNat 64 n

/-! ## Elements -/

/-- Bits per lane of a vector register (R19). -/
def Thread.regBits (t : Thread) : Nat := t.portion * 32

/-- Bit 0 of element `i` of width `w` in a group that starts at register `n` (R19, R20): the slice bit. -/
def Thread.bitAt (t : Thread) (n w i : Nat) : Nat := n * t.portion * 32 + i / t.lanes * w

/-- The register that holds a slice bit (R19). -/
def Thread.regAt (t : Thread) (bit : Nat) : Nat := bit / (t.portion * 32)

/-- Element `i` of width `w` of the group that starts at register `n`; an invalid register reads zero (R20, R26). -/
def Thread.elem (t : Thread) (n w i : Nat) : Nat :=
  let b := t.bitAt n w i
  if t.lanes = 0 ∨ !t.vvalid.getLsbD (t.regAt b) then 0
  else ((t.slices.getD (i % t.lanes) 0).extractLsb' b w).toNat

/-- Register `n` made valid; it then holds zero in every element (R26). -/
def Thread.validate (t : Thread) (n : Nat) : Thread :=
  if t.vvalid.getLsbD n then t
  else
    let hole : BitVec 8192 := (BitVec.ofNat 8192 (2 ^ (t.portion * 32) - 1)) <<< (n * t.portion * 32)
    { t with vvalid := t.vvalid ||| (1#64 <<< n), slices := t.slices.map (fun sl => sl &&& ~~~hole) }

/-- Writes element `i` of width `w` of the group that starts at register `n`. Without lanes nothing is written. -/
def Thread.setElem (t : Thread) (n w i v : Nat) : Thread :=
  if t.lanes = 0 then t
  else
    let b := t.bitAt n w i
    let t := t.validate (t.regAt b)
    let hole : BitVec 8192 := (BitVec.ofNat 8192 (2 ^ w - 1)) <<< b
    let sl := t.slices.getD (i % t.lanes) 0
    { t with slices := t.slices.setIfInBounds (i % t.lanes) ((sl &&& ~~~hole) ||| ((BitVec.ofNat 8192 (v % 2 ^ w)) <<< b)) }

/-- Mask bit `i` of register `n`: an element of width one (R24). -/
def Thread.maskBit (t : Thread) (n i : Nat) : Bool := t.elem n 1 i = 1

/-- An INT4 element: the low nibble of its container for an even index, the high one for an odd (R21). -/
def Thread.nibble (t : Thread) (n i : Nat) : Nat := t.elem n 8 (i / 2) / (if i % 2 = 0 then 1 else 16) % 16

/-- Writes an INT4 element. -/
def Thread.setNibble (t : Thread) (n i v : Nat) : Thread :=
  let c := t.elem n 8 (i / 2)
  t.setElem n 8 (i / 2) (if i % 2 = 0 then c / 16 * 16 + v % 16 else v % 16 * 16 + c % 16)

/-- Element `i` of a group whose elements are `w` bits wide; 4 bits are INT4 elements, two to a container (R20, R21). -/
def Thread.getAt (t : Thread) (n w i : Nat) : Nat := if w = 4 then t.nibble n i else t.elem n w i

/-- Writes element `i` of a group whose elements are `w` bits wide. -/
def Thread.setAt (t : Thread) (n w i v : Nat) : Thread := if w = 4 then t.setNibble n i v else t.setElem n w i v

/-- The scale of element `i`: BF16 element ⌊i/32⌋ of v1, taken with EW 16 (R25). -/
def Thread.scaleAt (t : Thread) (i : Nat) : Nat := t.elem 1 16 (i / 32)

/-- The VTYPE in force. -/
def Thread.vt (t : Thread) : Word := t.get .vtype

/-- The container width of the VTYPE in bits (R21, R28). -/
def Thread.ew (t : Thread) : Nat := ewBits (vtEwc t.vt)

/-- Elements per unit: 1, 2 under INT4, 8 under EL16 and EL32 (R161). -/
def unitElems (fmt : Nat) : Nat := if fmt = 8 then 2 else if fmt = 9 ∨ fmt = 10 then 8 else 1

/-- VLc: the units of `vl` elements under a format (R161). -/
def unitsOf (fmt vl : Nat) : Nat := (vl + unitElems fmt - 1) / unitElems fmt

/-- VLc of the thread (R158, R161). -/
def Thread.vlc (t : Thread) : Nat := unitsOf (vtFmt t.vt) t.vl

/-- VLMAX counted in units. -/
def Thread.vlcMax (t : Thread) : Nat := t.vlmax / unitElems (vtFmt t.vt)

/-- VSTART as a number. -/
def Thread.vstart (t : Thread) : Nat := (t.get .vstart).toNat

/-! ## Modifiers -/

/-- N of the prefix (R109). -/
def modN (md : VMod) : Bool := match md.pre with | some p => p.n | none => false
/-- P of the prefix (R109). -/
def modP (md : VMod) : Bool := match md.pre with | some p => p.p | none => false
/-- The `.x` register (R198). -/
def modX (md : VMod) : Option VReg := match md.pre with | some p => p.x | none => none
/-- Words of the instruction (R78). -/
def modWords (md : VMod) : Nat := if md.pre.isSome then 2 else 1

/-- Unit `i` is active (R24, R158). -/
def Thread.active (t : Thread) (md : VMod) (i : Nat) : Bool := !md.m || (t.maskBit 0 i != modN md)

/-- What a dead element holds: its previous bits, all ones or all zeros (R159; log 8). -/
def deadValue (choice w old : Nat) : Nat := if choice = 1 then 2 ^ w - 1 else if choice = 2 then 0 else old

/-- Element `i` of register `n` becomes dead. -/
def State.deadElem (s : State) (t : Thread) (n w i : Nat) : Thread :=
  t.setAt n w i (deadValue (Config.deadChoice (s.pick (n * 2 ^ 20 + i))) w (s.th.getAt n w i))

/-! ## What is checked at issue -/

/-- The vector registers a source names. -/
def srcRegs : VSrc → List Nat
  | .reg v => [v.toNat]
  | .scalar _ => []

/-- The registers `.x` names. -/
def xRegs (md : VMod) : List Nat := match modX md with | some v => [v.toNat] | none => []

/-- SFMT and SCL are zero (R98). -/
def portClear (vt : Word) : Bool := decide (vtSfmt vt = 0) && !vtScl vt

/-- What a vector-queue instruction checks at issue: a VTYPE restored by `eret` with reserved bits (R43), its register
groups' alignment `al`, a register beyond the shape (R23, order 5 of R113), and at order 6 the VTYPE conditions `ok` and
a second half of a pair reached alone (R109). `al` is for groups whose size depends on VTYPE, which is checked before it
(log 14). -/
def State.vCheck (s : State) (md : VMod) (al : Bool) (regs : List Nat) (ok : Bool) : Option Trap :=
  if !vtypeLegal s.th.vt then some (.illegal 0x07)
  else if !al then some (.illegal 0x01)
  else if regs.any (fun n => decide (s.th.nreg ≤ n)) then some { cause := 0x11 }
  else if !ok || modP md then some (.illegal 0x05)
  else none

/-- A register pair that must be even whatever VTYPE holds is checked with the encoding, before VTYPE (R113, R114;
spec/06_vector_integer_instructions.md R173, R174). -/
def evenFirst (even : Bool) (t : Option Trap) : Option Trap := if even then t else some (.illegal 0x01)

/-- The check of a vector-queue instruction without modifiers (majors 0x2E to 0x35; R43). Where `ok` asks nothing of SFMT and SCL
(`tld`, `twait`, `tzero`, `fbind`, `stj`, `ltw`, `exit`, which read no VTYPE) a non-zero port does not refuse the instruction: R98
names vector instructions, and the model takes those that read VTYPE (DEDUCED; log 56). -/
def State.qCheck (s : State) (al : Bool) (regs : List Nat) (ok : Bool) : Option Trap := s.vCheck ⟨false, none⟩ al regs ok

/-- The instruction runs unless a check traps. -/
def State.guardTrap (s : State) (t : Option Trap) (k : Unit → Res) : Res :=
  match t with
  | some x => .trap s x
  | none => k ()

/-! ## The element loop -/

/-- R158: from `lo` to `hi`, active units of width `w` of group `vd` take what `f` gives, where it gives something, and
inactive ones die under MD. Every source is read from the thread before the first write. -/
def State.loopOpt (s : State) (md : VMod) (vd w lo hi : Nat) (f : Nat → Option Nat) : Thread :=
  (List.range (hi - lo)).foldl (fun t k =>
    if s.th.active md (lo + k) then (match f (lo + k) with | some v => t.setElem vd w (lo + k) v | none => t)
    else if vtMd s.th.vt then s.deadElem t vd w (lo + k)
    else t) s.th

/-- R158 where every active unit is written. -/
def State.loop (s : State) (md : VMod) (vd w lo hi : Nat) (f : Nat → Nat) : Thread :=
  s.loopOpt md vd w lo hi (fun i => some (f i))

/-- The active units of [lo, hi), ascending. -/
def State.actives (s : State) (md : VMod) (lo hi : Nat) : List Nat :=
  ((List.range (hi - lo)).map (lo + ·)).filter (fun i => s.th.active md i)

/-- Writes given elements of a group. -/
def Thread.setElems (t : Thread) (n w : Nat) (es : List (Nat × Nat)) : Thread :=
  es.foldl (fun t e => t.setElem n w e.1 e.2) t

/-- The element groups of an instruction that handles `n` units (spec/12_execution_model.md R309). -/
def Thread.groups (t : Thread) (n : Nat) : Nat :=
  let per := t.lanes * 64 / t.ew
  if per = 0 then 0 else (n + per - 1) / per

/-- The instruction has run: its entry of the vector queue, made at issue, holds the seat no more (R307). -/
def Thread.pushVq (t : Thread) : Thread := { t with vq := t.vq.map (fun e => { e with held := false }) }

/-- A vector instruction completes on thread `t`: VSTART is 0 and the thread goes on (R158). -/
def State.vDone (s : State) (md : VMod) (t : Thread) : Res :=
  .ok (s.finish (t.pushVq.set .vstart 0) (modWords md))

end Sys2Proof.Machine
end

