-- ==== Sys2Proof/Machine/Float.lean ====
section
/-! DEFINITION. Floating-point arithmetic (spec/02_number_formats.md R46 to R54): exact values, one rounding, tininess,
flushing, canonical NaNs and conversions; the estimates and 2^a of spec/07_vector_float_instructions.md R200 to R202. -/

namespace Sys2Proof.Machine

/-! ## Formats and values -/

/-- A format of R46: its width, the widths of its exponent and fraction, and whether it has infinities (R47). -/
structure FFmt where
  bits : Nat
  expo : Nat
  frac : Nat
  ieee : Bool
  deriving DecidableEq, Repr

/-- FP64 (R46). -/
def fp64 : FFmt := ⟨64, 11, 52, true⟩
/-- FP32 (R46). -/
def fp32 : FFmt := ⟨32, 8, 23, true⟩
/-- BF16 (R46). -/
def bf16 : FFmt := ⟨16, 8, 7, true⟩
/-- FP16 (R46). -/
def fp16 : FFmt := ⟨16, 5, 10, true⟩
/-- E4M3 (R46). -/
def e4m3 : FFmt := ⟨8, 4, 3, false⟩
/-- E5M2 (R46). -/
def e5m2 : FFmt := ⟨8, 5, 2, true⟩

/-- The floating-point format of an FMT code (R28). -/
def fltFmt : Nat → Option FFmt
  | 2 => some fp64
  | 3 => some fp32
  | 4 => some bf16
  | 5 => some fp16
  | 6 => some e4m3
  | 7 => some e5m2
  | _ => none

/-- The encoding of +∞, or the first encoding past the exponents of a format without infinities. -/
def FFmt.inf (f : FFmt) : Nat := (2 ^ f.expo - 1) * 2 ^ f.frac
/-- The largest finite encoding (R46). -/
def FFmt.top (f : FFmt) : Nat := if f.ieee then f.inf - 1 else f.inf + 2 ^ f.frac - 2
/-- The canonical NaN (R46, R48). -/
def FFmt.nan (f : FFmt) : Nat := if f.ieee then f.inf + 2 ^ (f.frac - 1) else f.inf + 2 ^ f.frac - 1
/-- The exponent of the last place of a subnormal: 1 − bias − fraction bits (R46). -/
def FFmt.qmin (f : FFmt) : Int := 2 - (2 ^ (f.expo - 1) : Nat) - f.frac
/-- The sign bit as a number. -/
def FFmt.sign (f : FFmt) (neg : Bool) : Nat := if neg then 2 ^ (f.bits - 1) else 0

/-- A value read from a format: a NaN and whether it is signalling, an infinity, or (−1)^neg · m · 2^e (R46, R47). -/
inductive FVal
  | nan (sig : Bool)
  | inf (neg : Bool)
  | fin (neg : Bool) (m : Nat) (e : Int)
  deriving DecidableEq, Repr

/-- The value of an encoding, a subnormal read as zero under FZ 2 and 3 (R46, R47, R51). -/
def FFmt.read (f : FFmt) (fz v : Nat) : FVal :=
  let neg := decide (v / 2 ^ (f.bits - 1) % 2 = 1)
  let ex := v / 2 ^ f.frac % 2 ^ f.expo
  let fr := v % 2 ^ f.frac
  if f.ieee ∧ ex = 2 ^ f.expo - 1 then
    if fr = 0 then .inf neg else .nan (decide (16 ≤ f.bits) && decide (fr < 2 ^ (f.frac - 1)))
  else if !f.ieee ∧ v % 2 ^ (f.bits - 1) = f.nan then .nan false
  else if ex = 0 then (if 2 ≤ fz then .fin neg 0 f.qmin else .fin neg fr f.qmin)
  else .fin neg (fr + 2 ^ f.frac) (f.qmin + (ex - 1 : Nat))

/-- Is the value a NaN? -/
def FVal.isNan : FVal → Bool | .nan _ => true | _ => false
/-- Is it a signalling NaN? -/
def FVal.isSig : FVal → Bool | .nan s => s | _ => false
/-- Its sign; a NaN counts as positive. -/
def FVal.neg : FVal → Bool | .nan _ => false | .inf n => n | .fin n _ _ => n
/-- The value with its sign inverted. -/
def FVal.negate : FVal → FVal | .nan s => .nan s | .inf n => .inf (!n) | .fin n m e => .fin (!n) m e
/-- Is it a zero? -/
def FVal.isZero : FVal → Bool | .fin _ m _ => decide (m = 0) | _ => false
/-- Is it an infinity? -/
def FVal.isInf : FVal → Bool | .inf _ => true | _ => false

/-- The exact value of an integer. -/
def FVal.ofInt (v : Int) : FVal := .fin (decide (v < 0)) v.natAbs 0

/-! ## Results and flags -/

/-- Flags of FFLAGS (spec/01_state.md R34): NX, UF, OF, DZ, NV. -/
def flNX : BitVec 5 := 1
/-- Underflow. -/
def flUF : BitVec 5 := 2
/-- Overflow. -/
def flOF : BitVec 5 := 4
/-- Division by zero. -/
def flDZ : BitVec 5 := 8
/-- Invalid operation. -/
def flNV : BitVec 5 := 16

/-- A delivered result: its bits, the flags it raises and the bits of VXSAT it sets (spec/01_state.md R39). -/
structure FOut where
  bits : Nat
  fl : BitVec 5 := 0
  sat : BitVec 3 := 0
  deriving DecidableEq, Repr

/-- A result with more flags. -/
def FOut.raise (o : FOut) (fl : BitVec 5) : FOut := { o with fl := o.fl ||| fl }

/-- NV when an operand is a signalling NaN (R48). -/
def nvSig (vs : List FVal) : BitVec 5 := if vs.any FVal.isSig then flNV else 0

/-- The rounding mode, FZ and SATCVT an operation runs under (R49, R51, R53). -/
structure FEnv where
  rm : Nat
  fz : Nat
  sat : Bool := false
  deriving DecidableEq, Repr

/-- The canonical NaN, with NV when an operand is signalling or `inv` holds (R48). -/
def FFmt.outNan (f : FFmt) (vs : List FVal) (inv : Bool) : FOut :=
  { bits := f.nan, fl := nvSig vs ||| (if inv then flNV else 0) }

/-- A zero. -/
def FFmt.outZero (f : FFmt) (neg : Bool) : FOut := { bits := f.sign neg }

/-- An infinity; 0x7F in E4M3 (R49). -/
def FFmt.outInf (f : FFmt) (neg : Bool) : FOut := { bits := if f.ieee then f.sign neg + f.inf else f.nan }

/-! ## Rounding -/

/-- m / 2^d rounded to an integer, with `sticky` for a lost part below; and whether it is inexact (R49). -/
def shiftRound (rm : Nat) (neg : Bool) (m d : Nat) (sticky : Bool) : Nat × Bool :=
  let n := m / 2 ^ d
  let r := m % 2 ^ d
  let inexact := decide (r ≠ 0) || sticky
  let up := match rm with
    | 0 => decide (2 ^ d < 2 * r) || (decide (2 * r = 2 ^ d) && (sticky || decide (n % 2 = 1)))
    | 1 => false
    | 2 => neg && inexact
    | 3 => !neg && inexact
    | _ => decide (2 ^ d ≤ 2 * r)
  (if up then n + 1 else n, inexact)

/-- m · 2^e rounded to a multiple of 2^q, as that multiple's count. -/
def atQuantum (rm : Nat) (neg : Bool) (m : Nat) (e : Int) (sticky : Bool) (q : Int) : Nat × Bool :=
  if q ≤ e then (m * 2 ^ (e - q).toNat, sticky) else shiftRound rm neg m (q - e).toNat sticky

/-- An overflow goes to infinity (R49). -/
def toInf (rm : Nat) (neg : Bool) : Bool :=
  match rm with
  | 0 | 4 => true
  | 2 => neg
  | 3 => !neg
  | _ => false

/-- The exact value (−1)^neg · m · 2^e, above it by less than one place when `sticky`, rounded once to a format (R49 to
R51), and whether it overflowed. -/
def FFmt.round (f : FFmt) (v : FEnv) (neg : Bool) (m : Nat) (e : Int) (sticky : Bool) : FOut × Bool :=
  if m = 0 then (f.outZero neg, false)
  else
    let q0 := e + (m.log2 : Int) - f.frac
    let q := max q0 f.qmin
    let r := atQuantum v.rm neg m e sticky q
    let n0 := (atQuantum v.rm neg m e sticky q0).1
    let tiny := decide (q0 + (n0.log2 : Int) < f.qmin + f.frac)
    let mag := (q - f.qmin).toNat * 2 ^ f.frac + r.1
    if f.top < mag then
      ((if toInf v.rm neg then f.outInf neg else { bits := f.sign neg + f.top }).raise (flOF ||| flNX), true)
    else if tiny ∧ v.fz % 2 = 1 then ({ bits := f.sign neg, fl := flUF ||| flNX }, false)
    else
      ({ bits := f.sign neg + mag,
         fl := (if r.2 then flNX else 0) ||| (if tiny && r.2 then flUF else 0) }, false)

/-- A value that is no NaN delivered in a format. -/
def FFmt.deliver (f : FFmt) (v : FEnv) (x : FVal) : FOut :=
  match x with
  | .nan _ => f.outNan [x] false
  | .inf n => f.outInf n
  | .fin n m e => (f.round v n m e false).1

/-! ## Arithmetic -/

/-- The exact sum of two finite values; an exact zero takes its sign under R77. -/
def sumFin (rm : Nat) (n1 : Bool) (m1 : Nat) (e1 : Int) (n2 : Bool) (m2 : Nat) (e2 : Int) : Bool × Nat × Int :=
  let e := min e1 e2
  let a : Int := (m1 * 2 ^ (e1 - e).toNat : Nat)
  let b : Int := (m2 * 2 ^ (e2 - e).toNat : Nat)
  let s := (if n1 then -a else a) + (if n2 then -b else b)
  if s = 0 then ((n1 && n2) || ((n1 != n2) && decide (rm = 2)), 0, e) else (decide (s < 0), s.natAbs, e)

/-- a + b (R152, R199). -/
def fAdd (f : FFmt) (v : FEnv) (a b : FVal) : FOut :=
  match a, b with
  | .inf n, .inf k => if n = k then f.outInf n else f.outNan [] true
  | .inf n, .fin .. => f.outInf n
  | .fin .., .inf n => f.outInf n
  | .fin n1 m1 e1, .fin n2 m2 e2 =>
    let s := sumFin v.rm n1 m1 e1 n2 m2 e2
    (f.round v s.1 s.2.1 s.2.2 false).1
  | _, _ => f.outNan [a, b] false

/-- a − b. -/
def fSub (f : FFmt) (v : FEnv) (a b : FVal) : FOut := fAdd f v a b.negate

/-- The exact product; `none` for 0 × ∞ or a NaN operand. -/
def exactMul (a b : FVal) : Option FVal :=
  match a, b with
  | .inf n, .inf k => some (.inf (n != k))
  | .inf n, .fin k m _ => if m = 0 then none else some (.inf (n != k))
  | .fin k m _, .inf n => if m = 0 then none else some (.inf (n != k))
  | .fin n1 m1 e1, .fin n2 m2 e2 => some (.fin (n1 != n2) (m1 * m2) (e1 + e2))
  | _, _ => none

/-- 0 × ∞ (R152). -/
def mulInvalid (a b : FVal) : Bool := (a.isZero && b.isInf) || (a.isInf && b.isZero)

/-- a × b (R152, R199). -/
def fMul (f : FFmt) (v : FEnv) (a b : FVal) : FOut :=
  match exactMul a b with
  | some p => f.deliver v p
  | none => f.outNan [a, b] (mulInvalid a b)

/-- ±(a × b) ± c, each negation applied to its term before the sum (R77). -/
def fFma (f : FFmt) (v : FEnv) (negP negC : Bool) (a b c : FVal) : FOut :=
  let c := if negC then c.negate else c
  match exactMul a b with
  | none => f.outNan [a, b, c] (mulInvalid a b)
  | some p => fAdd f v (if negP then p.negate else p) c

/-- a / b (R152, R199). -/
def fDiv (f : FFmt) (v : FEnv) (a b : FVal) : FOut :=
  match a, b with
  | .inf _, .inf _ => f.outNan [] true
  | .inf n, .fin k _ _ => f.outInf (n != k)
  | .fin n _ _, .inf k => f.outZero (n != k)
  | .fin n1 m1 e1, .fin n2 m2 e2 =>
    if m2 = 0 then
      if m1 = 0 then f.outNan [] true else (f.outInf (n1 != n2)).raise flDZ
    else
      let n := m1 * 2 ^ 160
      (f.round v (n1 != n2) (n / m2) (e1 - e2 - 160) (decide (n % m2 ≠ 0))).1
  | _, _ => f.outNan [a, b] false

/-- The integer square root, by its bits from `k` − 1 down; `r` is what the higher bits gave. -/
def isqrtFrom : Nat → Nat → Nat → Nat
  | 0, _, r => r
  | k + 1, n, r => if (r + 2 ^ k) * (r + 2 ^ k) ≤ n then isqrtFrom k n (r + 2 ^ k) else isqrtFrom k n r

/-- The integer square root. -/
def isqrt (n : Nat) : Nat := isqrtFrom (n.log2 / 2 + 1) n 0

/-- √a (R152, R199). -/
def fSqrt (f : FFmt) (v : FEnv) (a : FVal) : FOut :=
  match a with
  | .nan _ => f.outNan [a] false
  | .inf n => if n then f.outNan [] true else f.outInf false
  | .fin n m e =>
    if m = 0 then f.outZero n
    else if n then f.outNan [] true
    else
      let k : Nat := if e % 2 = 0 then 160 else 161
      let x := m * 2 ^ k
      let r := isqrt x
      (f.round v false r ((e - k) / 2) (decide (r * r ≠ x))).1

/-! ## Comparison -/

/-- Order of two values, neither a NaN: a ≤ b; −0 equals +0. -/
def FVal.le (a b : FVal) : Bool :=
  match a, b with
  | .inf n, .inf k => n || !k
  | .inf n, _ => n
  | _, .inf k => !k
  | .fin n1 m1 e1, .fin n2 m2 e2 =>
    let e := min e1 e2
    let x : Int := (m1 * 2 ^ (e1 - e).toNat : Nat)
    let y : Int := (m2 * 2 ^ (e2 - e).toNat : Nat)
    decide ((if n1 then -x else x) ≤ (if n2 then -y else y))
  | _, _ => false

/-- A relation of R153 and R204 and the flags it raises. -/
def fCmp (cc : FltCmp) (a b : FVal) : Bool × BitVec 5 :=
  let un := a.isNan || b.isNan
  let quiet := nvSig [a, b]
  let loud : BitVec 5 := if un then flNV else 0
  match cc with
  | .eq => (!un && a.le b && b.le a, quiet)
  | .ne => (un || !(a.le b && b.le a), quiet)
  | .lt => (!un && !b.le a, loud)
  | .le => (!un && a.le b, loud)
  | .gt => (!un && !a.le b, loud)
  | .ge => (!un && b.le a, loud)
  | .uo => (un, quiet)

/-- minimumNumber and maximumNumber (R52), delivered under the output column of R51. -/
def fMinMax (f : FFmt) (v : FEnv) (wantMax : Bool) (a b : FVal) : FOut :=
  let pick :=
    if a.isNan then b
    else if b.isNan then a
    else
      let aFirst := a.le b && !(b.le a && b.neg && !a.neg)
      if aFirst != wantMax then a else b
  if a.isNan && b.isNan then f.outNan [a, b] false else (f.deliver v pick).raise (nvSig [a, b])

/-- The class value of an encoding (R154), after input flushing (R203). -/
def FFmt.classOf (f : FFmt) (fz v : Nat) : Nat :=
  let kind := match f.read fz v with
    | .nan true => 5
    | .nan false => 4
    | .inf _ => 3
    | .fin _ m _ => if m = 0 then 0 else if m < 2 ^ f.frac then 1 else 2
  kind + (if v / 2 ^ (f.bits - 1) % 2 = 1 then 8 else 0)

/-! ## Conversions -/

/-- SATCVT applies to this destination (R53). -/
def FFmt.saturates (f : FFmt) (v : FEnv) : Bool := v.sat && decide (f.bits = 8)

/-- A saturated conversion (R53): ± the largest finite value, NX and VXSAT.CVT. -/
def FFmt.outSat (f : FFmt) (neg : Bool) : FOut := { bits := f.sign neg + f.top, fl := flNX, sat := 4 }

/-- A finite value converted to a format (R53, R54). -/
def FFmt.convFin (f : FFmt) (v : FEnv) (neg : Bool) (m : Nat) (e : Int) : FOut :=
  let r := f.round v neg m e false
  if r.2 && f.saturates v then f.outSat neg else r.1

/-- A conversion between floating-point formats (R53). -/
def FFmt.convert (f : FFmt) (v : FEnv) (a : FVal) : FOut :=
  match a with
  | .nan _ => f.outNan [a] false
  | .inf n => if f.saturates v then f.outSat n else if f.ieee then f.outInf n else (f.outInf n).raise flNV
  | .fin n m e => f.convFin v n m e

/-- A conversion from an integer (R54). -/
def FFmt.ofInt (f : FFmt) (v : FEnv) (a : Int) : FOut := f.convFin v (decide (a < 0)) a.natAbs 0

/-- A conversion to an integer of `n` bits (R54). -/
def toInt (n : Nat) (signed : Bool) (rm : Nat) (a : FVal) : FOut :=
  let hi : Int := if signed then (2 ^ (n - 1) : Nat) - 1 else (2 ^ n : Nat) - 1
  let lo : Int := if signed then -(2 ^ (n - 1) : Nat) else 0
  match a with
  | .nan _ => { bits := ofS n hi, fl := flNV }
  | .inf k => { bits := ofS n (if k then lo else hi), fl := flNV }
  | .fin k m e =>
    let r := atQuantum rm k m e false 0
    let x : Int := if k then -(r.1 : Int) else r.1
    if hi < x then { bits := ofS n hi, fl := flNV }
    else if x < lo then { bits := ofS n lo, fl := flNV }
    else { bits := ofS n x, fl := if r.2 then flNX else 0 }

/-! ## Estimates and 2^a -/

/-- An estimate ± (128 + q) · 2^e delivered by R200: ±∞ with OF and NX, ±0 with UF and NX, or itself. -/
def FFmt.estimate (f : FFmt) (neg : Bool) (q : Nat) (e : Int) : FOut :=
  let r := f.round ⟨0, 1, false⟩ neg (128 + q) e false
  if r.2 then (f.outInf neg).raise (flOF ||| flNX) else r.1

/-- `vfrece` (R200). -/
def fRece (f : FFmt) (a : FVal) : FOut :=
  match a with
  | .nan _ => f.outNan [a] false
  | .inf n => f.outZero n
  | .fin n m e =>
    if m = 0 then (f.outInf n).raise flDZ
    else
      let k := m.log2
      let i := (m - 2 ^ k) * 128 / 2 ^ k
      let d := 257 + 2 * i
      f.estimate n ((131072 + d) / (2 * d) - 128) (-(e + k) - 8)

/-- `vfrsqe` (R201). -/
def fRsqe (f : FFmt) (a : FVal) : FOut :=
  match a with
  | .nan _ => f.outNan [a] false
  | .inf n => if n then f.outNan [] true else f.outZero false
  | .fin n m e =>
    if m = 0 then (f.outInf n).raise flDZ
    else if n then f.outNan [] true
    else
      let k := m.log2
      let j := (m - 2 ^ k) * 64 / 2 ^ k
      let x := e + k
      let t := (129 + 2 * j) * (if x % 2 = 0 then 1 else 2)
      let r := isqrt (2 ^ 23 / t)
      let q := if (2 * r + 1) * (2 * r + 1) * t ≤ 2 ^ 25 then r + 1 else r
      f.estimate false (q - 128) (-(x / 2) - 8)

/-- Fraction bits of the fixed-point arithmetic of `vfexp2` (log 19). -/
def expBits : Nat := 320

/-- ln 2 in fixed point, truncated: 2 · Σ 1 / ((2k + 1) · 3^(2k + 1)). -/
def ln2Fix : Nat :=
  (List.range 110).foldl (fun s k => s + 2 * 2 ^ expBits / ((2 * k + 1) * 3 ^ (2 * k + 1))) 0

/-- The terms of e^y in fixed point from term `k` on, `t` being that term. -/
def expTerms : Nat → Nat → Nat → Nat → Nat
  | 0, _, _, _ => 0
  | fuel + 1, y, k, t => t + expTerms fuel y (k + 1) (t * y / (k * 2 ^ expBits))

/-- 2^x for a fixed-point x in [0, 1), truncated. -/
def exp2Fix (x : Nat) : Nat := expTerms 90 (x * ln2Fix / 2 ^ expBits) 1 (2 ^ expBits)

/-- `vfexp2` (R202; log 19). 2^a is irrational unless a is an integer, so what the fixed point drops is a sticky part. -/
def fExp2 (f : FFmt) (v : FEnv) (a : FVal) : FOut :=
  match a with
  | .nan _ => f.outNan [a] false
  | .inf n => if n then f.outZero false else f.outInf false
  | .fin n m e =>
    let top := e + (m.log2 : Int)
    if m = 0 then (f.round v false 1 0 false).1
    else if 13 ≤ top then (f.round v false 1 (if n then -8192 else 8192) true).1
    else if top < -200 then
      if n then (f.round v false (2 ^ 200 - 1) (-200) true).1 else (f.round v false (2 ^ 200) (-200) true).1
    else
      let mag : Int := if 0 ≤ e then (m * 2 ^ (expBits + e.toNat) : Nat) else (m * 2 ^ expBits / 2 ^ (-e).toNat : Nat)
      let x := if n then -mag else mag
      let i := x / (2 ^ expBits : Nat)
      let fr := (x % (2 ^ expBits : Nat)).toNat
      if fr = 0 then (f.round v false 1 i false).1
      else (f.round v false (exp2Fix fr) (i - expBits) true).1

end Sys2Proof.Machine
end

