-- ==== Sys2Proof/Machine/Flags.lean ====
section
/-! DEFINITION. The sticky flags (spec/01_state.md R38, R39) and the floating-point trap: of a scalar instruction
(spec/05_scalar_instructions.md R157), of an element-wise vector instruction (spec/07_vector_float_instructions.md R197,
R198) and of one that acts on the vector as a whole (R211). -/

namespace Sys2Proof.Machine

/-- FTEN (spec/01_state.md R34). -/
def Thread.ften (t : Thread) : BitVec 5 := (t.get .ften).extractLsb' 0 5

/-- Flags ORed into FFLAGS (R38). -/
def Thread.orFlags (t : Thread) (fl : BitVec 5) : Thread := t.set .fflags (t.get .fflags ||| fl.setWidth 64)

/-- Flags ORed into VXSAT (R39). -/
def Thread.orSat (t : Thread) (sat : BitVec 3) : Thread := t.set .vxsat (t.get .vxsat ||| sat.setWidth 64)

/-- A floating-point trap at an element (R41). -/
def fpTrap (elem : Nat) (fl : BitVec 5) : Trap := { cause := 0x0C, elem := elem, flags := fl }

/-- A scalar instruction that raises `fl` and otherwise goes on as `k` (R157). -/
def State.scalarFlags (s : State) (fl : BitVec 5) (k : State → State) : Res :=
  let s := s.withTh (s.th.orFlags fl)
  if fl &&& s.th.ften ≠ 0 then .trap s (fpTrap 0 fl) else .ok (k s)

/-- An element-wise computation: its modifiers, its destination group and element width, what the conversion of its scalar
operand raised (R194), and the result of each element. -/
structure Half where
  md : VMod
  vd : Nat
  w : Nat
  pre : FOut := { bits := 0 }
  f : Nat → FOut

/-- The results of the units of [lo, hi): `none` where the unit is inactive. -/
def State.results (s : State) (h : Half) (lo hi : Nat) : List (Option FOut) :=
  (List.range (hi - lo)).map (fun k => if s.th.active h.md (lo + k) then some (h.f (lo + k)) else none)

/-- The first place from `k` on where a result raises a flag of `en`. -/
def firstTrap (en : BitVec 5) : List (Option FOut) → Nat → Option Nat
  | [], _ => none
  | o :: os, k =>
    match o with
    | some r => if r.fl &&& en ≠ 0 then some k else firstTrap en os (k + 1)
    | none => firstTrap en os (k + 1)

/-- Where a half stops for a floating-point trap: never under `.x` (R197, R198). -/
def Half.stop (h : Half) (en : BitVec 5) (lo : Nat) (rs : List (Option FOut)) : Option Nat :=
  if (modX h.md).isSome then none
  else if h.pre.fl &&& en ≠ 0 ∧ rs.any Option.isSome then some lo
  else firstTrap en rs lo

/-- The lower of two stops. -/
def stopMin : Option Nat → Option Nat → Option Nat
  | none, b => b
  | a, none => a
  | some a, some b => some (Nat.min a b)

/-- The flags of the first `n` results, and of the scalar conversion where an element is active (R194, R197). -/
def Half.flags (h : Half) (rs : List (Option FOut)) (n : Nat) : BitVec 5 :=
  (rs.take n).foldl (fun a o => match o with | some r => a ||| r.fl | none => a)
    (if rs.any Option.isSome then h.pre.fl else 0)

/-- The bits of VXSAT of all results (R59, R206). -/
def Half.sats (h : Half) (rs : List (Option FOut)) : BitVec 3 :=
  rs.foldl (fun a o => match o with | some r => a ||| r.sat | none => a)
    (if rs.any Option.isSome then h.pre.sat else 0)

/-- The first `n` results written from unit `lo` on; an inactive unit dies when `dead` holds (R158, R159). -/
def State.writeHalf (s : State) (t : Thread) (h : Half) (dead : Bool) (lo n : Nat) (rs : List (Option FOut)) : Thread :=
  ((rs.take n).foldl (fun (a : Thread × Nat) o =>
    (match o with
     | some r => a.1.setAt h.vd h.w a.2 r.bits
     | none => if dead then s.deadElem a.1 h.vd h.w a.2 else a.1, a.2 + 1)) (t, lo)).1

/-- The `.x` mask of the first `n` results (R198). -/
def State.writeX (s : State) (t : Thread) (h : Half) (lo n : Nat) (rs : List (Option FOut)) : Thread :=
  match modX h.md with
  | none => t
  | some v =>
    ((rs.take n).foldl (fun (a : Thread × Nat) o =>
      (a.1.setElem v.toNat 1 a.2
        (match o with | some r => if r.fl &&& vtXm s.th.vt ≠ 0 then 1 else 0 | none => 0), a.2 + 1)) (t, lo)).1

/-- An element-wise instruction over units [VSTART, n) (R158, R196 to R198), of `words` words. One that traps sets no VXSAT for the units
below the stop (log 47). -/
def State.elementwise (s : State) (h : Half) (n words : Nat) : Res :=
  let lo := s.th.vstart
  let rs := s.results h lo n
  let en := s.th.ften
  match h.stop en lo rs with
  | some i =>
    let t := s.writeHalf s.th h (vtMd s.th.vt) lo (i - lo) rs
    let fl := h.flags rs (i - lo + 1)
    .trap (s.withTh ((t.orFlags fl).set .vstart (BitVec.ofNat 64 i))) (fpTrap i fl)
  | none =>
    let t := s.writeX (s.writeHalf s.th h (vtMd s.th.vt) lo (n - lo) rs) h lo (n - lo) rs
    let t := (t.orFlags (h.flags rs (n - lo))).orSat (h.sats rs)
    .ok (s.finish (t.pushVq.set .vstart 0) words)

/-- A pair over elements [VSTART, n) (R191, R197, R198). It counts as two instructions in RETIRED (R37). -/
def State.pairwise (s : State) (h k : Half) (n : Nat) : Res :=
  let lo := s.th.vstart
  let rh := s.results h lo n
  let rk := s.results k lo n
  let en := s.th.ften
  let stop := stopMin (h.stop en lo rh) (k.stop en lo rk)
  let m := match stop with | some i => i - lo | none => n - lo
  let dead := vtMd s.th.vt && decide (h.vd ≠ k.vd)
  let t := s.writeHalf (s.writeHalf s.th h dead lo m rh) k dead lo m rk
  let t := s.writeX (s.writeX t h lo m rh) k lo m rk
  match stop with
  | some i =>
    let fl := h.flags rh (m + 1) ||| k.flags rk (m + 1)
    .trap (s.withTh ((t.orFlags fl).set .vstart (BitVec.ofNat 64 i))) (fpTrap i fl)
  | none =>
    let t := (t.orFlags (h.flags rh m ||| k.flags rk m)).orSat (h.sats rh ||| k.sats rk)
    .ok ((s.withTh ((t.pushVq.set .vstart 0).advance 3 2)).retired s.cur 2)

/-- An instruction on the vector as a whole that raised `fl` (R211): without `.x`, an enabled flag traps at element 0 and
nothing is written; otherwise it completes on `t`. -/
def State.wholeFlags (s : State) (md : VMod) (fl : BitVec 5) (t : Thread) : Res :=
  if fl &&& s.th.ften ≠ 0 ∧ (modX md).isNone then
    .trap (s.withTh ((s.th.orFlags fl).set .vstart 0)) (fpTrap 0 fl)
  else .ok (s.finish ((t.orFlags fl).pushVq.set .vstart 0) (modWords md))

end Sys2Proof.Machine
end

