-- ==== Sys2Proof/Machine/Scalar.lean ====
section
/-! DEFINITION. Integer register and immediate instructions (spec/05_scalar_instructions.md R138 to R140): majors 0x01 to
0x07. Arithmetic wraps modulo 2^64; none raises a flag or a trap. -/

namespace Sys2Proof.Machine

/-- A scalar instruction of `words` words that writes `v` to `d`. -/
def State.put (s : State) (d : SReg) (v : Word) (words : Nat) : Out := .next (s.finish (s.th.setX d v) words)

/-- 1 or 0. -/
def flagWord (b : Bool) : Word := if b then 1 else 0

/-- Signed division (R57). -/
def divW (a b : Word) : Word := if b = 0 then BitVec.allOnes 64 else a.sdiv b

/-- Unsigned division (R57). -/
def divuW (a b : Word) : Word := if b = 0 then BitVec.allOnes 64 else a / b

/-- Signed remainder, of the dividend's sign (R57). -/
def remW (a b : Word) : Word := if b = 0 then a else a.srem b

/-- Unsigned remainder (R57). -/
def remuW (a b : Word) : Word := if b = 0 then a else a % b

/-- Leading zero bits (R138). -/
def clzW (a : Word) : Word := BitVec.ofNat 64 ((List.range 64).findIdx (fun i => a.getMsbD i))

/-- Trailing zero bits (R138). -/
def ctzW (a : Word) : Word := BitVec.ofNat 64 ((List.range 64).findIdx (fun i => a.getLsbD i))

/-- 1 bits (R138). -/
def popcW (a : Word) : Word := BitVec.ofNat 64 ((List.range 64).countP (fun i => a.getLsbD i))

/-- The low byte, halfword or word, sign-extended (R138). -/
def sextW (w : ExtW) (a : Word) : Word :=
  match w with
  | .b => (a.extractLsb' 0 8).signExtend 64
  | .h => (a.extractLsb' 0 16).signExtend 64
  | .w => (a.extractLsb' 0 32).signExtend 64

/-- The low byte, halfword or word, zero above (R138). -/
def zextW (w : ExtW) (a : Word) : Word :=
  match w with
  | .b => (a.extractLsb' 0 8).setWidth 64
  | .h => (a.extractLsb' 0 16).setWidth 64
  | .w => (a.extractLsb' 0 32).setWidth 64

/-- `add` (R138). -/
def execAdd (d a b : SReg) (s : State) : Out := s.put d (s.x a + s.x b) 1

/-- `sub` (R138). -/
def execSub (d a b : SReg) (s : State) : Out := s.put d (s.x a - s.x b) 1

/-- `and` (R138). -/
def execAnd (d a b : SReg) (s : State) : Out := s.put d (s.x a &&& s.x b) 1

/-- `or` (R138). -/
def execOr (d a b : SReg) (s : State) : Out := s.put d (s.x a ||| s.x b) 1

/-- `xor` (R138). -/
def execXor (d a b : SReg) (s : State) : Out := s.put d (s.x a ^^^ s.x b) 1

/-- `andn` (R138). -/
def execAndn (d a b : SReg) (s : State) : Out := s.put d (s.x a &&& ~~~ s.x b) 1

/-- `sll`: the shift is b mod 64 (R138). -/
def execSll (d a b : SReg) (s : State) : Out := s.put d (s.x a <<< ((s.x b).toNat % 64)) 1

/-- `srl` (R138). -/
def execSrl (d a b : SReg) (s : State) : Out := s.put d (s.x a >>> ((s.x b).toNat % 64)) 1

/-- `sra` (R138). -/
def execSra (d a b : SReg) (s : State) : Out := s.put d ((s.x a).sshiftRight ((s.x b).toNat % 64)) 1

/-- `slt` (R138). -/
def execSlt (d a b : SReg) (s : State) : Out := s.put d (flagWord ((s.x a).slt (s.x b))) 1

/-- `sltu` (R138). -/
def execSltu (d a b : SReg) (s : State) : Out := s.put d (flagWord ((s.x a).ult (s.x b))) 1

/-- `min` (R138). -/
def execMin (d a b : SReg) (s : State) : Out := s.put d (if (s.x a).slt (s.x b) then s.x a else s.x b) 1

/-- `max` (R138). -/
def execMax (d a b : SReg) (s : State) : Out := s.put d (if (s.x a).slt (s.x b) then s.x b else s.x a) 1

/-- `minu` (R138). -/
def execMinu (d a b : SReg) (s : State) : Out := s.put d (if (s.x a).ult (s.x b) then s.x a else s.x b) 1

/-- `maxu` (R138). -/
def execMaxu (d a b : SReg) (s : State) : Out := s.put d (if (s.x a).ult (s.x b) then s.x b else s.x a) 1

/-- `mul` (R138). -/
def execMul (d a b : SReg) (s : State) : Out := s.put d (s.x a * s.x b) 1

/-- `mulh`: bits 127..64 of the signed product (R138). -/
def execMulh (d a b : SReg) (s : State) : Out := s.put d (((s.x a).signExtend 128 * (s.x b).signExtend 128).extractLsb' 64 64) 1

/-- `mulhu`: bits 127..64 of the unsigned product (R138). -/
def execMulhu (d a b : SReg) (s : State) : Out := s.put d (((s.x a).setWidth 128 * (s.x b).setWidth 128).extractLsb' 64 64) 1

/-- `div` (R57) (R138). -/
def execDiv (d a b : SReg) (s : State) : Out := s.put d (divW (s.x a) (s.x b)) 1

/-- `divu` (R57) (R138). -/
def execDivu (d a b : SReg) (s : State) : Out := s.put d (divuW (s.x a) (s.x b)) 1

/-- `rem` (R57) (R138). -/
def execRem (d a b : SReg) (s : State) : Out := s.put d (remW (s.x a) (s.x b)) 1

/-- `remu` (R57) (R138). -/
def execRemu (d a b : SReg) (s : State) : Out := s.put d (remuW (s.x a) (s.x b)) 1

/-- `clz` (R138). -/
def execClz (d a : SReg) (s : State) : Out := s.put d (clzW (s.x a)) 1

/-- `ctz` (R138). -/
def execCtz (d a : SReg) (s : State) : Out := s.put d (ctzW (s.x a)) 1

/-- `popc` (R138). -/
def execPopc (d a : SReg) (s : State) : Out := s.put d (popcW (s.x a)) 1

/-- `sext` (R138). -/
def execSext (d a : SReg) (wid : ExtW) (s : State) : Out := s.put d (sextW wid (s.x a)) 1

/-- `zext` (R138). -/
def execZext (d a : SReg) (wid : ExtW) (s : State) : Out := s.put d (zextW wid (s.x a)) 1

/-- `addi` (R139). -/
def execAddi (d a : SReg) (imm : BitVec 14) (s : State) : Out := s.put d (s.x a + imm.signExtend 64) 1

/-- `addi` under WIDE (R110, R139). -/
def execAddiWide (d a : SReg) (imm : BitVec 34) (s : State) : Out := s.put d (s.x a + imm.signExtend 64) 2

/-- `andi` (R139). -/
def execAndi (d a : SReg) (imm : BitVec 12) (s : State) : Out := s.put d (s.x a &&& imm.signExtend 64) 1

/-- `ori` (R139). -/
def execOri (d a : SReg) (imm : BitVec 12) (s : State) : Out := s.put d (s.x a ||| imm.signExtend 64) 1

/-- `xori` (R139). -/
def execXori (d a : SReg) (imm : BitVec 12) (s : State) : Out := s.put d (s.x a ^^^ imm.signExtend 64) 1

/-- `slli` (R139). -/
def execSlli (d a : SReg) (sh : BitVec 6) (s : State) : Out := s.put d (s.x a <<< sh.toNat) 1

/-- `srli` (R139). -/
def execSrli (d a : SReg) (sh : BitVec 6) (s : State) : Out := s.put d (s.x a >>> sh.toNat) 1

/-- `srai` (R139). -/
def execSrai (d a : SReg) (sh : BitVec 6) (s : State) : Out := s.put d ((s.x a).sshiftRight sh.toNat) 1

/-- `slti` (R139). -/
def execSlti (d a : SReg) (imm : BitVec 13) (s : State) : Out := s.put d (flagWord ((s.x a).slt (imm.signExtend 64))) 1

/-- `sltiu` (R139). -/
def execSltiu (d a : SReg) (imm : BitVec 13) (s : State) : Out := s.put d (flagWord ((s.x a).ult (imm.signExtend 64))) 1

/-- `lhi` (R140). -/
def execLhi (d : SReg) (imm : BitVec 20) (s : State) : Out := s.put d (imm.signExtend 64 <<< 12) 1

/-- `lhi` under WIDE (R110, R140). -/
def execLhiWide (d : SReg) (imm : BitVec 40) (s : State) : Out := s.put d (imm.signExtend 64 <<< 12) 2

/-- `lpc` (R140). -/
def execLpc (d : SReg) (imm : BitVec 20) (s : State) : Out :=
  s.put d (s.th.pc.setWidth 64 + (imm.signExtend 64 <<< 12)) 1

/-- `lpc` under WIDE (R110, R140). -/
def execLpcWide (d : SReg) (imm : BitVec 40) (s : State) : Out :=
  s.put d (s.th.pc.setWidth 64 + (imm.signExtend 64 <<< 12)) 2

end Sys2Proof.Machine
end

