-- ==== Sys2Proof/Machine/ScalarMem.lean ====
section
/-! DEFINITION. Scalar loads and stores (spec/03_encoding.md R87; spec/05_scalar_instructions.md R143 to R147): majors 0x0C
to 0x0E, on this device, on its control space (spec/13_memory_hierarchy.md R326) and on another device
(spec/23_host_and_links.md R471 to R476; log 18). -/

namespace Sys2Proof.Machine

/-- An access may reach control space: a scalar load or store of 4 or 8 bytes under STATUS.PRIV = 1 (R326). -/
def State.ctlAllowed (s : State) (n : Nat) : Bool := s.th.priv && decide (n = 4 ∨ n = 8)

/-- Checks 1 and 2 of R144 for an access to another device, and the owner's key (spec/23_host_and_links.md R478; log 17). -/
def State.remoteCheck (s : State) (dev : Nat) (va : Word) (al elem : Nat) : Option Trap :=
  if va.toNat % al ≠ 0 then some { cause := 0x03, eval := va, elem := elem }
  else if !s.member dev then some { cause := 0x07, eval := va, elem := elem }
  else if !s.keys.contains s.th.owner then some { cause := 0x14, eval := va, elem := elem }
  else none

/-- A scalar access to another device: sent as one record, the seat waits, and the instruction completes with the data
returned, or with the failure reported (R475; log 18). -/
def State.scalarRemote (s : State) (dev : Nat) (va : Word) (a : Acc) (n data : Nat) (k : Nat → State → State) : Res :=
  match s.myRemotes.find? (fun (r : RemoteOp) => r.done) with
  | some r =>
    match r.fail with
    | some e => .trap s.dropRemotes { cause := 0x12, sub := BitVec.ofNat 8 e.2, eval := va, kind := a.kind }
    | none => .ok (k ((r.recs.head?.map (fun (u : UnitRec) => u.data.toNat)).getD 0) s.dropRemotes)
  | none =>
    match s.remoteCheck dev va n 0 with
    | some t => .trap s (t.by a)
    | none =>
      let s := s.drain
      .ok ((s.sendRemote dev s.th.owner (if a = .load then 0x01 else 0x03) [⟨va.toNat % 2 ^ 57, widthCode n, BitVec.ofNat 64 data⟩]).waitOn
        (.remote s.nextTag false))

/-- A scalar load of `n` bytes (R143 to R147, R331): `k` takes the value read. -/
def State.scalarLoad (s : State) (va : Word) (n : Nat) (acq : Bool) (k : Nat → State → State) : Res :=
  match s.remoteOf va with
  | some dev => s.scalarRemote dev va .load n 0 k
  | none =>
    match s.access s.ctx .load (s.ctlAllowed n) va n 0 with
    | .error t => .trap (s.reach s.ctx n [va]) t
    | .ok l =>
      if paKind l.pa = .ctl then
        let r := (s.walked s.ctx [va]).drain.ctlRead l.pa n
        .ok (k r.2 r.1)
      else
        let s := (s.walked s.ctx [va]).loadLine l acq
        match s.loadUnit s.ctx va n 0 with
        | .error t => .trap s t
        | .ok v => .ok (k v s)

/-- A scalar store of the low `n` bytes of `v` (R143 to R147): to ordinary memory it enters the load-store queue; to a
lattice region (R146) or to control space it is performed after the seat's older stores. A join leaves a dirty copy in the core's L1,
unless it is a release (R331). -/
def State.scalarStore (s : State) (va : Word) (n : Nat) (v : Nat) (rel : Bool) : Res :=
  match s.remoteOf va with
  | some dev => s.scalarRemote dev va .store n (v % 2 ^ (8 * n)) (fun _ s => s.adv 1)
  | none =>
    match s.access s.ctx .store (s.ctlAllowed n) va n 0 with
    | .error t => .trap (s.reach s.ctx n [va]) t
    | .ok l =>
      let s := s.walked s.ctx [va]
      if paKind l.pa = .ctl then .ok ((s.drain.ctlWrite l.pa n (v % 2 ^ (8 * n))).adv 1)
      else
        match l.region with
        | none => .ok ((s.enqueue ⟨l.pa, natLe n v, s.th.owner, rel, false⟩).adv 1)
        | some _ =>
          let s := s.drain
          match s.storeCheck s.ctx va n (v % 2 ^ (8 * n)) 0 with
          | .error t => .trap (s.refused s.ctx t) t
          | .ok l =>
            let s := s.storePerform s.ctx l n (v % 2 ^ (8 * n))
            .ok ((if rel then s else s.fillL1 (coreOf s.cur) (l.pa / 128) true).adv 1)

/-- A loaded value of `n` bytes as a register value (R143). -/
def extended (n : Nat) (signed : Bool) (v : Nat) : Word :=
  if signed then BitVec.ofInt 64 (toS (8 * n) v) else BitVec.ofNat 64 v

/-- A scalar load into `d` (R143). -/
def State.ld (s : State) (d : SReg) (va : Word) (n : Nat) (signed acq : Bool) : Out :=
  (s.scalarLoad va n acq (fun v s => s.finish (s.th.setX d (extended n signed v)) 1)).out

/-- A scalar store of register `d` (R143). -/
def State.st (s : State) (d : SReg) (va : Word) (n : Nat) (rel : Bool) : Out :=
  (s.scalarStore va n (s.x d).toNat rel).out

/-- `ld.b` (R143). Loads are performed at their turn, which is all the order `.acq` asks (R147; log 4). -/
def execLdB (d a : SReg) (acq : Bool) (imm : BitVec 10) (s : State) : Out :=
  s.ld d (s.addr a (scaled imm 1)) 1 true acq

/-- `ld.b` indexed (R87, R143). -/
def execLdBIndexed (d a b : SReg) (acq : Bool) (s : State) : Out :=
  s.ld d (s.addr a (s.x b)) 1 true acq

/-- `ld.h` (R143). Loads are performed at their turn, which is all the order `.acq` asks (R147; log 4). -/
def execLdH (d a : SReg) (acq : Bool) (imm : BitVec 10) (s : State) : Out :=
  s.ld d (s.addr a (scaled imm 2)) 2 true acq

/-- `ld.h` indexed (R87, R143). -/
def execLdHIndexed (d a b : SReg) (acq : Bool) (s : State) : Out :=
  s.ld d (s.addr a (s.x b)) 2 true acq

/-- `ld.w` (R143). Loads are performed at their turn, which is all the order `.acq` asks (R147; log 4). -/
def execLdW (d a : SReg) (acq : Bool) (imm : BitVec 10) (s : State) : Out :=
  s.ld d (s.addr a (scaled imm 4)) 4 true acq

/-- `ld.w` indexed (R87, R143). -/
def execLdWIndexed (d a b : SReg) (acq : Bool) (s : State) : Out :=
  s.ld d (s.addr a (s.x b)) 4 true acq

/-- `ld.d` (R143). Loads are performed at their turn, which is all the order `.acq` asks (R147; log 4). -/
def execLdD (d a : SReg) (acq : Bool) (imm : BitVec 10) (s : State) : Out :=
  s.ld d (s.addr a (scaled imm 8)) 8 false acq

/-- `ld.d` indexed (R87, R143). -/
def execLdDIndexed (d a b : SReg) (acq : Bool) (s : State) : Out :=
  s.ld d (s.addr a (s.x b)) 8 false acq

/-- `ld.bu` (R143). Loads are performed at their turn, which is all the order `.acq` asks (R147; log 4). -/
def execLdBu (d a : SReg) (acq : Bool) (imm : BitVec 10) (s : State) : Out :=
  s.ld d (s.addr a (scaled imm 1)) 1 false acq

/-- `ld.bu` indexed (R87, R143). -/
def execLdBuIndexed (d a b : SReg) (acq : Bool) (s : State) : Out :=
  s.ld d (s.addr a (s.x b)) 1 false acq

/-- `ld.hu` (R143). Loads are performed at their turn, which is all the order `.acq` asks (R147; log 4). -/
def execLdHu (d a : SReg) (acq : Bool) (imm : BitVec 10) (s : State) : Out :=
  s.ld d (s.addr a (scaled imm 2)) 2 false acq

/-- `ld.hu` indexed (R87, R143). -/
def execLdHuIndexed (d a b : SReg) (acq : Bool) (s : State) : Out :=
  s.ld d (s.addr a (s.x b)) 2 false acq

/-- `ld.wu` (R143). Loads are performed at their turn, which is all the order `.acq` asks (R147; log 4). -/
def execLdWu (d a : SReg) (acq : Bool) (imm : BitVec 10) (s : State) : Out :=
  s.ld d (s.addr a (scaled imm 4)) 4 false acq

/-- `ld.wu` indexed (R87, R143). -/
def execLdWuIndexed (d a b : SReg) (acq : Bool) (s : State) : Out :=
  s.ld d (s.addr a (s.x b)) 4 false acq

/-- `st.b` (R143, R147). -/
def execStB (d a : SReg) (rel : Bool) (imm : BitVec 10) (s : State) : Out :=
  s.st d (s.addr a (scaled imm 1)) 1 rel

/-- `st.b` indexed (R87, R143). -/
def execStBIndexed (d a b : SReg) (rel : Bool) (s : State) : Out :=
  s.st d (s.addr a (s.x b)) 1 rel

/-- `st.h` (R143, R147). -/
def execStH (d a : SReg) (rel : Bool) (imm : BitVec 10) (s : State) : Out :=
  s.st d (s.addr a (scaled imm 2)) 2 rel

/-- `st.h` indexed (R87, R143). -/
def execStHIndexed (d a b : SReg) (rel : Bool) (s : State) : Out :=
  s.st d (s.addr a (s.x b)) 2 rel

/-- `st.w` (R143, R147). -/
def execStW (d a : SReg) (rel : Bool) (imm : BitVec 10) (s : State) : Out :=
  s.st d (s.addr a (scaled imm 4)) 4 rel

/-- `st.w` indexed (R87, R143). -/
def execStWIndexed (d a b : SReg) (rel : Bool) (s : State) : Out :=
  s.st d (s.addr a (s.x b)) 4 rel

/-- `st.d` (R143, R147). -/
def execStD (d a : SReg) (rel : Bool) (imm : BitVec 10) (s : State) : Out :=
  s.st d (s.addr a (scaled imm 8)) 8 rel

/-- `st.d` indexed (R87, R143). -/
def execStDIndexed (d a b : SReg) (rel : Bool) (s : State) : Out :=
  s.st d (s.addr a (s.x b)) 8 rel

end Sys2Proof.Machine
end

