-- ==== Sys2Proof/Machine/Atomic.lean ====
section
/-! DEFINITION. Scalar atomics (spec/05_scalar_instructions.md R148 to R151): major 0x0F. The read and the write are one
step at the coherence point, after the seat's older stores (R145). -/

namespace Sys2Proof.Machine

/-- Checks 1 to 5 of an atomic on `n` bytes (R144, R148, R150, R151). -/
def State.atomicPlace (s : State) (c : Ctx) (va : Word) (n elem : Nat) : Except Trap Loc :=
  match s.remoteOf va with
  | some _ => .error { cause := if va.toNat % n ≠ 0 then 0x03 else 0x07, eval := va, elem := elem, kind := 1 }
  | none =>
    match s.access c .atomic false va n elem with
    | .error t => .error t
    | .ok l =>
      if l.region.isSome then .error { cause := 0x08, sub := 0x02, eval := va, elem := elem, kind := 1 } else .ok l

/-- All its checks: check 6 finds poison in what it reads (R144). -/
def State.atomicCheck (s : State) (c : Ctx) (va : Word) (n elem : Nat) : Except Trap Loc :=
  match s.atomicPlace c va n elem with
  | .error t => .error t
  | .ok l =>
    if s.poisoned c.owner l then
      .error { cause := 0x0D, eval := va, elem := elem, poisons := if l.psn then none else some l.pa, kind := 1 }
    else .ok l

/-- What atomics at some addresses read before their checks 6: translations, and the lines of those that pass checks 1 to 5 (R144,
R150). -/
def State.atomicServe (s : State) (c : Ctx) (n : Nat) (vas : List Word) : State :=
  let s := s.reach c n vas
  s.serveAt c (vas.filter (fun va => match s.atomicPlace c va n 0 with | .ok _ => true | .error _ => false))

/-- The read and write of an atomic at a checked place: `f` gives the new value from the old, or none (R148). Every L1 copy of the
line is recalled first (R150). -/
def State.atomicAt (s : State) (l : Loc) (n : Nat) (f : Nat → Option Nat) : State × Nat :=
  let old := leNat (s.readAt s.th.owner [] l.pa n)
  match f old with
  | none => (s.dropL1 (l.pa / 128), old)
  | some v => (s.writePhys s.th.owner l.pa (natLe n v), old)

/-- An atomic on 4 or 8 bytes (R148): sd receives the old value, sign-extended. -/
def State.atomic (s : State) (d a : SReg) (dbl : Bool) (f : Nat → Nat → Option Nat) : Out :=
  let n := if dbl then 8 else 4
  let s := s.drain.atomicServe s.ctx n [s.x a]
  (match s.atomicCheck s.ctx (s.x a) n 0 with
   | .error t => Res.trap s t
   | .ok l =>
     let r := s.atomicAt l n (f (8 * n))
     .ok (r.1.finish (r.1.th.setX d (extended n true r.2)) 1)).out

/-- The operand of an atomic (R148). -/
def State.amoArg (s : State) (b : SReg) (w : Nat) : Nat := (s.x b).toNat % 2 ^ w

/-- The new value of each operation (R148). -/
def amoNew (op : VAmoOp) (w m old : Nat) : Nat :=
  match op with
  | .add => (old + m) % 2 ^ w
  | .and => Nat.land old m
  | .or => Nat.lor old m
  | .xor => Nat.xor old m
  | .min => if toS w m < toS w old then m else old
  | .max => if toS w old < toS w m then m else old
  | .minu => Nat.min old m
  | .maxu => Nat.max old m
  | .swap => m

/-- `amo.add` (R148, R149). It is performed after the seat's older stores, at its turn: `.acq` and `.rel` ask no more. -/
def execAmoAdd (d a b : SReg) (dbl _rel _acq : Bool) (s : State) : Out :=
  s.atomic d a dbl (fun w old => some (amoNew .add w (s.amoArg b w) old))

/-- `amo.and` (R148, R149). It is performed after the seat's older stores, at its turn: `.acq` and `.rel` ask no more. -/
def execAmoAnd (d a b : SReg) (dbl _rel _acq : Bool) (s : State) : Out :=
  s.atomic d a dbl (fun w old => some (amoNew .and w (s.amoArg b w) old))

/-- `amo.or` (R148, R149). It is performed after the seat's older stores, at its turn: `.acq` and `.rel` ask no more. -/
def execAmoOr (d a b : SReg) (dbl _rel _acq : Bool) (s : State) : Out :=
  s.atomic d a dbl (fun w old => some (amoNew .or w (s.amoArg b w) old))

/-- `amo.xor` (R148, R149). It is performed after the seat's older stores, at its turn: `.acq` and `.rel` ask no more. -/
def execAmoXor (d a b : SReg) (dbl _rel _acq : Bool) (s : State) : Out :=
  s.atomic d a dbl (fun w old => some (amoNew .xor w (s.amoArg b w) old))

/-- `amo.min` (R148, R149). It is performed after the seat's older stores, at its turn: `.acq` and `.rel` ask no more. -/
def execAmoMin (d a b : SReg) (dbl _rel _acq : Bool) (s : State) : Out :=
  s.atomic d a dbl (fun w old => some (amoNew .min w (s.amoArg b w) old))

/-- `amo.max` (R148, R149). It is performed after the seat's older stores, at its turn: `.acq` and `.rel` ask no more. -/
def execAmoMax (d a b : SReg) (dbl _rel _acq : Bool) (s : State) : Out :=
  s.atomic d a dbl (fun w old => some (amoNew .max w (s.amoArg b w) old))

/-- `amo.minu` (R148, R149). It is performed after the seat's older stores, at its turn: `.acq` and `.rel` ask no more. -/
def execAmoMinu (d a b : SReg) (dbl _rel _acq : Bool) (s : State) : Out :=
  s.atomic d a dbl (fun w old => some (amoNew .minu w (s.amoArg b w) old))

/-- `amo.maxu` (R148, R149). It is performed after the seat's older stores, at its turn: `.acq` and `.rel` ask no more. -/
def execAmoMaxu (d a b : SReg) (dbl _rel _acq : Bool) (s : State) : Out :=
  s.atomic d a dbl (fun w old => some (amoNew .maxu w (s.amoArg b w) old))

/-- `amo.swap` (R148, R149). It is performed after the seat's older stores, at its turn: `.acq` and `.rel` ask no more. -/
def execAmoSwap (d a b : SReg) (dbl _rel _acq : Bool) (s : State) : Out :=
  s.atomic d a dbl (fun w old => some (amoNew .swap w (s.amoArg b w) old))

/-- `cas` (R148): the comparison value is sd, 0 for s0. -/
def execCas (d a b : SReg) (dbl _rel _acq : Bool) (s : State) : Out :=
  s.atomic d a dbl (fun w old => if old = (s.x d).toNat % 2 ^ w then some (s.amoArg b w) else none)

end Sys2Proof.Machine
end

