-- ==== Sys2Proof/Machine/Branch.lean ====
section
/-! DEFINITION. Branches and jumps (spec/03_encoding.md R86; spec/05_scalar_instructions.md R141, R142): majors 0x08 to
0x0B. Targets are computed modulo 2^57. -/

namespace Sys2Proof.Machine

/-- The focused thread goes to `pc`; the instruction counts in RETIRED (R37). -/
def State.goto (s : State) (t : Thread) (pc : PC) : State :=
  (s.withTh { t.set .retired (t.get .retired + 1) with pc := pc }).retired s.cur 1

/-- A pc-relative target: PC + 4 · offset, modulo 2^57 (R86, R141). -/
def target (pc : PC) {n : Nat} (off : BitVec n) : PC := pc + off.signExtend 57 * 4

/-- A branch: to its target when `c` holds (R141). -/
def State.branch (s : State) (off : BitVec 14) (c : Bool) : Out :=
  .next (if c then s.goto s.th (target s.th.pc off) else s.adv 1)

/-- `beq` (R141). -/
def execBeq (a b : SReg) (off : BitVec 14) (s : State) : Out := s.branch off (s.x a == s.x b)

/-- `bne` (R141). -/
def execBne (a b : SReg) (off : BitVec 14) (s : State) : Out := s.branch off (s.x a != s.x b)

/-- `blt` (R141). -/
def execBlt (a b : SReg) (off : BitVec 14) (s : State) : Out := s.branch off ((s.x a).slt (s.x b))

/-- `bge` (R141). -/
def execBge (a b : SReg) (off : BitVec 14) (s : State) : Out := s.branch off (!(s.x a).slt (s.x b))

/-- `bltu` (R141). -/
def execBltu (a b : SReg) (off : BitVec 14) (s : State) : Out := s.branch off ((s.x a).ult (s.x b))

/-- `bgeu` (R141). -/
def execBgeu (a b : SReg) (off : BitVec 14) (s : State) : Out := s.branch off (!(s.x a).ult (s.x b))

/-- PC + 4 as a register value (R142), modulo 2^57 as targets are (log 47). -/
def Thread.link (t : Thread) : Word := (t.pc + 4).setWidth 64

/-- `jlr` (R142): the target comes from the value sa held before. One that is misaligned and out of range too raises 0x03: R142 orders
the two causes not (DESIGN CHOICE; log 57). -/
def execJlr (d a : SReg) (off : BitVec 14) (s : State) : Out :=
  let t := s.x a + off.signExtend 64 * 4
  if t.extractLsb' 0 2 ≠ 0 then (Res.trap s { cause := 0x03, eval := t }).out
  else if t.extractLsb' 57 7 ≠ 0 then (Res.trap s { cause := 0x07, eval := t }).out
  else .next (s.goto (s.th.setX d s.th.link) (t.extractLsb' 0 57))

/-- `j` (R86). -/
def execJ (off : BitVec 26) (s : State) : Out := .next (s.goto s.th (target s.th.pc off))

/-- `jl` (R142): the link goes to s31. -/
def execJl (off : BitVec 26) (s : State) : Out := .next (s.goto (s.th.setX 31 s.th.link) (target s.th.pc off))

end Sys2Proof.Machine
end

