-- ==== Sys2Proof/Machine/Bench.lean ====
section
/-! DEFINITION. The Bench (spec/12_execution_model.md R314 to R320): which octets of lanes a seat holds, the grant rule,
short seats, reclaim and reservations; and the reflow of registers on a changed grant
(spec/06_vector_integer_instructions.md R166, R167). -/

namespace Sys2Proof.Machine

/-! ## Octets -/

/-- The octets a thread holds, ascending (R39). -/
def Thread.octetList (t : Thread) : List Nat := (List.range 8).filter (fun o => (t.get .grant).getLsbD (8 + o))

/-- GRANT for a list of octets (R39). -/
def grantWord (os : List Nat) : Word := BitVec.ofNat 64 (os.foldl (fun a o => a + 2 ^ (8 + o)) os.length)

/-- The octets of core `c` that no seat holds and no reflow still returns (R314, R315). -/
def State.freeOctets (s : State) (c : Nat) : List Nat :=
  (List.range 8).filter (fun o =>
    !((seatsOf c).any (fun n => (s.seat n).octetList.contains o)) &&
    !((s.core c).returning.any (fun (e : Nat × Nat) => decide (e.1 = o))))

/-- An octet is reserved for a seat (R317). -/
def Core.reservedFor (k : Core) (o n : Nat) : Bool := k.resv.any (fun e => decide (e.1 = o ∧ e.2 = n))

/-- An octet is reserved. -/
def Core.reserved (k : Core) (o : Nat) : Bool := k.resv.any (fun e => decide (e.1 = o))

/-- The free octets available to seat `n`, those reserved for it first, each part ascending (R315). -/
def State.available (s : State) (n : Nat) : List Nat :=
  let k := s.core (coreOf n)
  let free := s.freeOctets (coreOf n)
  free.filter (fun o => k.reservedFor o n) ++ free.filter (fun o => !k.reserved o)

/-- GCEIL of a thread. -/
def Thread.gceil (t : Thread) : Nat := (t.get .gceil).toNat

/-- The octets seat `n` holds after a request for `q` under a ceiling; `none` when it must wait (R315, R316). -/
def State.benchGrant (s : State) (n q ceil : Nat) : Option (List Nat) :=
  let held := (s.seat n).octetList
  let avail := s.available n
  let k := Nat.min q (Nat.min ceil (held.length + avail.length))
  if 1 ≤ q ∧ k = 0 then none
  else if k ≤ held.length then some (held.take k)
  else
    let added := avail.take (k - held.length)
    some ((List.range 8).filter (fun o => held.contains o || added.contains o))

/-- Seat `n` holds the octets `os`: reservations it uses end, and what it gives up returns to the pool when its reflow
completes, or, when it holds none and nothing is moved, at once (R315, R320). -/
def State.benchTake (s : State) (n : Nat) (os : List Nat) : State :=
  let t := s.seat n
  let gone := t.octetList.filter (fun o => !os.contains o)
  let k := s.core (coreOf n)
  let k := { k with
    resv := k.resv.filter (fun (e : Nat × Nat) => !(decide (e.2 = n) && os.contains e.1))
    returning := k.returning ++ (if os.isEmpty then [] else gone.map (fun o => (o, n)))
    shortQ := leaveShort n k.shortQ }
  (s.setCore (coreOf n) k).setSeat n (t.set .grant (grantWord os))

/-! ## Reclaim -/

/-- The octets of seat `v` not already reclaimed (R317). -/
def State.reclaimable (s : State) (v : Nat) : List Nat :=
  (s.seat v).octetList.filter (fun o => !(s.core (coreOf v)).reserved o)

/-- The choice of R317 between two victims: the lower priority, then the more octets, then the higher seat number. -/
def State.betterVictim (s : State) (a b : Nat) : Bool :=
  let pa := (s.seat a).prio
  let pb := (s.seat b).prio
  let ka := (s.reclaimable a).length
  let kb := (s.reclaimable b).length
  decide (pa < pb) || (decide (pa = pb) && (decide (kb < ka) || (decide (ka = kb) && decide (b < a))))

/-- The victim chosen among some seats. -/
def State.victim (s : State) (vs : List Nat) : Option Nat :=
  vs.foldl (fun b v => match b with
    | none => some v
    | some w => if s.betterVictim v w then some v else some w) none

/-- The ceiling of seat `n` at its next `setvl` (R315, R317). One that the supervisor wrote keeps its value (R318); the seat then gives up
the octets that are reserved for others all the same (log 22). -/
def State.ceiling (s : State) (n : Nat) : Nat :=
  let t := s.seat n
  let k := (s.reclaimable n).length
  if t.ceilHeld ∧ k < t.octets then Nat.min t.gceil (Nat.max 1 k) else t.gceil

/-- One octet reclaimed for seat `n` (R317): the victim's ceiling falls by one, and as far as the victim needs to release the octet, and its
highest octet not yet reclaimed is reserved. A ceiling that the supervisor wrote stays (R318; log 22 for both). -/
def State.reclaimOne (s : State) (n : Nat) : State :=
  let c := coreOf n
  let k := s.core c
  let can := (seatsOf c).filter (fun v => decide (v ≠ n) && decide (2 ≤ (s.reclaimable v).length))
  let low := can.filter (fun v => decide ((s.seat v).prio < (s.seat n).prio))
  let none? := (s.seat n).octetList.isEmpty && !(k.resv.any (fun (e : Nat × Nat) => decide (e.2 = n)))
  match s.victim (if low.isEmpty && none? then can else low) with
  | none => s
  | some v =>
    let t := s.seat v
    let low := Nat.max 1 (Nat.min (t.gceil - 1) ((s.reclaimable v).length - 1))
    let t := { (if t.ceilHeld then t else t.set .gceil (BitVec.ofNat 64 low)) with
      ceilFell := some (t.ceilFell.getD s.cycle), lowered := !t.ceilHeld }
    match (s.reclaimable v).getLast? with
    | none => s
    | some o => (s.setSeat v t).setCore c { k with resv := k.resv ++ [(o, n)] }

/-- Octets reclaimed one at a time. -/
def State.reclaim (s : State) (n : Nat) : Nat → State
  | 0 => s
  | k + 1 => (s.reclaimOne n).reclaim n k

/-- The shortfall of seat `n` holding `h` octets on a demand `d`, beyond what is reserved for it, is reclaimed (R317). -/
def State.demand (s : State) (n h d : Nat) : State :=
  s.reclaim n (d - h - ((s.core (coreOf n)).resv.filter (fun (e : Nat × Nat) => e.2 = n)).length)

/-- A `setvl` of seat `n` with demand `d` begins: what the seat's last reflow still returned is in the pool (R166), and its
reservations lapse when it already meets the demand (R317). -/
def State.beginSetvl (s : State) (n d : Nat) : State :=
  let k := s.core (coreOf n)
  s.setCore (coreOf n) { k with
    returning := dropSeat n k.returning
    resv := if d ≤ (s.seat n).octets then dropSeat n k.resv else k.resv }

/-- Seat `n` waits for its first octet (R316). -/
def State.becomeShort (s : State) (n : Nat) : State :=
  let k := s.core (coreOf n)
  if k.shortQ.any (fun (e : Nat × Nat) => decide (e.1 = n)) then s
  else s.setCore (coreOf n) { k with shortQ := k.shortQ ++ [(n, s.cycle)] }

/-! ## Reflow -/

/-- The elements of width `w` one register holds. -/
def Thread.capacity (t : Thread) (w : Nat) : Nat := t.portion * 32 / w * t.lanes

/-- The registers that hold values. -/
def Thread.validRegs (t : Thread) : List Nat := (List.range t.nreg).filter (fun r => t.vvalid.getLsbD r)

/-- A value that a dead element may take, from its previous bits (R159; log 8). -/
def State.deadBits (s : State) (r w i old : Nat) : Nat := deadValue (Config.deadChoice (s.pick (r * 2 ^ 20 + i))) w old

/-- The registers of `old` laid out on `new`'s grant: the first `n` elements of width `w` keep their values, every other
one is dead (R166). One that the old grant had no room for has previous bits 0, where the manual says nothing (DESIGN CHOICE; log 8). -/
def State.reflow (s : State) (old new : Thread) (w n : Nat) : Thread :=
  old.validRegs.foldl (fun t r =>
    (List.range (new.capacity w)).foldl (fun t i =>
      let v := if i < old.capacity w then old.elem r w i else 0
      t.setElem r w i (if i < n then v else s.deadBits r w i v)) t) new

/-- Under TD = 1 every element of width `w` from `n` on is dead (R27, R159). -/
def State.killTail (s : State) (t : Thread) (w n : Nat) : Thread :=
  t.validRegs.foldl (fun t r =>
    (List.range (t.capacity w - n)).foldl (fun t i =>
      t.setElem r w (n + i) (s.deadBits r w (n + i) (t.elem r w (n + i)))) t) t

/-- The elements [0, n) of width `w` of `t`'s registers as they are in `old`, under the grant both have (R166). -/
def Thread.keepElems (old t : Thread) (w n : Nat) : Thread :=
  t.validRegs.foldl (fun t r => (List.range n).foldl (fun t i => t.setElem r w i (old.elem r w i)) t) t

/-- Bits of VSTAT (R39). -/
def Thread.setVstat (t : Thread) (bit : Nat) (b : Bool) : Thread :=
  t.set .vstat ((t.get .vstat &&& ~~~(1#64 <<< bit)) ||| (if b then 1#64 <<< bit else 0))

/-- The thread after `setvl` has its octets `os` (R164, R166 to R168). Under TD = 1 the tail dies, but for the bits of the
elements that a changed grant has moved, which keep their values; octets are then taken back without moving anything. `req` is the requested
length, `q` the request. -/
def State.setLength (s : State) (old : Thread) (os : List Nat) (vt req : Word) (q : Nat) : Thread :=
  let changed := decide (os ≠ old.octetList)
  let t := (old.set .grant (grantWord os)).set .vtype vt
  let vl := Nat.min req.toNat t.vlmax
  let t := t.set .vl (BitVec.ofNat 64 vl)
  let t := if os.isEmpty then t.invalidate else t
  let wo := old.ew
  let wn := t.ew
  let n := if vtTd vt then Nat.min old.vlc ((t.vlc * wn + wo - 1) / wo) else Nat.min old.vlc (t.capacity wo)
  let t := if changed && !os.isEmpty then s.reflow old t wo n else t
  let vlc := t.vlc
  let t :=
    if vtTd vt && !os.isEmpty then
      let dead := s.killTail t wn vlc
      let dead := if changed then t.keepElems dead wo n else dead
      let kept := (os.zipIdx.filter (fun e => decide (8 * e.2 < vlc) || (decide (1 ≤ q) && decide (e.2 = 0)))).map Prod.fst
      let t := dead.set .grant (grantWord kept)
      if kept.isEmpty then t.invalidate else t
    else t
  let shrunk := decide (old.gceil < q) &&
    decide (vl < Nat.min req.toNat (vlmaxOf t.portion (8 * q) vt))
  (t.setVstat 0 shrunk).set .vstart 0

/-- `setvl` and `setvli` on a checked VTYPE (R164 to R168): the request is `q` octets. -/
def State.setvl (s : State) (d : SReg) (vt req : Word) (q : Nat) : Res :=
  let n := s.cur
  let ceil := s.ceiling n
  let s := (s.withTh { s.th with ceilFell := none }).beginSetvl n (Nat.min q ceil)
  match s.benchGrant n q ceil with
  | none => .ok (((s.becomeShort n).demand n 0 (Nat.min q ceil)).waitOn (.lanes q))
  | some os =>
    let old := s.th
    let t := s.setLength old os vt req q
    let s := (s.benchTake n os).demand n os.length (Nat.min q ceil)
    .ok (s.finish ((t.setX d (t.get .vl)).pushVq) 1)

end Sys2Proof.Machine
end

