-- ==== Sys2Proof/Machine/VInt.lean ====
section
/-! DEFINITION. Vector integer arithmetic (spec/06_vector_integer_instructions.md R158, R160, R172): major 0x18. Operations
work on unsigned `w`-bit numbers and are cut to `w` bits where they are written. -/

namespace Sys2Proof.Machine

/-- Quotient truncated towards zero; every bit set for a divisor of 0 (R57). -/
def quotInt (a b : Int) : Int := if b = 0 then -1 else Int.tdiv a b

/-- Remainder of the dividend's sign; the dividend for a divisor of 0 (R57). -/
def remInt (a b : Int) : Int := if b = 0 then a else Int.tmod a b

/-- 1 bits of a number of `w` bits. -/
def popNat (w a : Nat) : Nat := (List.range w).countP (fun i => a.testBit i)

/-- Leading zeros of a number of `w` bits. -/
def clzNat (w a : Nat) : Nat := if a = 0 then w else w - 1 - a.log2

/-- R172: the operation on `w`-bit elements a, b and the old destination c. -/
def intOp (o : IntOp) (w a b c : Nat) : Nat :=
  let sa := toS w a
  let sb := toS w b
  match o with
  | .add => a + b
  | .sub => a + 2 ^ w - b
  | .rsub => b + 2 ^ w - a
  | .mul => a * b
  | .mulh => ofS w (sa * sb / (2 ^ w : Nat))
  | .mulhu => a * b / 2 ^ w
  | .macc => c + a * b
  | .nmsac => ofS w ((c : Int) - a * b)
  | .div => ofS w (quotInt sa sb)
  | .divu => ofS w (quotInt a b)
  | .rem => ofS w (remInt sa sb)
  | .remu => ofS w (remInt a b)
  | .min => if sa ≤ sb then a else b
  | .max => if sa ≤ sb then b else a
  | .minu => Nat.min a b
  | .maxu => Nat.max a b
  | .and => Nat.land a b
  | .or => Nat.lor a b
  | .xor => Nat.xor a b
  | .sll => a * 2 ^ (b % w)
  | .srl => a / 2 ^ (b % w)
  | .sra => ofS w (sa / (2 ^ (b % w) : Nat))
  | .clz => clzNat w a
  | .popc => popNat w a

/-- Operand b as a number of `w` bits: the element, or the scalar's low bits (R160). -/
def Thread.srcInt (t : Thread) (w : Nat) (b : VSrc) (i : Nat) : Nat :=
  match b with
  | .reg v => t.elem v.toNat w i
  | .scalar r => (t.x r).toNat % 2 ^ w

/-- An operation of major 0x18 as an element-wise computation (R172). -/
def State.intHalf (s : State) (o : IntOp) (vd va : VReg) (b : VSrc) (md : VMod) : Half :=
  let t := s.th
  let w := t.ew
  { md := md, vd := vd.toNat, w := w
    f := fun i => { bits := intOp o w (t.elem va.toNat w i) (t.srcInt w b i) (t.elem vd.toNat w i) } }

/-- FMT 0 or 1, without a port (R98). -/
def intFmt (vt : Word) : Bool := decide (vtFmt vt ≤ 1) && portClear vt

/-- The registers a two-source instruction names. -/
def vregs (vd va : VReg) (b : VSrc) : List Nat := vd.toNat :: va.toNat :: srcRegs b

/-- An instruction of major 0x18 (R158, R172). -/
def State.vInt (s : State) (o : IntOp) (vd va : VReg) (b : VSrc) (md : VMod) : Out :=
  (s.guardTrap (s.vCheck md true (vregs vd va b) (intFmt s.th.vt)) fun _ =>
    s.elementwise (s.intHalf o vd va b md) s.th.vlc (modWords md)).out

/-- `vadd` (R172). -/
def execVadd (vd va : VReg) (b : VSrc) (md : VMod) (s : State) : Out := s.vInt .add vd va b md

/-- `vsub` (R172). -/
def execVsub (vd va : VReg) (b : VSrc) (md : VMod) (s : State) : Out := s.vInt .sub vd va b md

/-- `vrsub` (R172). -/
def execVrsub (vd va : VReg) (b : VSrc) (md : VMod) (s : State) : Out := s.vInt .rsub vd va b md

/-- `vmul` (R172). -/
def execVmul (vd va : VReg) (b : VSrc) (md : VMod) (s : State) : Out := s.vInt .mul vd va b md

/-- `vmulh` (R172). -/
def execVmulh (vd va : VReg) (b : VSrc) (md : VMod) (s : State) : Out := s.vInt .mulh vd va b md

/-- `vmulhu` (R172). -/
def execVmulhu (vd va : VReg) (b : VSrc) (md : VMod) (s : State) : Out := s.vInt .mulhu vd va b md

/-- `vmacc` (R172). -/
def execVmacc (vd va : VReg) (b : VSrc) (md : VMod) (s : State) : Out := s.vInt .macc vd va b md

/-- `vnmsac` (R172). -/
def execVnmsac (vd va : VReg) (b : VSrc) (md : VMod) (s : State) : Out := s.vInt .nmsac vd va b md

/-- `vdiv` (R172). -/
def execVdiv (vd va : VReg) (b : VSrc) (md : VMod) (s : State) : Out := s.vInt .div vd va b md

/-- `vdivu` (R172). -/
def execVdivu (vd va : VReg) (b : VSrc) (md : VMod) (s : State) : Out := s.vInt .divu vd va b md

/-- `vrem` (R172). -/
def execVrem (vd va : VReg) (b : VSrc) (md : VMod) (s : State) : Out := s.vInt .rem vd va b md

/-- `vremu` (R172). -/
def execVremu (vd va : VReg) (b : VSrc) (md : VMod) (s : State) : Out := s.vInt .remu vd va b md

/-- `vmin` (R172). -/
def execVmin (vd va : VReg) (b : VSrc) (md : VMod) (s : State) : Out := s.vInt .min vd va b md

/-- `vmax` (R172). -/
def execVmax (vd va : VReg) (b : VSrc) (md : VMod) (s : State) : Out := s.vInt .max vd va b md

/-- `vminu` (R172). -/
def execVminu (vd va : VReg) (b : VSrc) (md : VMod) (s : State) : Out := s.vInt .minu vd va b md

/-- `vmaxu` (R172). -/
def execVmaxu (vd va : VReg) (b : VSrc) (md : VMod) (s : State) : Out := s.vInt .maxu vd va b md

/-- `vand` (R172). -/
def execVand (vd va : VReg) (b : VSrc) (md : VMod) (s : State) : Out := s.vInt .and vd va b md

/-- `vor` (R172). -/
def execVor (vd va : VReg) (b : VSrc) (md : VMod) (s : State) : Out := s.vInt .or vd va b md

/-- `vxor` (R172). -/
def execVxor (vd va : VReg) (b : VSrc) (md : VMod) (s : State) : Out := s.vInt .xor vd va b md

/-- `vsll` (R172). -/
def execVsll (vd va : VReg) (b : VSrc) (md : VMod) (s : State) : Out := s.vInt .sll vd va b md

/-- `vsrl` (R172). -/
def execVsrl (vd va : VReg) (b : VSrc) (md : VMod) (s : State) : Out := s.vInt .srl vd va b md

/-- `vsra` (R172). -/
def execVsra (vd va : VReg) (b : VSrc) (md : VMod) (s : State) : Out := s.vInt .sra vd va b md

/-- `vclz` (R172). -/
def execVclz (vd va : VReg) (md : VMod) (s : State) : Out := s.vInt .clz vd va (.reg va) md

/-- `vpopc` (R172). -/
def execVpopc (vd va : VReg) (md : VMod) (s : State) : Out := s.vInt .popc vd va (.reg va) md

end Sys2Proof.Machine
end

