-- ==== Sys2Proof/Machine/VCmp.lean ====
section
/-! DEFINITION. Integer compares into masks and the early exit (spec/03_encoding.md R94;
spec/06_vector_integer_instructions.md R162, R176, R177): major 0x1B. -/

namespace Sys2Proof.Machine

/-- A condition on `w`-bit elements (R94, R176). -/
def intCmp (cc : IntCmp) (w a b : Nat) : Bool :=
  match cc with
  | .eq => decide (a = b)
  | .ne => decide (a ≠ b)
  | .lt => decide (toS w a < toS w b)
  | .le => decide (toS w a ≤ toS w b)
  | .gt => decide (toS w b < toS w a)
  | .ge => decide (toS w b ≤ toS w a)
  | .ltu => decide (a < b)
  | .leu => decide (a ≤ b)
  | .gtu => decide (b < a)
  | .geu => decide (b ≤ a)

/-- The relation at element `i`. -/
def Thread.cmpAt (t : Thread) (cc : IntCmp) (va : VReg) (b : VSrc) (i : Nat) : Bool :=
  intCmp cc t.ew (t.elem va.toNat t.ew i) (t.srcInt t.ew b i)

/-- A mask bit as an element of width one. -/
def bit (b : Bool) : Nat := if b then 1 else 0

/-- An instruction on the vector as a whole needs VSTART = 0 (R162). -/
def Thread.whole (t : Thread) : Bool := decide (t.vstart = 0)

/-- `vcmp` (R176). -/
def execVcmp (cc : IntCmp) (vd va : VReg) (b : VSrc) (md : VMod) (s : State) : Out :=
  (s.guardTrap (s.vCheck md true (vregs vd va b) (intFmt s.th.vt)) fun _ =>
    s.vDone md (s.loop md vd.toNat 1 s.th.vstart s.th.vl (fun i => bit (s.th.cmpAt cc va b i)))).out

/-- `vcmp.brk` (R177). -/
def execVcmpBrk (cc : IntCmp) (vd va : VReg) (b : VSrc) (md : VMod) (s : State) : Out :=
  (s.guardTrap (s.vCheck md true (vregs vd va b) (intFmt s.th.vt && s.th.whole)) fun _ =>
    let vl := s.th.vl
    match (s.actives md 0 vl).find? (fun i => s.th.cmpAt cc va b i) with
    | some e =>
      let t := s.loop md vd.toNat 1 0 (e + 1) (fun i => bit (s.th.cmpAt cc va b i))
      s.vDone md (((t.set .vstop (BitVec.ofNat 64 e)).set .vl (BitVec.ofNat 64 (e + 1))).setVstat 2 true)
    | none =>
      let t := s.loop md vd.toNat 1 0 vl (fun i => bit (s.th.cmpAt cc va b i))
      s.vDone md ((t.set .vstop (BitVec.ofNat 64 vl)).setVstat 2 false)).out

end Sys2Proof.Machine
end

