-- ==== Sys2Proof/Machine/VMask.lean ====
section
/-! DEFINITION. Mask instructions (spec/03_encoding.md R95; spec/06_vector_integer_instructions.md R161 to R163, R179 to
R181): major 0x1C. -/

namespace Sys2Proof.Machine

/-- Mask logic on bits [VSTART, VL), unmasked (R179). -/
def State.mkOp (s : State) (f : Bool → Bool → Bool) (vd va vb : VReg) (md : VMod) : Out :=
  (s.guardTrap (s.vCheck md true [vd.toNat, va.toNat, vb.toNat] (portClear s.th.vt)) fun _ =>
    s.vDone md (s.loop md vd.toNat 1 s.th.vstart s.th.vl
      (fun i => bit (f (s.th.maskBit va.toNat i) (s.th.maskBit vb.toNat i))))).out

/-- `mk.and` (R179). -/
def execMkAnd (vd va vb : VReg) (md : VMod) (s : State) : Out := s.mkOp (fun a b => a && b) vd va vb md

/-- `mk.or` (R179). -/
def execMkOr (vd va vb : VReg) (md : VMod) (s : State) : Out := s.mkOp (fun a b => a || b) vd va vb md

/-- `mk.xor` (R179). -/
def execMkXor (vd va vb : VReg) (md : VMod) (s : State) : Out := s.mkOp (fun a b => a != b) vd va vb md

/-- `mk.andn` (R179). -/
def execMkAndn (vd va vb : VReg) (md : VMod) (s : State) : Out := s.mkOp (fun a b => a && !b) vd va vb md

/-- `mk.not` (R179). -/
def execMkNot (vd va : VReg) (md : VMod) (s : State) : Out := s.mkOp (fun a _ => !a) vd va va md

/-- The active elements below VL whose bit of `va` is set, ascending (R180). -/
def State.setBits (s : State) (va : VReg) (md : VMod) : List Nat :=
  (s.actives md 0 s.th.vl).filter (fun i => s.th.maskBit va.toNat i)

/-- An instruction of this major that writes a scalar (R180). -/
def State.mkScalar (s : State) (d : SReg) (va : VReg) (md : VMod) (v : Word) : Out :=
  (s.guardTrap (s.vCheck md true [va.toNat] (portClear s.th.vt && s.th.whole)) fun _ =>
    s.vDone md (s.th.setX d v)).out

/-- `mcount` (R180). -/
def execMcount (d : SReg) (va : VReg) (md : VMod) (s : State) : Out :=
  s.mkScalar d va md (BitVec.ofNat 64 (s.setBits va md).length)

/-- `mfirst` (R180): −1 when no bit is set. -/
def execMfirst (d : SReg) (va : VReg) (md : VMod) (s : State) : Out :=
  s.mkScalar d va md (match (s.setBits va md).head? with | some i => BitVec.ofNat 64 i | none => BitVec.allOnes 64)

/-- `vrank` (R181): the number of active units below `i` whose bit of `va` is set. -/
def execVrank (vd va : VReg) (md : VMod) (s : State) : Out :=
  (s.guardTrap (s.vCheck md true [vd.toNat, va.toNat] (portClear s.th.vt && s.th.whole)) fun _ =>
    let set := (s.actives md 0 s.th.vlc).filter (fun i => s.th.maskBit va.toNat i)
    s.vDone md (s.loop md vd.toNat s.th.ew 0 s.th.vlc (fun i => set.countP (fun j => decide (j < i))))).out

/-- `vindex` (R181). -/
def execVindex (vd : VReg) (md : VMod) (s : State) : Out :=
  (s.guardTrap (s.vCheck md true [vd.toNat] (portClear s.th.vt)) fun _ =>
    s.vDone md (s.loop md vd.toNat s.th.ew s.th.vstart s.th.vlc (fun i => i))).out

end Sys2Proof.Machine
end

