-- ==== Sys2Proof/Machine/VPerm.lean ====
section
/-! DEFINITION. Moves and permutations (spec/03_encoding.md R95; spec/06_vector_integer_instructions.md R161 to R163, R182
to R188): major 0x1D. Units are elements under FMT 0 to 7 and containers under FMT 8 to 10 (R161). -/

namespace Sys2Proof.Machine

/-- The check of this major: any legal format, no port; `whole` for the instructions of R162. -/
def State.permCheck (s : State) (md : VMod) (regs : List VReg) (whole : Bool) : Option Trap :=
  s.vCheck md true (regs.map (fun v => v.toNat)) (portClear s.th.vt && (!whole || s.th.whole))

/-- Unit `i` of a register. -/
def Thread.unit (t : Thread) (v : VReg) (i : Nat) : Nat := t.elem v.toNat t.ew i

/-- `vmv vd, va` (R182). -/
def execVmv (vd va : VReg) (md : VMod) (s : State) : Out :=
  (s.guardTrap (s.permCheck md [vd, va] false) fun _ =>
    s.vDone md (s.loop md vd.toNat s.th.ew s.th.vstart s.th.vlc (fun i => s.th.unit va i))).out

/-- `vmv vd, sa` (R182). -/
def execVmvScalar (vd : VReg) (a : SReg) (md : VMod) (s : State) : Out :=
  (s.guardTrap (s.permCheck md [vd] false) fun _ =>
    s.vDone md (s.loop md vd.toNat s.th.ew s.th.vstart s.th.vlc (fun _ => (s.x a).toNat % 2 ^ s.th.ew))).out

/-- `vmv.sv` (R182): sign-extended under FMT 0. -/
def execVmvSv (d : SReg) (va : VReg) (md : VMod) (s : State) : Out :=
  (s.guardTrap (s.permCheck md [va] false) fun _ =>
    let v := s.th.unit va 0
    s.vDone md (s.th.setX d (if vtFmt s.th.vt = 0 then BitVec.ofInt 64 (toS s.th.ew v) else BitVec.ofNat 64 v))).out

/-- `vmv.vs` (R182). -/
def execVmvVs (vd : VReg) (a : SReg) (md : VMod) (s : State) : Out :=
  (s.guardTrap (s.permCheck md [vd] false) fun _ =>
    s.vDone md (if s.th.vstart = 0 ∧ 1 ≤ s.th.vlc then s.th.setElem vd.toNat s.th.ew 0 (s.x a).toNat else s.th)).out

/-- `vslideu` (R183): active units below the offset are unchanged; inactive ones follow MD, below the
offset too (log 47). -/
def execVslideu (vd va : VReg) (b : SReg) (md : VMod) (s : State) : Out :=
  (s.guardTrap (s.permCheck md [vd, va] true) fun _ =>
    let o := (s.x b).toNat
    s.vDone md (s.loopOpt md vd.toNat s.th.ew 0 s.th.vlc
      (fun i => if o ≤ i then some (s.th.unit va (i - o)) else none))).out

/-- `vslided` (R183). -/
def execVslided (vd va : VReg) (b : SReg) (md : VMod) (s : State) : Out :=
  (s.guardTrap (s.permCheck md [vd, va] true) fun _ =>
    let o := (s.x b).toNat
    s.vDone md (s.loop md vd.toNat s.th.ew 0 s.th.vlc
      (fun i => if i + o < s.th.vlcMax then s.th.unit va (i + o) else 0))).out

/-- `vperm` (R184). -/
def execVperm (vd va vb : VReg) (md : VMod) (s : State) : Out :=
  (s.guardTrap (s.permCheck md [vd, va, vb] true) fun _ =>
    s.vDone md (s.loop md vd.toNat s.th.ew 0 s.th.vlc
      (fun i => if s.th.unit vb i < s.th.vlcMax then s.th.unit va (s.th.unit vb i) else 0))).out

/-- `vcompr` (R185): VL becomes the number of units written, counted in elements. -/
def execVcompr (vd va vb : VReg) (md : VMod) (s : State) : Out :=
  (s.guardTrap (s.permCheck md [vd, va, vb] true) fun _ =>
    let src := (s.actives md 0 s.th.vlc).filter (fun i => s.th.maskBit vb.toNat i)
    let t := s.th.setElems vd.toNat s.th.ew (src.zipIdx.map (fun e => (e.2, s.th.unit va e.1)))
    s.vDone md (t.set .vl (BitVec.ofNat 64 (src.length * unitElems (vtFmt s.th.vt))))).out

/-- `vexpd` (R186). -/
def execVexpd (vd va vb : VReg) (md : VMod) (s : State) : Out :=
  (s.guardTrap (s.permCheck md [vd, va, vb] true) fun _ =>
    let rankOf (i : Nat) : Nat := (List.range i).countP (fun j => s.th.maskBit vb.toNat j)
    s.vDone md (s.loopOpt md vd.toNat s.th.ew 0 s.th.vlc
      (fun i => if s.th.maskBit vb.toNat i then some (s.th.unit va (rankOf i)) else none))).out

/-- `vmerge` (R187): v0 selects; MD does not apply. -/
def execVmerge (vd va : VReg) (b : VSrc) (md : VMod) (s : State) : Out :=
  (s.guardTrap (s.vCheck md true (vregs vd va b) (portClear s.th.vt)) fun _ =>
    s.vDone md (s.loop md vd.toNat s.th.ew s.th.vstart s.th.vlc
      (fun i => if s.th.maskBit 0 i then s.th.srcInt s.th.ew b i else s.th.unit va i))).out

/-- The rank of a unit in `vtopk` (R188) and in `vstp` (spec/08_memory_instructions.md R229): its magnitude. It is read from
the bits, without flushing (log 46). -/
def magnitude (fmt w v : Nat) : Nat :=
  if fmt = 0 then (toS w v).natAbs
  else
    match fltFmt fmt with
    | some f => if (f.read 0 v).isNan then 2 ^ w else v % 2 ^ (w - 1)
    | none => v

/-- `vtopk` (R188): the lower index wins among equal ranks. -/
def execVtopk (vd va : VReg) (b : SReg) (md : VMod) (s : State) : Out :=
  (s.guardTrap (s.permCheck md [vd, va] true) fun _ =>
    let keys := (s.actives md 0 s.th.vlc).map (fun i => (i, magnitude (vtFmt s.th.vt) s.th.ew (s.th.unit va i)))
    let before (i m : Nat) : Nat := keys.countP (fun e => decide (m < e.2) || (decide (e.2 = m) && decide (e.1 < i)))
    s.vDone md (s.loop md vd.toNat 1 0 s.th.vlc
      (fun i => bit (decide (before i (magnitude (vtFmt s.th.vt) s.th.ew (s.th.unit va i)) < (s.x b).toNat))))).out

end Sys2Proof.Machine
end

