-- ==== Sys2Proof/Machine/VMemOps.lean ====
section
/-! DEFINITION. What the vector memory instructions share (spec/08_memory_instructions.md R214 to R224, R232): the units'
addresses, the checks at issue, the reads of a load and how it stops, the stores and joins of a store and how it stops,
and the accesses to another device (log 18). -/

namespace Sys2Proof.Machine

/-! ## Units -/

/-- The container size in bytes, z (R214). -/
def Thread.z (t : Thread) : Nat := t.ew / 8

/-- The address of unit `i` of a unit-stride form (R214). -/
def State.unitAddr (s : State) (a : SReg) (i : Nat) : Word := s.x a + BitVec.ofNat 64 (i * s.th.z)

/-- Of a strided form (R214). -/
def State.strideAddr (s : State) (a b : SReg) (i : Nat) : Word :=
  s.x a + BitVec.ofNat 64 (if 8 ≤ vtFmt s.th.vt then i * s.th.z else i) * s.x b

/-- Of an indexed form (R214). -/
def State.indexAddr (s : State) (a : SReg) (vi : VReg) (i : Nat) : Word :=
  s.x a + BitVec.ofNat 64 (s.th.unit vi i * s.th.z)

/-- The fields of record `i` of a segment form, of `f` bytes each (R214). -/
def State.segAddrs (s : State) (a : SReg) (nf f i : Nat) : List Word :=
  (List.range nf).map (fun j => s.x a + BitVec.ofNat 64 ((i * nf + j) * f))

/-- The bytes of the width field (R99). -/
def widBytes : MWidth → Nat
  | .b | .pk => 1
  | .h => 2
  | .w => 4
  | .d => 8

/-- The width matches VTYPE (R99). -/
def widMatches (wid : MWidth) (vt : Word) : Bool :=
  if 8 ≤ vtFmt vt then decide (wid = .pk) else decide (wid ≠ .pk ∧ 8 * widBytes wid = ewBits (vtEwc vt))

/-- The fields of a segment form suit VTYPE (R100, R216). -/
def segMatches (wid : MWidth) (vt : Word) : Bool :=
  decide (wid ≠ .pk) && decide (vtFmt vt ≤ 7) && (decide (vtFmt vt ≤ 1) || decide (8 * widBytes wid = ewBits (vtEwc vt)))

/-- The check at issue (R98, R99, R216). -/
def State.memCheck (s : State) (md : VMod) (regs : List Nat) (ok : Bool) : Option Trap :=
  s.vCheck md true regs (ok && portClear s.th.vt)

/-- A trap at unit `k`, which VSTART then names (R218). -/
def State.stopAt (s : State) (k : Nat) (x : Trap) : Res := .trap (s.setCsr .vstart (BitVec.ofNat 64 k)) x

/-! ## Accesses to another device -/

/-- The device that the first unit of an access names, if it is another one (R232). -/
def State.unitsDev (s : State) {α : Type} (us : List (Nat × List (Word × α))) : Option Nat :=
  ((us.head?.map Prod.snd).bind List.head?).bind (fun u => s.remoteOf u.1)

/-- Checks 1 and 2 of one field that must lie on device `dev` (R218, R232), and the owner's key (spec/23_host_and_links.md R478; log 17).
The device and the key of what has been sent were checked then. -/
def State.devCheck (s : State) (dev : Nat) (va : Word) (n elem : Nat) : Option Trap :=
  let sent := !s.myRemotes.isEmpty
  if va.toNat % n ≠ 0 then some { cause := 0x03, eval := va, elem := elem }
  else if s.remoteOf va ≠ some dev ∨ !(s.member dev || sent) then some { cause := 0x07, eval := va, elem := elem }
  else if !(s.keys.contains s.th.owner || sent) then some { cause := 0x14, eval := va, elem := elem }
  else none

/-- The units before the first that fails checks 1 and 2, and that unit with its trap. -/
def State.remoteSplit (s : State) (a : Acc) (dev n : Nat) :
    List (Nat × List (Word × Nat)) → List (Nat × List (Word × Nat)) × Option (Nat × Trap)
  | [] => ([], none)
  | u :: us =>
    match u.2.findSome? (fun f => s.devCheck dev f.1 n u.1) with
    | some x => ([], some (u.1, x.by a))
    | none =>
      let r := s.remoteSplit a dev n us
      (u :: r.1, r.2)

/-- The records of units (R472). -/
def unitRecs (n : Nat) (us : List (Nat × List (Word × Nat))) : List UnitRec :=
  us.flatMap (fun u => u.2.map (fun f => ⟨f.1.toNat % 2 ^ 57, widthCode n, BitVec.ofNat 64 f.2⟩))

/-- The unit and address of a record's position. -/
def unitAt (us : List (Nat × List (Word × Nat))) (p : Nat) : Nat × Word :=
  ((us.flatMap (fun u => u.2.map (fun f => (u.1, f.1)))).getD p (0, 0))

/-- *Remote train error* of the record at position `p` (R232, R234). -/
def trainError (a : Acc) (us : List (Nat × List (Word × Nat))) (p sub : Nat) : Nat × Trap :=
  ((unitAt us p).1, { cause := 0x12, sub := BitVec.ofNat 8 sub, eval := (unitAt us p).2, elem := (unitAt us p).1, kind := a.kind })

/-- The answered access of the focused seat, if it has one. -/
def State.answered (s : State) : Option RemoteOp := s.myRemotes.find? (fun (r : RemoteOp) => r.done)

/-- Units leave for device `dev`; the seat waits (R475). -/
def State.sendUnits (s : State) (dev type n : Nat) (us : List (Nat × List (Word × Nat))) : Res :=
  let s := s.drain
  .ok ((s.sendRemote dev s.th.owner type (unitRecs n us)).waitOn (.remote s.nextTag true))

/-! ## Loads -/

/-- The fields of one unit read in ascending order (R224). -/
def State.readFields (s : State) (c : Ctx) (n elem : Nat) : List Word → Except Trap (List Nat)
  | [] => .ok []
  | a :: as =>
    match s.loadUnit c a n elem with
    | .error x => .error x
    | .ok v =>
      match s.readFields c n elem as with
      | .error x => .error x
      | .ok vs => .ok (v :: vs)

/-- The units read in ascending order up to the first that fails (R217, R219). -/
def State.readUnits (s : State) (c : Ctx) (n : Nat) :
    List (Nat × List Word) → List (List Nat) × Option (Nat × Trap)
  | [] => ([], none)
  | u :: us =>
    match s.readFields c n u.1 u.2 with
    | .error x => ([], some (u.1, x))
    | .ok vs =>
      let r := s.readUnits c n us
      (vs :: r.1, r.2)

/-- Values put into unit `i` of the registers `regs`, of width `w`. -/
def Thread.setUnits (t : Thread) (regs : List Nat) (w i : Nat) (vs : List Nat) : Thread :=
  (regs.zip vs).foldl (fun t e => t.setElem e.1 w i e.2) t

/-- Units [lo, lo + k) of the registers `regs`: the active ones take the next of `vals`, the inactive ones die under MD
(R158, R217). -/
def State.loadWrite (s : State) (md : VMod) (regs : List Nat) (w lo k : Nat) (vals : List (List Nat)) : Thread :=
  ((List.range k).foldl (fun (a : Thread × List (List Nat)) j =>
    if s.th.active md (lo + j) then
      (match a.2 with
       | v :: vs => (a.1.setUnits regs w (lo + j) v, vs)
       | [] => a)
    else if vtMd s.th.vt then (regs.foldl (fun t r => s.deadElem t r w (lo + j)) a.1, a.2)
    else a) (s.th, vals)).1

/-- A failed read that takes no trap still leaves its line poisoned (R334, R341). -/
def State.notePoison (s : State) (x : Trap) : State :=
  match x.poisons with
  | some pa => s.poisonLine pa
  | none => s

/-- A load whose active units from `first` on gave `vals` and stopped, or not (R217, R219, R222). -/
def State.loadDone (s : State) (md : VMod) (mo : MOrd) (regs : List Nat) (first : Option Nat) (vals : List (List Nat))
    (stop : Option (Nat × Trap)) : Res :=
  let lo := s.th.vstart
  let w := s.th.ew
  match stop with
  | none => s.vDone md (s.loadWrite md regs w lo (s.th.vlc - lo) vals)
  | some (k, x) =>
    let t := s.loadWrite md regs w lo (k - lo) vals
    if mo = .ff ∧ first ≠ some k then
      (s.notePoison x).vDone md (t.set .vl (BitVec.ofNat 64 (k * unitElems (vtFmt s.th.vt))))
    else (s.withTh t).stopAt k x

/-- A vector load of units with the field addresses `addrs`, `n` bytes a field, into `regs`; `conv` makes a field's value
an element's (R217, R224, R232). Under `.ff` only a check that failed truncates VL: where the link gave no answer in time (sub-cause
0x05), the load traps (R222). -/
def State.vload (s : State) (md : VMod) (mo : MOrd) (regs : List Nat) (n : Nat) (conv : Nat → Nat)
    (addrs : Nat → List Word) : Res :=
  let acts := s.actives md s.th.vstart s.th.vlc
  let us := acts.map (fun i => (i, addrs i))
  let done (s : State) (mo : MOrd) (vals : List (List Nat)) (stop : Option (Nat × Trap)) : Res :=
    s.loadDone md mo regs acts.head? (vals.map (fun vs => vs.map conv)) stop
  let rs := us.map (fun u => (u.1, u.2.map (fun a => (a, (0 : Nat)))))
  match s.unitsDev rs with
  | none =>
    let s := s.serveAt s.vctx ((us.flatMap (fun u => u.2)).filter (fun a => decide (a.toNat % n = 0)))
    let r := s.readUnits s.vctx n us
    done s mo r.1 r.2
  | some dev =>
    let sp := s.remoteSplit .load dev n rs
    if sp.1.isEmpty then done s mo [] sp.2
    else
      match s.answered with
      | none => s.sendUnits dev 0x01 n sp.1
      | some o =>
        let per := (regs.length)
        let got := (sp.1.zipIdx).map (fun e =>
          (List.range per).map (fun j => ((o.recs[e.2 * per + j]?).map (fun (u : UnitRec) => u.data.toNat)).getD 0))
        match o.fail with
        | none => done s.dropRemotes mo got sp.2
        | some (p, sub) =>
          done s.dropRemotes (if sub = 0x05 then .unord else mo) (got.take (p / per)) (some (trainError .load sp.1 p sub))

/-! ## Stores -/

/-- What one unit of a store does: the state after it and the writes it made, or its trap. -/
abbrev UnitOp (α β : Type) := State → Nat → α → Except Trap (State × β)

/-- Units performed in ascending order up to the first that fails, and the units above that one (R220). -/
def runUnits {α β : Type} (f : UnitOp α β) :
    State → List (Nat × α) → State × List β × Option (Nat × Trap × List (Nat × α))
  | s, [] => (s, [], none)
  | s, u :: us =>
    match f s u.1 u.2 with
    | .error x => (s, [], some (u.1, x, us))
    | .ok (s', b) =>
      let r := runUnits f s' us
      (r.1, b :: r.2.1, r.2.2)

/-- Units above a stop, each performed or not, freely (R220; log 9); a unit that `same` joins to one not performed is not
performed either (R227). -/
def runAbove {α β : Type} (f : UnitOp α β) (same : α → α → Bool) :
    List α → State → List (Nat × α) → State × List β
  | _, s, [] => (s, [])
  | skip, s, u :: us =>
    if skip.any (same u.2) || !Config.storeAbove (s.pick u.1) then runAbove f same (u.2 :: skip) s us
    else
      match f s u.1 u.2 with
      | .error _ => runAbove f same (u.2 :: skip) s us
      | .ok (s', b) =>
        let r := runAbove f same skip s' us
        (r.1, b :: r.2)

/-- The units of one instruction (R217, R220, R221): the state after them, what those below the stop gave, what those above
it gave, and the stop. -/
def State.runAll {α β : Type} (s : State) (f : UnitOp α β) (same : α → α → Bool) (mo : MOrd) (us : List (Nat × α)) :
    State × List β × List β × Option (Nat × Trap) :=
  let r := runUnits f s us
  match r.2.2 with
  | none => (r.1, r.2.1, [], none)
  | some (k, x, rest) =>
    if mo = .ord then (r.1, r.2.1, [], some (k, x))
    else
      let a := runAbove f same [] r.1 rest
      (a.1, r.2.1, a.2, some (k, x))

/-- Lines that one instruction's writes cover whole are clean (R334). -/
def State.cleanLines (s : State) (ws : List (Nat × List Byte)) : State :=
  (coverage ws).foldl (fun s l => s.cleanLine s.th.owner l) s

/-- Lines that one instruction's writes will cover whole need not be read from HBM (R343). -/
def State.slotWhole (s : State) (ws : List (Nat × List Byte)) : State :=
  (coverage ws).foldl (fun s l => s.slotLine s.th.owner (128 * l) 128) s

/-- The writes that the units of a store make to ordinary memory, where their checks pass. -/
def State.unitsWrite (s : State) (n : Nat) (us : List (Nat × List (Word × Nat))) : List (Nat × List Byte) :=
  us.flatMap (fun u => u.2.filterMap (fun f =>
    match s.access s.vctx .store false f.1 n u.1 with
    | .ok l => if l.region.isNone then some (l.pa, natLe n f.2) else none
    | .error _ => none))

/-- The fields of one store unit checked in ascending order (R218, R224). -/
def State.checkFields (s : State) (n elem : Nat) : List (Word × Nat) → Except Trap (List (Loc × Nat))
  | [] => .ok []
  | f :: fs =>
    match s.storeCheck s.vctx f.1 n f.2 elem with
    | .error x => .error x
    | .ok l =>
      match s.checkFields n elem fs with
      | .error x => .error x
      | .ok ls => .ok ((l, f.2) :: ls)

/-- One unit of a store (R217, R225): its fields checked, then performed. -/
def storeUnit (n : Nat) : UnitOp (List (Word × Nat)) (List (Nat × List Byte)) := fun s elem fs =>
  match s.checkFields n elem fs with
  | .error x => .error x
  | .ok ls =>
    .ok (ls.foldl (fun s l => s.storePerform s.vctx l.1 n l.2) s,
      (ls.filter (fun l => l.1.region.isNone)).map (fun l => (l.1.pa, natLe n l.2)))

/-- One unit of a join (R226): `wide` says that EW is 64. -/
def joinUnit (cx : State → Ctx) (wide : Bool) (n : Nat) : UnitOp (List (Word × Nat)) (List (Nat × List Byte)) := fun s elem fs =>
  match fs with
  | [] => .ok (s, [])
  | f :: _ =>
    match s.access (cx s) .store false f.1 n elem with
    | .error x => .error x
    | .ok l =>
      match l.region with
      | none => .error { cause := 0x08, sub := 0x03, eval := f.1, elem := elem, kind := 1 }
      | some r =>
        if (r.width = n) ∨ (r.typ = 5 ∧ 16 ≤ r.width ∧ wide ∧ n = 8) then
          .ok (s.joinCell s.th.owner r (dieOf (coreOf s.cur)) l.pa f.2, [])
        else .error { cause := 0x08, sub := 0x01, eval := f.1, elem := elem, kind := 1 }

/-- The local units of a store instruction, of `n` bytes each: the state after them, its lines cleaned, and the stop. -/
def State.storeSeq (s : State) (n : Nat) (f : UnitOp (List (Word × Nat)) (List (Nat × List Byte))) (mo : MOrd)
    (us : List (Nat × List (Word × Nat))) : State × Option (Nat × Trap) :=
  let u := s.drain.reach s.vctx n (us.flatMap (fun u => u.2.map Prod.fst))
  let r := (u.slotWhole (u.unitsWrite n us)).runAll f (fun _ _ => false) mo us
  let s := r.1.cleanLines (r.2.1.flatten ++ r.2.2.1.flatten)
  match r.2.2.2 with
  | none => (s, none)
  | some (k, x) => (s.refused s.vctx x, some (k, x))

/-- A store instruction that stopped, or went on as `k` (R218, R220). -/
def State.storeDone (s : State) (stop : Option (Nat × Trap)) (k : State → Res) : Res :=
  match stop with
  | some (i, x) => s.stopAt i x
  | none => k s

/-- A vector store of units with field addresses and values (R217, R220, R224, R232). Under `.ord` a unit on another
device is acknowledged before the next is sent (R221); VSTART then marks the next one (log 18). -/
def State.vstore (s : State) (md : VMod) (mo : MOrd) (n : Nat) (fields : Nat → List (Word × Nat)) : Res :=
  let us := (s.actives md s.th.vstart s.th.vlc).map (fun i => (i, fields i))
  match s.unitsDev us with
  | none =>
    let r := s.storeSeq n (storeUnit n) mo us
    r.1.storeDone r.2 (fun s => s.vDone md s.th)
  | some dev =>
    let sp := s.remoteSplit .store dev n us
    let send := if mo = .ord then sp.1.take 1 else sp.1
    if send.isEmpty then s.storeDone sp.2 (fun s => s.vDone md s.th)
    else
      match s.answered with
      | none => s.sendUnits dev 0x04 n send
      | some o =>
        let s := s.dropRemotes
        match o.fail with
        | some (p, sub) =>
          let x := trainError .store send p sub
          s.stopAt x.1 x.2
        | none =>
          match sp.1.drop send.length with
          | [] => s.storeDone sp.2 (fun s => s.vDone md s.th)
          | u :: _ =>
            match u.2.findSome? (fun f => s.devCheck dev f.1 n u.1) with
            | some x => s.stopAt u.1 (x.by .store)
            | none => (s.setCsr .vstart (BitVec.ofNat 64 u.1)).sendUnits dev 0x04 n [u]

/-- A join instruction (R226). -/
def State.vjoin (s : State) (md : VMod) (mo : MOrd) (vs : VReg) (addr : Nat → Word) : Res :=
  let us := (s.actives md s.th.vstart s.th.vlc).map (fun i => (i, [(addr i, s.th.unit vs i)]))
  let r := s.storeSeq s.th.z (joinUnit State.vctx (decide (s.th.ew = 64)) s.th.z) mo us
  r.1.storeDone r.2 (fun s => s.vDone md s.th)

/-! ## Trains -/

/-- One record performed at its destination device (R233, R386, R389, R475; log 18): a store, or a join in a lattice
region, or the sub-cause of R234 that refuses it. -/
def State.trainUnit (s : State) (c : Ctx) (va n v : Nat) : State × Option Nat :=
  if va % n ≠ 0 then (s, some 0x02)
  else
    let s := s.walkAt c va
    match s.translate c .store va with
    | .error _ => (s, some 0x01)
    | .ok (l, leaf) =>
      match s.permit c .store false l leaf with
      | some _ => (s, some 0x02)
      | none =>
        match l.region with
        | none => (s.writePhys c.owner l.pa (natLe n v), none)
        | some r =>
          if r.width = n ∨ (r.typ = 5 ∧ 16 ≤ r.width ∧ n = 8) then
            (s.joinCell c.owner r (dieOf c.core) l.pa v, none)
          else (s, some 0x03)

/-- The records of a train performed in order; the lowest failing unit with its sub-cause. -/
def State.trainUnits (s : State) (c : Ctx) (n : Nat) :
    List (Nat × List (Word × Nat)) → State × Option (Nat × Word × Nat)
  | [] => (s, none)
  | u :: us =>
    match u.2 with
    | [] => s.trainUnits c n us
    | f :: _ =>
      let r := s.trainUnit c f.1.toNat n f.2
      let rest := r.1.trainUnits c n us
      (rest.1, match r.2 with | some sub => some (u.1, f.1, sub) | none => rest.2)

/-- The lower of two failing units. -/
def lowerFail : Option (Nat × Word × Nat) → Option (Nat × Word × Nat) → Option (Nat × Word × Nat)
  | none, b => b
  | a, none => a
  | some a, some b => if b.1 < a.1 then some b else some a

/-- The failure an answered train reports, as its unit, address and sub-cause (R234). -/
def RemoteOp.failure (o : RemoteOp) (us : List (Nat × List (Word × Nat))) : Option (Nat × Word × Nat) :=
  o.fail.map (fun e => ((unitAt us e.1).1, (unitAt us e.1).2, e.2))

end Sys2Proof.Machine
end

