-- ==== Sys2Proof/Machine/Copy.lean ====
section
/-! DEFINITION. The copy engine (spec/10_fabric_region_sync_system_instructions.md R271, R272; spec/14_memory_ordering.md
R355; spec/16_lattice_regions.md R386): issue, status, and the transfer, of which any part may be made before the event that ends
the copy (log 12). -/

namespace Sys2Proof.Machine

/-! ## Handles -/

/-- The copies of seat `n` that still run (R271). -/
def State.outstanding (s : State) (n : Nat) : List Copy :=
  s.copies.filter (fun (c : Copy) => decide (c.seat = n) && c.status.isNone)

/-- The copy a handle of the focused seat names, if it is known (R272). -/
def State.copyOf (s : State) (h : Nat) : Option Copy :=
  if h < s.th.copySeq + 1 ∧ s.th.copySeq < h + 64 then
    s.copies.find? (fun (c : Copy) => decide (c.seat = s.cur ∧ c.handle = h))
  else none

/-- The status word (R272). -/
def statusWord (off sub code : Nat) : Word := BitVec.ofNat 64 (off % 2 ^ 40 * 2 ^ 24 + sub % 256 * 256 + code % 256)

/-- The status that `aquery` and a copy-completion token give (R272; spec/15_fabric_programming.md R378). -/
def State.copyStatus (s : State) (h : Nat) : Word :=
  match s.copyOf h with
  | none => statusWord 0 0 0xFF
  | some c => c.status.getD (statusWord 0 0 0xFE)

/-- What makes an `acopy` raise 0x07 at issue (R271): two other devices, or one that is no member of the domain. EVAL is then that address,
and of two the destination, which R271 leaves open (DESIGN CHOICE; log 57). -/
def State.copyRefused (s : State) (dst src : Word) : Option Word :=
  match s.remoteOf dst, s.remoteOf src with
  | some _, some _ => some dst
  | some d, none => if s.member d then none else some dst
  | none, some d => if s.member d then none else some src
  | none, none => none

/-- A copy of the focused seat starts under a handle (R271, R355): the seat's older stores are performed first. -/
def State.startCopy (s : State) (h : Nat) (dst src : Word) (len rows : Nat) (sstr dstr : Word) : State :=
  let s := s.drain
  let x := s.ctx
  let c : Copy := {
    seat := s.cur, handle := h, core := x.core, dst := dst, src := src, len := Nat.min len (2 ^ 40), rows := rows
    sstr := sstr, dstr := dstr, asid := x.asid, owner := x.owner, ptbase := x.ptbase, lrtbase := x.lrtbase
    priv := x.priv, status := none, fault := none, faultVa := 0, faultStore := false, faultPath := [], retry := false, grp := s.th.grp, tag := none
    sent := 0, ends := 0, hand := [], made := [], wrote := [] }
  { s with copies := s.copies ++ [c] }

/-- `acopy` (R271). A copy that is no longer known and has ended is forgotten. -/
def State.acopy (s : State) (d a b c : SReg) (rows : Nat) (sstr dstr : Word) (words : Nat) : Out :=
  (s.guardTrap (s.qCheck true [] true) fun _ =>
    match s.copyRefused (s.x a) (s.x b) with
    | some va => .trap s { cause := 0x07, eval := va }
    | none =>
      if 16 ≤ (s.outstanding s.cur).length then .ok (s.waitOn .copyRoom)
      else
        let h := s.th.copySeq + 1
        let s := s.startCopy h (s.x a) (s.x b) (s.x c).toNat rows sstr dstr
        let s : State := { s with copies := s.copies.filter (fun (k : Copy) =>
          !(decide (k.seat = s.cur ∧ k.handle + 64 ≤ h) && k.status.isSome)) }
        .ok (s.finish (({ s.th with copySeq := h }.setX d (BitVec.ofNat 64 h)).pushVq) words)).out

/-- `acopy` (R271). -/
def execAcopy (d a b c : SReg) (s : State) : Out := s.acopy d a b c 1 0 0 1

/-- `acopy` under the COPY2D prefix (R271). -/
def execAcopy2d (d a b c rows sstr dstr : SReg) (s : State) : Out :=
  s.acopy d a b c (s.x rows).toNat (s.x sstr) (s.x dstr) 2

/-- `await` (R272): the handle is known no more once it has been awaited. -/
def execAwait (d a : SReg) (s : State) : Out :=
  (s.guardTrap (s.qCheck true [] true) fun _ =>
    let h := (s.x a).toNat
    match s.copyOf h with
    | none => .ok (s.finish ((s.th.setX d (s.copyStatus h)).pushVq) 1)
    | some c =>
      match c.status with
      | none => .ok (s.waitOn (.copy h))
      | some w =>
        let s : State := { s with copies := s.copies.filter (fun (k : Copy) => !(decide (k.seat = s.cur ∧ k.handle = h))) }
        .ok (s.finish ((s.th.setX d w).pushVq) 1)).out

/-- `aquery` (R272). -/
def execAquery (d a : SReg) (s : State) : Out :=
  (s.guardTrap (s.qCheck true [] true) fun _ =>
    .ok (s.finish ((s.th.setX d (s.copyStatus (s.x a).toNat)).pushVq) 1)).out

/-! ## The transfer -/

/-- A piece of a copy within one 64-byte block of its destination. -/
structure CopyPiece where
  off : Nat
  dst : Word
  src : Word
  n : Nat
  deriving DecidableEq, Repr

/-- `n` bytes from offset `off` cut into pieces. -/
def cutRow : Nat → Nat → Word → Word → Nat → List CopyPiece
  | 0, _, _, _, _ => []
  | f + 1, off, d, a, n =>
    if n = 0 then []
    else
      let k := Nat.min n (64 - d.toNat % 64)
      ⟨off, d, a, k⟩ :: cutRow f (off + k) (d + BitVec.ofNat 64 k) (a + BitVec.ofNat 64 k) (n - k)

/-- The source and the destination address of row `j` (R271). -/
def Copy.row (c : Copy) (j : Nat) : Word × Word := (c.src + BitVec.ofNat 64 j * c.sstr, c.dst + BitVec.ofNat 64 j * c.dstr)

/-- The pieces of the first `rows` rows. -/
def Copy.pieces (c : Copy) (rows : Nat) : List CopyPiece :=
  (List.range rows).flatMap (fun j => cutRow (c.len / 64 + 2) (j * c.len) (c.row j).2 (c.row j).1 c.len)

/-- What of a piece lies at offsets [a, b). -/
def CopyPiece.within (p : CopyPiece) (a b : Nat) : List CopyPiece :=
  let lo := Nat.max p.off a
  let hi := Nat.min (p.off + p.n) b
  if lo < hi then [⟨lo, p.dst + BitVec.ofNat 64 (lo - p.off), p.src + BitVec.ofNat 64 (lo - p.off), hi - lo⟩] else []

/-- Pieces without some ranges of offsets, given by offset and length. -/
def without (ms : List (Nat × Nat)) (ps : List CopyPiece) : List CopyPiece :=
  ms.foldl (fun ps m => ps.flatMap (fun p => p.within 0 m.1 ++ p.within (m.1 + m.2) (p.off + p.n))) ps

/-- The pieces of the first `rows` rows that are not yet written. -/
def Copy.todo (c : Copy) (rows : Nat) : List CopyPiece := without c.made (c.pieces rows)

/-- Those of them whose source is not yet read. -/
def Copy.unread (c : Copy) (rows : Nat) : List CopyPiece := without (c.hand.map (fun h => (h.1, h.2.length))) (c.todo rows)

/-- The byte in hand at an offset, of bytes held from offsets on. -/
def handAt (hand : List (Nat × List Byte)) (k : Nat) : Option Byte :=
  hand.findSome? (fun h => if h.1 ≤ k then h.2[k - h.1]? else none)

/-- The bytes in hand from offset 0 up to the first that is not, at most `n`. -/
def handPrefix (hand : List (Nat × List Byte)) (n : Nat) : List Byte :=
  (((List.range n).map (handAt hand)).takeWhile Option.isSome).filterMap id

/-- The registers a copy's accesses are made under. -/
def Copy.ctx (c : Copy) : Ctx := ⟨c.core, dieTlb (dieOf c.core), c.owner, c.asid, c.ptbase, c.lrtbase, c.priv⟩

/-- Why a copy stops: the offset of the byte, the address, cause and sub-cause, and the line a failed read poisons. -/
structure CopyStop where
  off : Nat
  va : Word
  cause : BitVec 8
  sub : BitVec 8
  poisons : Option Nat
  deriving DecidableEq, Repr

/-- The running copy of a handle with fields changed. -/
def State.updCopy (s : State) (c : Copy) (f : Copy → Copy) : State :=
  { s with copies := s.copies.map (fun (k : Copy) => if k.seat = c.seat ∧ k.handle = c.handle then f k else k) }

/-- The bytes a copy reads at an address, up to the first it cannot read (R271, R340, R444). -/
def State.copyBytes (s : State) (x : Ctx) : Nat → Nat → Word → Nat → List Byte × Option CopyStop
  | 0, _, _, _ => ([], none)
  | f + 1, off, va, n =>
    if n = 0 then ([], none)
    else
      let k := Nat.min n (64 - va.toNat % 64)
      match s.access x .load false va 1 0 with
      | .error t => ([], some ⟨off, va, t.cause, t.sub, none⟩)
      | .ok l =>
        if s.poisoned x.owner l then ([], some ⟨off, va, 0x0D, 0, if l.psn then none else some l.pa⟩)
        else
          let r := s.copyBytes x f (off + k) (va + BitVec.ofNat 64 k) (n - k)
          (s.readAt x.owner [] l.pa k ++ r.1, r.2)

/-- The bytes of pieces in order of their offsets, up to the first that cannot be read. -/
def State.copySource (s : State) (x : Ctx) : List CopyPiece → List (Nat × List Byte) × Option CopyStop
  | [] => ([], none)
  | p :: ps =>
    let r := s.copyBytes x (p.n + 1) p.off p.src p.n
    match r.2 with
    | some e => ([(p.off, r.1)], some e)
    | none =>
      let q := s.copySource x ps
      ((p.off, r.1) :: q.1, q.2)

/-- The coherence points of the lines that pieces read serve the copy (spec/13_memory_hierarchy.md R333). -/
def State.serveCopy (s : State) (c : Copy) (ps : List CopyPiece) : State :=
  s.serveAt c.ctx (ps.flatMap (fun p => [p.src, p.src + BitVec.ofNat 64 (p.n - 1)]))

/-- What the copy engine takes from offset `off` on of a copy that ended early, and has not in hand, is served too (log 12). -/
def State.serveRest (s : State) (c : Copy) (hand : List (Nat × List Byte)) (off : Nat) (ps : List CopyPiece) : State :=
  if (s.remoteOf c.src).isSome then s
  else
    let rest := (without (hand.map (fun h => (h.1, h.2.length))) ps).flatMap (fun p => p.within off (p.off + p.n))
    s.serveCopy c (rest.filter (fun p => (List.range p.n).any (fun i => Config.copyByte (s.pick (p.off + i)))))

/-- The last byte, by offset, that a copy writes to an address. -/
def Copy.writer (c : Copy) (va : Word) : Option Nat :=
  (List.range c.rows).foldl (fun b j =>
    let i := (va - (c.row j).2).toNat
    if i < c.len then some (j * c.len + i) else b) none

/-- The byte written at offset `k` (R271): the source byte's value when it was read, or, where the copy also writes the source
byte and has not yet done so, freely the value it writes there (log 12). -/
def State.copyVal (s : State) (c : Copy) (hand : List (Nat × List Byte)) : Nat → Nat → Option Byte
  | 0, k => handAt hand k
  | f + 1, k =>
    match c.writer ((c.row (k / c.len)).1 + BitVec.ofNat 64 (k % c.len)) with
    | none => handAt hand k
    | some j =>
      if Config.copyByte (s.pick k) ∨ (handAt hand k).isNone ∨ (handAt hand j).isNone ∨
        c.made.any (fun m => decide (m.1 ≤ j ∧ j < m.1 + m.2)) then handAt hand k
      else s.copyVal c hand f j

/-! ## Cells (R386) -/

/-- The offset of the byte that row `j` writes to an address, or else another row. -/
def Copy.cellByte (c : Copy) (j : Nat) (va : Word) : Option Nat :=
  let i := (va - (c.row j).2).toNat
  if i < c.len then some (j * c.len + i) else c.writer va

/-- The offset at which a cell of `w` bytes that row `j` reaches is stored: its first byte's in a row that covers it whole, else the
lowest at which any row reaches it. -/
def Copy.cellLead (c : Copy) (j : Nat) (va : Word) (w : Nat) : Nat :=
  let i := (va - (c.row j).2).toNat
  if i + w ≤ c.len then j * c.len + i
  else
    ((List.range c.rows).findSome? (fun m =>
      let i := (va - (c.row m).2).toNat
      if i < c.len then some (m * c.len + i)
      else if ((c.row m).2 - va).toNat < w ∧ 0 < c.len then some (m * c.len) else none)).getD 0

/-- A cell of a region is stored as row `j` of a copy reaches it (R386): every byte of it comes from the copy, and its value is at or
above the cell's. A byte whose source is missing leaves it; `none` then stands for the source's own stop. -/
def State.copyCell (s : State) (c : Copy) (r : Region) (j off : Nat) (va : Word) (pa : Nat) (val : Nat → Option Byte) :
    Except (Option CopyStop) State :=
  let ks := (List.range r.width).map (fun m => c.cellByte j (va + BitVec.ofNat 64 m))
  if ks.any Option.isNone then .error (some ⟨off, va, 0x08, 0x01, none⟩)
  else
    let bs := ks.filterMap (fun k => k.bind val)
    if bs.length < r.width then .error none
    else
      let z := r.bits / 8
      let parts := (List.range (r.width / z)).map (fun i => (pa + i * z, leNat ((bs.drop (i * z)).take z)))
      if parts.all (fun p => r.le (s.cellAt c.owner r p.1) (r.canon p.2)) then
        .ok (parts.foldl (fun s p => s.joinCell c.owner r (dieOf c.core) p.1 p.2) s)
      else .error (some ⟨off, va, 0x08, 0x00, if s.view c.owner pa = .poison then some pa else none⟩)

/-- The cells that a piece at `pa` reaches: of each that the piece is to store its offset, address and place. -/
def Copy.cells (c : Copy) (p : CopyPiece) (pa w : Nat) : List (Nat × Word × Nat) :=
  (List.range ((pa % w + p.n + w - 1) / w)).filterMap (fun q =>
    let va := p.dst - BitVec.ofNat 64 (pa % w) + BitVec.ofNat 64 (q * w)
    let lead := c.cellLead (p.off / c.len) va w
    if p.off ≤ lead ∧ lead < p.off + p.n then some (lead, va, pa / w * w + q * w) else none)

/-- Cells stored one after the other; the offset of the first that is not, and why. -/
def State.copyCells (s : State) (c : Copy) (r : Region) (j : Nat) (val : Nat → Option Byte) :
    List (Nat × Word × Nat) → State × Option (Nat × Option CopyStop)
  | [] => (s, none)
  | e :: es =>
    match s.copyCell c r j e.1 e.2.1 e.2.2 val with
    | .error x => (s, some (e.1, x))
    | .ok s => s.copyCells c r j val es

/-! ## Writing -/

/-- A piece is written: the state, the bytes written to ordinary memory, and the stop. -/
def State.copyPiece (s : State) (c : Copy) (val : Nat → Option Byte) (p : CopyPiece) :
    State × List (Nat × List Byte) × Option (Nat × Option CopyStop) :=
  let bs := (((List.range p.n).map (fun i => val (p.off + i))).takeWhile Option.isSome).filterMap id
  if bs.isEmpty then (s, [], some (p.off, none))
  else
    match s.access c.ctx .store false p.dst 1 0 with
    | .error t => (s, [], some (p.off, some ⟨p.off, p.dst, t.cause, t.sub, none⟩))
    | .ok l =>
      match l.region with
      | none => (s.writePhys c.owner l.pa bs, [(l.pa, bs)], if bs.length < p.n then some (p.off + bs.length, none) else none)
      | some r =>
        let a := s.copyCells c r (p.off / c.len) val (c.cells p l.pa r.width)
        (a.1, [], a.2)

/-- Pieces written in order. -/
def State.copyPieces (s : State) (c : Copy) (val : Nat → Option Byte) :
    List CopyPiece → State × List (Nat × List Byte) × Option (Nat × Option CopyStop)
  | [] => (s, [], none)
  | p :: ps =>
    let a := s.copyPiece c val p
    match a.2.2 with
    | some e => (a.1, a.2.1, some e)
    | none =>
      let r := a.1.copyPieces c val ps
      (r.1, a.2.1 ++ r.2.1, r.2.2)

/-- Lines that a copy comes to have written whole are clean and its owner's; what it has written of the others (R334, R340). -/
def State.copyClean (s : State) (c : Copy) (ws : List (Nat × List Byte)) : State × List (Nat × Nat) :=
  let m := coverFrom c.wrote ws
  ((wholeLines m).foldl (fun s l => s.cleanLine c.owner l) s, m.filter (fun e => e.2 ≠ 2 ^ 128 - 1))

/-- Pieces written in order, and what that leaves: lines that it completes are not read first (R343) and are clean (R334). -/
def State.copyTarget (s : State) (c : Copy) (val : Nat → Option Byte) (ps : List CopyPiece) :
    State × List (Nat × Nat) × Option (Nat × Option CopyStop) :=
  let s := s.walked c.ctx (ps.map (fun p => p.dst))
  let spans := ps.filterMap (fun p =>
    match s.access c.ctx .store false p.dst 1 0 with
    | .ok ⟨pa, none, _⟩ => some (pa, List.replicate p.n (0 : Byte))
    | _ => none)
  let s := (wholeLines (coverFrom c.wrote spans)).foldl (fun s l => s.slotLine c.owner (128 * l) 128) s
  let a := s.copyPieces c val ps
  let b := a.1.copyClean c a.2.1
  (b.1, b.2, a.2.2)

/-- The bytes from offset `off` of a copy that ended early: each byte of ordinary memory holds its old value or the copied one, and
each cell is left or joined, freely (R355, R386; log 12). `val` gives the byte to copy at an offset, where there is one. -/
def State.copyRest (s : State) (c : Copy) (off : Nat) (val : Nat → Option Byte) (ps : List CopyPiece) : State :=
  let val' (k : Nat) : Option Byte := if Config.copyByte (s.pick k) then val k else none
  let r := (ps.flatMap (fun p => p.within off (p.off + p.n))).foldl (fun (a : State × List (Nat × List Byte)) p =>
    match a.1.access c.ctx .store false p.dst 1 0 with
    | .error _ => a
    | .ok l =>
      match l.region with
      | none => (List.range p.n).foldl (fun a i => match val' (p.off + i) with
          | some b => (a.1.writePhys c.owner (l.pa + i) [b], a.2 ++ [(l.pa + i, [b])])
          | none => a) a
      | some r => ((c.cells p l.pa r.width).foldl (fun s e => match s.copyCell c r (p.off / c.len) e.1 e.2.1 e.2.2 val' with
          | .ok s => s
          | .error _ => s) a.1, a.2)) (s, [])
  (r.1.copyClean c r.2).1

/-- The copied byte at an offset where a copy has it in hand, can read it now, or, from another device, has yet to receive it. -/
def State.copyAny (s : State) (c : Copy) (hand : List (Nat × List Byte)) (k : Nat) : Option Byte :=
  (handAt hand k).orElse (fun _ =>
    if (s.remoteOf c.src).isSome then some ((Config.freeWord (s.pick (2 ^ 63 + k))).setWidth 8)
    else (s.copyBytes c.ctx 2 0 ((c.row (k / c.len)).1 + BitVec.ofNat 64 (k % c.len)) 1).1.head?)

/-- How a transfer goes: it ends with a status, or it waits for a page (R271). -/
inductive CopyEnd
  | status (s : State) (w : Word)
  | page (va : Word) (store : Bool)

/-- The status of a copy that a cause ends (R272): a cause that R272 has no code for gives one of its four freely (log 25). -/
def State.endWord (s : State) (e : CopyStop) : Word :=
  let codes : List Nat := [0x07, 0x08, 0x0D, 0x14]
  statusWord e.off e.sub.toNat
    (if codes.contains e.cause.toNat then e.cause.toNat else codes.getD (Config.freeNat (s.pick e.off) % 4) 0x07)

/-- The line that a failed read of a copy poisons is poisoned. -/
def State.copyPoison (s : State) (e : CopyStop) : State :=
  match e.poisons with
  | some pa => s.poisonLine pa
  | none => s

/-- The pieces `ps` are written from bytes in hand: the copy's end, given where its source stopped. A page fault waits for the host; any
other failure ends the copy (R271, R272). -/
def State.copyWrite (s : State) (c : Copy) (ps : List CopyPiece) (hand : List (Nat × List Byte)) (stop : Option CopyStop) : CopyEnd :=
  let a := s.copyTarget c (s.copyVal c hand (c.rows * c.len)) ps
  let stopped (e : CopyStop) : CopyEnd :=
    if e.cause = 0x04 then .page e.va false
    else if e.cause = 0x05 then .page e.va true
    else
      let u := (a.1.copyPoison e).serveRest c hand e.off ps
      .status (u.copyRest { c with wrote := a.2.1 } e.off (u.copyAny c hand) ps) (s.endWord e)
  match a.2.2, stop with
  | none, none => .status a.1 (statusWord 0 0 0)
  | none, some e => stopped e
  | some (_, some e), _ => stopped e
  | some (k, none), some e => stopped { e with off := k }
  | some (k, none), none => stopped ⟨k, c.src, 0x07, 0, none⟩

/-! ## Copies from and to another device (spec/23_host_and_links.md R475) -/

/-- The seat number under which the copy engine's own requests are kept. -/
def engineSeat : Nat := 2 ^ 20

/-- The rows whose address names device `dev`, up to the first that does not. -/
def State.rowsOn (s : State) (dev : Nat) (addr : Nat → Word) (rows : Nat) : Nat :=
  ((List.range rows).takeWhile (fun j => decide (s.remoteOf (addr j) = some dev))).length

/-- The 128-byte lines that `n` bytes from an address reach. -/
def linesOf (va : Word) (n : Nat) : List Nat :=
  let a := va.toNat % 2 ^ 57
  if n = 0 then [] else (List.range ((a + n - 1) / 128 - a / 128 + 1)).map (fun k => (a / 128 + k) * 128)

/-- A flit of one line (R472). -/
def lineFlit (type src dst owner tag addr : Nat) (bytes : List Byte) : Flit :=
  { type := type, line := true, len := bytes.length, src := src, dst := dst, owner := owner, tag := tag, seq := 0,
    addr := addr, aux := 0, recs := [], bytes := bytes }

/-- What a row's bytes become on the way to another device: whole lines, and single bytes at its ends. -/
inductive RowPart
  | line (addr : Nat) (bytes : List Byte)
  | bytes (recs : List UnitRec)

/-- A row's bytes at a device-local address cut into parts. -/
def rowParts : Nat → Nat → List Byte → List RowPart
  | 0, _, _ => []
  | f + 1, a, bs =>
    if bs.isEmpty then []
    else if a % 128 = 0 ∧ 128 ≤ bs.length then .line a (bs.take 128) :: rowParts f (a + 128) (bs.drop 128)
    else
      let k := Nat.min 13 (Nat.min bs.length (128 - a % 128))
      .bytes ((List.range k).map (fun i => ⟨a + i, 0, (bs.getD i 0).setWidth 64⟩)) :: rowParts f (a + k) (bs.drop k)

/-- The records of a part. -/
def RowPart.count : RowPart → Nat
  | .line _ _ => 1
  | .bytes rs => rs.length

/-- The bytes of a part. -/
def RowPart.size : RowPart → Nat
  | .line _ bs => bs.length
  | .bytes rs => rs.length

/-- The parts of the bytes `olds` of a copy. -/
def Copy.parts (c : Copy) (rows : Nat) (olds : List Byte) : List RowPart :=
  (List.range rows).flatMap (fun j =>
    let bs := (olds.drop (j * c.len)).take c.len
    rowParts (bs.length + 1) ((c.row j).2.toNat % 2 ^ 57) bs)

/-- The engine's request leaves; the copy remembers its tag, the bytes sent and how it ends. -/
def State.engineSend (s : State) (c : Copy) (dev : Nat) (load : Bool) (count : Nat) (fs : Nat → List Flit) (sent : Nat)
    (ends : Word) : State :=
  let tag := s.nextTag
  let s := (fs tag).foldl (fun s f => s.emit (s.portOf dev) f) s
  { s with
    nextTag := (tag + 1) % 2 ^ 32
    remotes := s.remotes ++ [⟨tag, engineSeat, dev, load, count, 0, [], none, decide (count = 0), s.cycle⟩]
    copies := (s.updCopy c (fun k => { k with tag := some tag, sent := sent, ends := ends, fault := none })).copies }

/-- The status code of a remote failure (R272, R234), free where the sub-cause does not decide it (log 25). -/
def State.remoteCode (s : State) (sub : Nat) : Nat × Nat :=
  match sub with
  | 1 => (0x07, 0)
  | 3 => (0x08, 1)
  | 4 => (0x0D, 0)
  | 2 => (if Config.freeNat (s.pick sub) % 2 = 0 then 0x07 else 0x14, 0)
  | _ => ([0x07, 0x08, 0x0D, 0x14].getD (Config.freeNat (s.pick sub) % 4) 0x07, 0)

/-- The offset of the first byte of record `p` among parts. -/
def partOffset : Nat → List RowPart → Nat
  | _, [] => 0
  | p, x :: xs => if p < x.count then (match x with | .line _ _ => 0 | .bytes _ => p) else x.size + partOffset (p - x.count) xs

/-- The bytes `bs` of a copy leave for the other device; once they are performed there the copy ends with `ends`. -/
def State.copySend (s : State) (c : Copy) (dev rows : Nat) (bs : List Byte) (ends : Word) : State :=
  let ps := c.parts rows bs
  s.engineSend c dev false (ps.foldl (fun n p => n + p.count) 0) (fun tag => ps.map (fun p => match p with
    | .line a bs => lineFlit 0x03 s.devnum dev c.owner tag a bs
    | .bytes rs => unitFlit 0x03 s.devnum dev c.owner tag 0 rs)) bs.length ends

/-- A copy to another device: the bytes below the first that cannot be read leave, and the last answer ends it (R355). -/
def State.copyOut (s : State) (c : Copy) (dev : Nat) : State × Option Word :=
  let rows := s.rowsOn dev (fun j => (c.row j).2) c.rows
  match c.tag with
  | none =>
    let s := s.serveCopy c (c.unread rows)
    let src := s.copySource c.ctx (c.unread rows)
    let bytes := handPrefix (c.hand ++ src.1) (rows * c.len)
    match src.2 with
    | some e => (if e.cause = 0x04 then s else (s.copyPoison e).copySend c dev rows bytes (s.endWord e), none)
    | none => (s.copySend c dev rows bytes (if rows < c.rows then statusWord (rows * c.len) 0 0x07 else statusWord 0 0 0), none)
  | some tag =>
    match s.remotes.find? (fun (r : RemoteOp) => decide (r.tag = tag) && r.done) with
    | none => (s, none)
    | some r =>
      let s : State := { s with remotes := s.remotes.filter (fun (r : RemoteOp) => r.tag ≠ tag) }
      match r.fail with
      | some (p, sub) =>
        let off := partOffset p (c.parts rows (List.replicate c.sent 0))
        (s, some (statusWord off (s.remoteCode sub).2 (s.remoteCode sub).1))
      | none => (s, some c.ends)

/-- The bytes of the first `k` lines received for a copy, in order of its offsets. -/
def Copy.received (c : Copy) (rows k : Nat) (recs : List UnitRec) : List Byte :=
  ((List.range rows).foldl (fun (a : Nat × List Byte) j =>
    let va := (c.row j).1
    let ls := linesOf va c.len
    let have_ := Nat.min ls.length (k - a.1)
    let bs := (List.range (128 * have_)).map (fun i =>
      (((recs[16 * a.1 + i / 8]?).map (fun (u : UnitRec) => u.data)).getD 0).extractLsb' (8 * (i % 8)) 8)
    (a.1 + ls.length, a.2 ++ ((bs.drop (va.toNat % 128)).take c.len))) (0, [])).2

/-- A copy from another device: it asks for the lines, unless its owner's key is gone (R478), and writes what they hold. -/
def State.copyIn (s : State) (c : Copy) (dev : Nat) : Option CopyEnd × State :=
  let rows := s.rowsOn dev (fun j => (c.row j).1) c.rows
  let lines := (List.range rows).flatMap (fun j => linesOf (c.row j).1 c.len)
  match c.tag with
  | none =>
    if !s.keys.contains c.owner then (some (.status s (statusWord 0 0 0x14)), s)
    else (none, s.engineSend c dev true lines.length (fun tag => lines.map (fun a => lineFlit 0x01 s.devnum dev c.owner tag a [])) 0 0)
  | some tag =>
    match s.remotes.find? (fun (r : RemoteOp) => decide (r.tag = tag) && r.done) with
    | none => (none, s)
    | some r =>
      let k := match r.fail with | some (p, _) => p | none => lines.length
      let bytes := c.received rows k r.recs
      let stop : Option CopyStop := match r.fail with
        | some (_, sub) =>
          let e := s.remoteCode sub
          some ⟨bytes.length, c.src, BitVec.ofNat 8 e.1, BitVec.ofNat 8 e.2, none⟩
        | none => if rows < c.rows then some ⟨rows * c.len, c.src, 0x07, 0, none⟩ else none
      (some (s.copyWrite c (c.todo rows) [(0, bytes)] stop), s)

/-! ## ACOPY_COMPLETE -/

/-- The bytes of a copy that the engine has. -/
def State.copyHand (s : State) (c : Copy) : List (Nat × List Byte) :=
  match s.remoteOf c.src, c.tag.bind (fun tag => s.remotes.find? (fun (r : RemoteOp) => decide (r.tag = tag) && r.done)) with
  | some dev, some r =>
    let rows := s.rowsOn dev (fun j => (c.row j).1) c.rows
    [(0, c.received rows ((r.fail.map Prod.fst).getD (r.recs.length / 16)) r.recs)]
  | some _, none => []
  | none, _ => c.hand

/-- The bytes that the engine has or, of a copy within this device or out of it, can read now below an offset. -/
def State.copyHave (s : State) (c : Copy) (off : Nat) : State × List (Nat × List Byte) :=
  let ps := if (s.remoteOf c.src).isSome then [] else (c.unread c.rows).flatMap (fun p => p.within 0 off)
  let s := s.serveCopy c ps
  (s, s.copyHand c ++ (s.copySource c.ctx ps).1)

/-- A running copy reads `n` bytes from an offset on, or writes those of them that it has: as its own party it accesses any bytes at any
time (R355; log 12). What it reads from or writes to another device it does by flits. -/
def State.copyPart (s : State) (seat handle off n : Nat) (write : Bool) : State :=
  match s.copies.find? (fun (c : Copy) => decide (c.seat = seat ∧ c.handle = handle) && c.status.isNone && c.fault.isNone) with
  | none => s
  | some c =>
    let part (ps : List CopyPiece) : List CopyPiece := ps.flatMap (fun p => p.within off (off + n))
    if write then
      if (s.remoteOf c.dst).isSome then s
      else
        let a := s.copyTarget c (handAt (s.copyHand c)) (part (c.todo c.rows))
        let k := match a.2.2 with | some e => e.1 - off | none => n
        a.1.updCopy c (fun (c : Copy) => { c with made := c.made ++ [(off, k)], wrote := a.2.1 })
    else if (s.remoteOf c.src).isSome then s
    else
      let ps := part (c.unread c.rows)
      let s := s.serveCopy c ps
      s.updCopy c (fun (c : Copy) => { c with hand := c.hand ++ (s.copySource c.ctx ps).1 })

/-- A copy ends at an offset before its end (R355): the bytes below are written; above, each is or is not. -/
def State.copyCut (s : State) (c : Copy) (off : Nat) : State × Nat :=
  let h := s.copyHave c off
  let a := h.1.copyTarget c (s.copyVal c h.2 (c.rows * c.len)) ((c.todo c.rows).flatMap (fun p => p.within 0 off))
  let k := match a.2.2 with | some e => e.1 | none => off
  let u := a.1.serveRest c h.2 k (c.todo c.rows)
  (u.copyRest { c with wrote := a.2.1 } k (u.copyAny c h.2) (c.todo c.rows), k)

/-- What the transfer of a copy comes to now. -/
def State.copyRun (s : State) (c : Copy) : CopyEnd :=
  let ps := c.unread c.rows
  let s := s.serveCopy c ps
  let src := s.copySource c.ctx ps
  s.copyWrite c (c.todo c.rows) (c.hand ++ src.1) src.2

/-- The page a running copy waits for, if any (R271). -/
def State.copyPage (s : State) (c : Copy) : Option (Word × Bool) :=
  let e : Option CopyEnd :=
    match s.remoteOf c.dst, s.remoteOf c.src with
    | some dev, _ =>
      let ps := c.unread (s.rowsOn dev (fun j => (c.row j).2) c.rows)
      let src := (s.serveCopy c ps).copySource c.ctx ps
      (src.2.bind (fun e => if e.cause = 0x04 ∧ c.tag = none then some (.page e.va false) else none))
    | none, some dev => (s.copyIn c dev).1
    | none, none => some (s.copyRun c)
  match e with
  | some (.page va st) => some (va, st)
  | _ => none

/-- A thread that waits for a copy of its seat goes on; one that waits for an event may resume (R269, R271, R272). -/
def Thread.copyEnded (t : Thread) (h : Nat) : Thread :=
  match t.run with
  | .waiting (.copy k) => if k = h then { t with run := .running } else t
  | .waiting .copyRoom => { t with run := .running }
  | .waiting (.event _) => { t with wake := true }
  | _ => t

/-- A copy ends with a status. A copy of a thread that has ended is forgotten, and a copy whose thread is off its seat gives
it the event when it is restored. -/
def State.endCopy (s : State) (c : Copy) (w : Word) : State :=
  let upd (k : Copy) : Copy := { k with status := some w, fault := none }
  let s : State := { s with copies := (s.updCopy c upd).copies.filter (fun (k : Copy) => !(decide (k.seat = 2 ^ 32) && k.status.isSome)) }
  if c.seat < 2 ^ 16 then s.setSeat c.seat ((s.seat c.seat).copyEnded c.handle) else s

/-- ACOPY_COMPLETE (R271, R272): the engine makes what progress it can; a copy that waits for a page makes none. -/
def execAcopyComplete (seat handle : Nat) (s : State) : Out :=
  match s.copies.find? (fun (c : Copy) => decide (c.seat = seat ∧ c.handle = handle) && c.status.isNone && c.fault.isNone) with
  | none => .next s
  | some c =>
    match s.remoteOf c.dst, s.remoteOf c.src with
    | some dev, _ =>
      let r := s.copyOut c dev
      .next (match r.2 with | some w => r.1.endCopy c w | none => r.1)
    | none, some dev =>
      match s.copyIn c dev with
      | (none, s) => .next s
      | (some (.page _ _), s) => .next s
      | (some (.status t w), _) =>
        .next (({ t with remotes := t.remotes.filter (fun (r : RemoteOp) => some r.tag ≠ c.tag) } : State).endCopy c w)
    | none, none =>
      match s.copyRun c with
      | .page _ _ => .next s
      | .status t w => .next (t.endCopy c w)

end Sys2Proof.Machine
end

