-- ==== Sys2Proof/Machine/Context.lean ====
section
/-! DEFINITION. The context save area (spec/22_translation_faults_preemption.md R455 to R457): what `ctxsv` writes and
`ctxld` reads. The thread saved is the interrupted one, as its trap left it: its next instruction is at EPC, its VTYPE is
EVTYPE and its privilege PPRIV (log 21). -/

namespace Sys2Proof.Machine

/-- The 64-byte units of an area access at `va`, each checked as an access of kind `k` (R281, R144); a lattice region
refuses a store of that width. -/
def State.areaUnits (s : State) (k : Acc) (va : Word) : Nat → List Byte → Except Trap (List (Nat × List Byte))
  | 0, _ => .ok []
  | _ + 1, [] => .ok []
  | n + 1, b :: bs =>
    match s.access s.ctx k false va 64 0 with
    | .error t => .error t
    | .ok l =>
      if l.region.isSome ∧ k = .store then .error { cause := 0x08, sub := 0x01, eval := va, kind := 1 }
      else
        match s.areaUnits k (va + 64) n ((b :: bs).drop 64) with
        | .error t => .error t
        | .ok us => .ok ((l.pa, (b :: bs).take 64) :: us)

/-- `n` 64-byte blocks read at `va` under the checks of a load (R281, R144), the seat's pending stores among them (R145). -/
def State.areaRead (s : State) (va : Word) : Nat → Except Trap (List Byte)
  | 0 => .ok []
  | n + 1 =>
    match s.access s.ctx .load false va 64 0 with
    | .error t => .error t
    | .ok l =>
      if s.poisoned s.th.owner l then
        .error { cause := 0x0D, eval := va, poisons := if l.psn then none else some l.pa, kind := 0 }
      else
        match s.areaRead (va + 64) n with
        | .error t => .error t
        | .ok bs => .ok (s.readAt s.th.owner s.th.lsq l.pa 64 ++ bs)

/-- The coherence points of those blocks serve them, up to the first that cannot be read (spec/13_memory_hierarchy.md R332). -/
def State.areaServe (s : State) (va : Word) : Nat → State
  | 0 => s
  | n + 1 =>
    let s := s.reach s.ctx 64 [va]
    match s.access s.ctx .load false va 64 0 with
    | .error _ => s
    | .ok l =>
      if l.psn || s.pointDead l.pa then s
      else
        let s := s.serveLines s.th.owner [l.pa / 128]
        if s.poisoned s.th.owner l then s else s.areaServe (va + 64) n

/-- The word of slice `lane` at global portion word `k`. -/
def Thread.sliceWord (t : Thread) (k lane : Nat) : Nat := ((t.slices.getD lane 0).extractLsb' (32 * k) 32).toNat

/-- The bytes of register `n` in the area (R457). -/
def Thread.regBytes (t : Thread) (n : Nat) : List Byte :=
  (List.range t.portion).flatMap (fun p =>
    (List.range t.lanes).flatMap (fun lane => natLe 4 (t.sliceWord (n * t.portion + p) lane)))

/-- The saved value of a control register: those the trap displaced are given back (log 21), and FFLAGS holds the flags of an `fx` that has
stopped with records too, which the area has no other place for (spec/11_fabric_configuration.md R291; log 55). -/
def Thread.savedCsr (t : Thread) (c : Csr) : Word :=
  match c with
  | .vtype => t.get .evtype &&& 0x1FFFFFF
  | .status => (t.get .status &&& 6) ||| ((t.get .status >>> 1) &&& 1)
  | .fflags => t.get .fflags ||| (if (t.get .fstat).getLsbD 1 then t.fxFlags.setWidth 64 else 0)
  | c => t.get c

/-- The header (R456). -/
def Thread.header (t : Thread) : List Byte :=
  let b (x : Bool) : Nat := if x then 1 else 0
  natLe 4 0x43585653 ++ natLe 2 1 ++ natLe 1 t.octets ++ natLe 1 (t.tb0.tag.toNat + 16 * t.tb1.tag.toNat) ++
  natLe 1 (b t.tb0.poison + 2 * b t.tb1.poison) ++ natLe 7 0 ++ natLe 8 t.vvalid.toNat ++
  natLe 8 t.tb0.paddr.toNat ++ natLe 8 t.tb1.paddr.toNat ++ natLe 4 t.tb0.prow.toNat ++ natLe 4 t.tb1.prow.toNat ++
  natLe 16 0

/-- The slot-table cache of the seat, entry by entry (R455): valid entries as the table holds them. -/
def State.slotBytes (s : State) : List Byte :=
  (List.range 64).flatMap (fun k =>
    natLe 8 (if s.th.slotValid.getLsbD k then leNat ((List.range 8).map (fun i => s.rawByte ((s.th.get .slottab).toNat + 8 * k + i))) else 0))

/-- The bytes at offsets 0 to 0x2_0FFF of the area (R455). -/
def State.areaBytes (s : State) : List Byte :=
  let t := s.th
  t.header ++ t.s.toList.flatMap (fun w => natLe 8 w.toNat) ++ t.f.toList.flatMap (fun w => natLe 8 w.toNat) ++
  natLe 8 (t.get .epc).toNat ++ Csr.all.flatMap (fun c => natLe 8 (t.savedCsr c).toNat) ++ natLe 88 0 ++
  s.slotBytes ++ natLe 2560 0 ++ natLe 65536 t.tb0.data.toNat ++ natLe 65536 t.tb1.data.toNat

/-- Everything `ctxsv` writes, as pieces of the area by offset: only valid registers among them (R457). -/
def State.areaPieces (s : State) : List (Nat × List Byte) :=
  (0, s.areaBytes) :: s.th.validRegs.map (fun n => (0x21000 + n * 4 * s.th.portion * s.th.lanes, s.th.regBytes n))

/-- The pages that pieces of an area at `va` reach. -/
def piecePages (va : Word) (ps : List (Nat × List Byte)) : List Word :=
  ps.flatMap (fun p => (List.range ((p.1 % 4096 + p.2.length + 4095) / 4096)).map (fun k =>
    va + BitVec.ofNat 64 (p.1 / 4096 * 4096 + 4096 * k)))

/-- The units of all pieces, checked in ascending order. -/
def State.pieceUnits (s : State) (va : Word) : List (Nat × List Byte) → Except Trap (List (Nat × List Byte))
  | [] => .ok []
  | (off, bs) :: ps =>
    match s.areaUnits .store (va + BitVec.ofNat 64 off) (bs.length / 64) bs with
    | .error t => .error t
    | .ok us =>
      match s.pieceUnits va ps with
      | .error t => .error t
      | .ok vs => .ok (us ++ vs)

/-- `n` bytes of the area from an offset, as a number. -/
def areaNat (bs : List Byte) (off n : Nat) : Nat := leNat ((bs.drop off).take n)

/-- The coherence points of the blocks of some registers serve them. -/
def State.areaRegsServe (s : State) (va : Word) (bytes : Nat) (ns : List Nat) : State :=
  ns.foldl (fun s n => s.areaServe (va + BitVec.ofNat 64 (0x21000 + n * bytes)) (bytes / 64)) s

/-- The blocks of the valid registers of a saved context, by register (R457). -/
def State.areaRegs (s : State) (va : Word) (bytes : Nat) : List Nat → Except Trap (List (Nat × List Byte))
  | [] => .ok []
  | n :: ns =>
    match s.areaRead (va + BitVec.ofNat 64 (0x21000 + n * bytes)) (bytes / 64) with
    | .error t => .error t
    | .ok bs =>
      match s.areaRegs va bytes ns with
      | .error t => .error t
      | .ok rs => .ok ((n, bs) :: rs)

/-- The slice of a lane from the blocks of the valid registers (R457). -/
def areaSlice (portion lanes lane : Nat) (regs : List (Nat × List Byte)) : BitVec 8192 :=
  regs.foldl (fun a e =>
    (List.range portion).foldl (fun a p =>
      a ||| (BitVec.ofNat 8192 (areaNat e.2 (4 * (p * lanes + lane)) 4) <<< (32 * (e.1 * portion + p)))) a) 0

/-- A tile register of a saved context (R455, R456). -/
def areaTile (bs : List Byte) (k owner : Nat) : Tile where
  data := BitVec.ofNat 524288 (areaNat bs (0x1000 + 65536 * k) 65536)
  tag := BitVec.ofNat 4 (areaNat bs 7 1 / 16 ^ k)
  pending := none
  poison := decide (areaNat bs 8 1 / 2 ^ k % 2 = 1)
  paddr := BitVec.ofNat 64 (areaNat bs (24 + 8 * k) 8)
  prow := BitVec.ofNat 32 (areaNat bs (40 + 4 * k) 4)
  owner := some (BitVec.ofNat 10 owner)

/-- The control registers of a saved context, but for SEATID, GRANT and GCEIL (R303, R281). -/
def areaCsrs (bs : List Byte) (t : Thread) : Thread :=
  Csr.all.zipIdx.foldl (fun t e => t.set e.1 (BitVec.ofNat 64 (areaNat bs (0x248 + 8 * e.2) 8) &&& e.1.mask)) t

/-- The thread that a context restores on a seat (R281, R303, R455 to R457); what the seat kept of another thread's stopped `fx` is gone
(log 55). -/
def restored (t : Thread) (os : List Nat) (bs : List Byte) (regs : List (Nat × List Byte)) : Thread :=
  let u := areaCsrs bs t
  let ceil := Nat.max (u.get .gceil).toNat (areaNat bs 6 1)
  let u := ((u.set .seatid (t.get .seatid)).set .grant (grantWord os)).set .gceil (BitVec.ofNat 64 ceil)
  let slots := (List.range 64).foldl (fun (a : BitVec 64) k =>
    if areaNat bs (0x400 + 8 * k) 8 ≠ 0 then a ||| (1#64 <<< k) else a) 0
  { u with
    s := Vector.ofFn (fun i => if i.val = 0 then 0 else BitVec.ofNat 64 (areaNat bs (0x40 + 8 * i.val) 8))
    f := Vector.ofFn (fun i => BitVec.ofNat 64 (areaNat bs (0x140 + 8 * i.val) 8))
    pc := BitVec.ofNat 57 (areaNat bs 0x240 8 / 4 * 4)
    vvalid := BitVec.ofNat 64 (areaNat bs 16 8)
    slices := Vector.ofFn (fun i => areaSlice u.portion (8 * areaNat bs 6 1) i.val regs)
    slotValid := slots
    tb0 := areaTile bs 0 u.owner
    tb1 := areaTile bs 1 u.owner
    fxFlags := 0
    fxStores := []
    fxBase := []
    finishing := none
    ahead := none
    run := .running }

end Sys2Proof.Machine
end

