-- ==== Sys2Proof/Machine/FImage.lean ====
section
/-! DEFINITION. Fabric images: the words of an image (spec/11_fabric_configuration.md R285 to R287), what each opcode takes
(R290, R293, R295, R296) and the validation of `fload` (R301, R497). -/

namespace Sys2Proof.Machine

/-! ## Opcodes -/

/-- Inputs and outputs of a node opcode (R290, R293, R295, R296); `none` for an opcode that does not exist. -/
def opShape (op aux : Nat) : Option (Nat × Nat) :=
  match op with
  | 0x04 => some (3, 1)
  | 0x01 | 0x02 | 0x03 | 0x05 | 0x06 | 0x07 | 0x08 | 0x09 | 0x0A | 0x0B | 0x0C => some (2, 1)
  | 0x10 | 0x11 | 0x12 | 0x13 | 0x14 | 0x15 => some (2, 1)
  | 0x18 | 0x1C | 0x1D => some (1, 1)
  | 0x20 => some (2, 2)
  | 0x21 | 0x22 => some (3, 1)
  | 0x23 | 0x24 | 0x28 | 0x29 | 0x2A => some (2, 1)
  | 0x2B | 0x2C | 0x2D => some (1, 1)
  | 0x40 => some (1, 1)
  | 0x41 => some (2, 1)
  | 0x42 => some (2, 2)
  | 0x43 => some (3, 0)
  | 0x48 => some (if aux = 0 then 1 else 3, 0)
  | 0x49 => some (0, 1)
  | _ => none

/-- An element-wise opcode (R290). -/
def isElemOp (op : Nat) : Bool := decide (op < 0x20)

/-- A memory or engine opcode (R296). -/
def isMemOp (op : Nat) : Bool := decide (0x40 ≤ op)

/-- A stateful node (R300). -/
def FNode.stateful (n : FNode) : Bool := [0x22, 0x23, 0x2B, 0x2C, 0x2D, 0x43].contains n.op || n.exit

/-- FMT and EW of a node (R286). -/
def nodeFmtOk (fmt ew : Nat) : Bool := decide (fmt ≤ 1) || decide (fmt = 3 ∧ ew = 2) || decide (fmt = 4 ∧ ew = 1)

/-- The marks of R290: integer only, float only. -/
def opFmtOk (op fmt : Nat) : Bool :=
  (!([0x07, 0x08, 0x09, 0x0A, 0x0B, 0x0C, 0x14, 0x15].contains op) || decide (fmt ≤ 1)) &&
  (!([0x04, 0x1C, 0x1D].contains op) || decide (3 ≤ fmt))

/-- AUX of an opcode that reads it: `cvt` (R290), `red` (R295), `ereq` (R296). A value to which R295 and R296 give no meaning, above 2 and
above 1, is refused as R290 refuses one of `cvt` (DESIGN CHOICE; log 57). -/
def opAuxOk (op aux : Nat) : Bool :=
  if op = 0x18 then decide (aux / 4 % 4 = 0) && nodeFmtOk (aux / 16) (aux % 4)
  else if op = 0x2B then decide (aux ≤ 2)
  else if op = 0x48 then decide (aux ≤ 1)
  else true

/-! ## Words -/

/-- A node word (R286). -/
def nodeOf (w : Nat) : FNode where
  tile := bitsOf w 61 3
  node := bitsOf w 56 5
  op := bitsOf w 48 8
  fmt := bitsOf w 44 4
  ew := bitsOf w 42 2
  exit := decide (bitsOf w 41 1 = 1)
  aux := bitsOf w 32 8
  imm := BitVec.ofNat 32 w

/-- A link word (R287). -/
def linkOf (w : Nat) : FLink where
  stile := bitsOf w 61 3
  snode := bitsOf w 56 5
  sout := bitsOf w 55 1
  dtile := bitsOf w 52 3
  dnode := bitsOf w 47 5
  din := bitsOf w 45 2
  slots := bitsOf w 39 6

/-- The node of a tile and node number. -/
def findNode (ns : List FNode) (t n : Nat) : Option FNode := ns.find? (fun x => decide (x.tile = t ∧ x.node = n))

/-- A crossing (R287). -/
def FLink.crossing (l : FLink) : Bool := decide (20 ≤ l.snode) || decide (20 ≤ l.dnode) || decide (l.stile ≠ l.dtile)

/-- A tile and node as one number. -/
def nodeKey (t n : Nat) : Nat := 32 * t + n

/-- The source and destination of a link as node keys. -/
def FLink.src (l : FLink) : Nat := nodeKey l.stile l.snode
/-- The destination of a link as a node key. -/
def FLink.dst (l : FLink) : Nat := nodeKey l.dtile l.dnode

/-- A refusal of `fload`: the sub-cause and the offset of the offending word (R259, R301). -/
structure Refused where
  sub : BitVec 8
  off : Nat
  deriving DecidableEq, Repr

/-- The fields of a header (R285). -/
structure FHead where
  marked : Bool
  foot : Nat
  nnode : Nat
  nlink : Nat
  seg : Nat
  length : Nat
  deriving DecidableEq, Repr

/-- Image bytes of so many words (R285). -/
def imageLength (words : Nat) : Nat := 64 + 64 * ((8 * words + 63) / 64)

/-- Check 1 of R301 on the header words: the first word at fault, in address order. -/
def headerOf (ws : List Nat) : Except Refused FHead :=
  let h0 := ws.getD 0 0
  let h1 := ws.getD 1 0
  let h2 := ws.getD 2 0
  let mode := bitsOf h0 48 8
  let foot := bitsOf h0 56 8
  let nnode := bitsOf h1 0 16
  let nlink := bitsOf h1 16 16
  let seg := bitsOf h1 32 32
  let segOk := if mode = 1 then decide (1 ≤ seg ∧ seg ≤ 65536 ∧ 2 ^ seg.log2 = seg) else decide (seg = 0)
  if bitsOf h0 0 32 ≠ 0x43464E45 ∨ bitsOf h0 32 16 ≠ 1 ∨ 1 < mode ∨ foot = 0 ∨ 8 < foot then .error ⟨0x13, 0⟩
  else if nnode = 0 ∨ 20 * foot < nnode ∨ nlink = 0 ∨ 1024 < nlink ∨ !segOk then .error ⟨0x13, 8⟩
  else if bitsOf h2 0 32 ≠ imageLength (nnode + nlink) ∨ bitsOf h2 32 32 ≠ 0 then .error ⟨0x13, 16⟩
  else
    match [3, 4, 5, 6, 7].find? (fun k => decide (ws.getD k 0 ≠ 0)) with
    | some k => .error ⟨0x13, 8 * k⟩
    | none => .ok ⟨decide (mode = 1), foot, nnode, nlink, seg, bitsOf h2 0 32⟩

/-! ## Check 1 on nodes and links -/

/-- A node word is legal after the nodes `ns` (R286, R290, R296). -/
def nodeOk (foot : Nat) (ns : List FNode) (w : Nat) : Bool :=
  let n := nodeOf w
  (opShape n.op n.aux).isSome && decide (bitsOf w 40 1 = 0) && decide (n.tile < foot) && decide (n.node < 20) &&
  (isMemOp n.op == decide (16 ≤ n.node)) && nodeFmtOk n.fmt n.ew && opFmtOk n.op n.fmt && opAuxOk n.op n.aux &&
  (!n.exit || decide (n.op = 0x20 ∨ n.op = 0x21)) && (findNode ns n.tile n.node).isNone

/-- The node words from index `k` on (R301). -/
def nodesOf (foot : Nat) : List Nat → Nat → List FNode → Except Refused (List FNode)
  | [], _, ns => .ok ns
  | w :: ws, k, ns =>
    if nodeOk foot ns w then nodesOf foot ws (k + 1) (ns ++ [nodeOf w]) else .error ⟨0x13, 64 + 8 * k⟩

/-- The source of a link exists (R287, R296). -/
def linkSrcOk (ns : List FNode) (l : FLink) : Bool :=
  if 20 ≤ l.snode then [20, 21, 22, 23, 26].contains l.snode && decide (l.stile = 0) && decide (l.sout = 0)
  else
    match findNode ns l.stile l.snode with
    | none => false
    | some n => decide (l.sout < ((opShape n.op n.aux).getD (0, 0)).2)

/-- The destination of a link exists (R287, R296). -/
def linkDstOk (ns : List FNode) (l : FLink) : Bool :=
  if 20 ≤ l.dnode then [24, 25].contains l.dnode && decide (l.dtile = 0) && decide (l.din = 0)
  else
    match findNode ns l.dtile l.dnode with
    | none => false
    | some n => decide (l.din < ((opShape n.op n.aux).getD (0, 0)).1)

/-- A link word is legal after the links `ls` (R287): its endpoints exist, its input is not yet fed, and its source feeds
fewer than four links, the copy-completion port 26 as much as a node output or an input port, which R287 names (DESIGN CHOICE; log 57). -/
def linkOk (ns : List FNode) (ls : List FLink) (w : Nat) : Bool :=
  let l := linkOf w
  decide (bitsOf w 0 39 = 0) && linkSrcOk ns l && linkDstOk ns l &&
  !ls.any (fun k => decide (k.dst = l.dst ∧ k.din = l.din)) &&
  decide (ls.countP (fun k => decide (k.src = l.src ∧ k.sout = l.sout)) < 4)

/-- The link words from word index `k` on (R301). -/
def linksOf (ns : List FNode) : List Nat → Nat → List FLink → Except Refused (List FLink)
  | [], _, ls => .ok ls
  | w :: ws, k, ls =>
    if linkOk ns ls w then linksOf ns ws (k + 1) (ls ++ [linkOf w]) else .error ⟨0x13, 64 + 8 * k⟩

/-! ## Checks 2 to 6 -/

/-- Check 2 of R301: what AUX names. -/
def auxNames (ns : List FNode) (n : FNode) : Bool :=
  let target := findNode ns (n.aux / 32) (n.aux % 32)
  (!n.exit || (target.map (fun x => decide (x.op = 0x22))).getD false) &&
  (decide (n.op ≠ 0x49) || (target.map (fun x => decide (x.op = 0x48))).getD false)

/-- The source that feeds input `i` of a node, as node key and output. -/
def feeder (ls : List FLink) (key i : Nat) : Option (Nat × Nat) :=
  (ls.find? (fun l => decide (l.dst = key ∧ l.din = i))).map (fun l => (l.src, l.sout))

/-- The feeders of a node's linked inputs. -/
def feeders (ls : List FLink) (key : Nat) : List (Nat × Nat) :=
  (ls.filter (fun l => decide (l.dst = key))).map (fun l => (l.src, l.sout))

/-- The class of a source. -/
def classOf (cs : List ((Nat × Nat) × Nat)) (x : Nat × Nat) : Nat :=
  ((cs.find? (fun e => decide (e.1 = x))).map Prod.snd).getD 0

/-- Two classes made one. -/
def mergeClass (cs : List ((Nat × Nat) × Nat)) (a b : Nat) : List ((Nat × Nat) × Nat) :=
  cs.map (fun e => if e.2 = b then (e.1, a) else e)

/-- The rate-equalities that one node adds to those found (R497, cases 2 to 4). -/
def rateStep (ls : List FLink) (ns : List FNode) (cs : List ((Nat × Nat) × Nat)) (n : FNode) :
    List ((Nat × Nat) × Nat) :=
  let key := nodeKey n.tile n.node
  if n.op = 0x42 then mergeClass cs (classOf cs (key, 0)) (classOf cs (key, 1))
  else if isElemOp n.op || [0x40, 0x41, 0x2D].contains n.op then
    match (feeders ls key).map (classOf cs) with
    | [] => cs
    | c :: rest => if rest.all (fun d => decide (d = c)) then mergeClass cs c (classOf cs (key, 0)) else cs
  else if n.op = 0x2B ∨ n.op = 0x2C then
    match feeder ls key 0 with
    | none => cs
    | some f =>
      ns.foldl (fun cs m =>
        if m.op = 0x2B ∨ m.op = 0x2C then
          match feeder ls (nodeKey m.tile m.node) 0 with
          | some g =>
            if classOf cs f = classOf cs g then
              mergeClass cs (classOf cs (key, 0)) (classOf cs (nodeKey m.tile m.node, 0))
            else cs
          | none => cs
        else cs) cs
  else cs

/-- The sources of an image, each in a class of its own. -/
def rateStart (ls : List FLink) (ns : List FNode) : List ((Nat × Nat) × Nat) :=
  let outs := ns.flatMap (fun (n : FNode) => [(nodeKey n.tile n.node, 0), (nodeKey n.tile n.node, 1)])
  ((ls.map (fun (l : FLink) => (l.src, l.sout)) ++ outs).eraseDups).zipIdx

/-- The rate-equality classes of R497 after `k` rounds over the nodes. -/
def rateClasses (ls : List FLink) (ns : List FNode) : Nat → List ((Nat × Nat) × Nat)
  | 0 => rateStart ls ns
  | k + 1 => ns.foldl (rateStep ls ns) (rateClasses ls ns k)

/-- The node keys that `k` steps along `adj` reach from `seen`. -/
def reachFrom (adj : List (Nat × Nat)) : Nat → List Nat → List Nat
  | 0, seen => seen
  | k + 1, seen =>
    let new := ((adj.filter (fun e => seen.contains e.1 && !seen.contains e.2)).map Prod.snd).eraseDups
    if new.isEmpty then seen else reachFrom adj k (seen ++ new)

/-- Links between nodes as pairs of keys. -/
def adjacency (ls : List FLink) : List (Nat × Nat) :=
  (ls.filter (fun l => decide (l.snode < 20 ∧ l.dnode < 20))).map (fun l => (l.src, l.dst))

/-- Check 4 of R301: the link lies on a cycle of links without slots. -/
def zeroCycle (ls : List FLink) (fuel : Nat) (l : FLink) : Bool :=
  decide (l.slots = 0 ∧ l.snode < 20 ∧ l.dnode < 20) &&
  (reachFrom (adjacency (ls.filter (fun k => decide (k.slots = 0)))) fuel [l.dst]).contains l.src

/-- Check 5 of R301: the store node lies in the loop of some `carry` on a path without the loop's exit test. -/
def loopStore (ls : List FLink) (ns : List FNode) (fuel : Nat) (x : FNode) : Bool :=
  decide (x.op = 0x41 ∨ x.op = 0x43) &&
  ns.any (fun c =>
    let ck := nodeKey c.tile c.node
    let exits := (ns.filter (fun n => decide (n.op = 0x20) && n.exit && decide (n.aux = ck))).map
      (fun n => nodeKey n.tile n.node)
    let adj := adjacency ls
    let free := reachFrom (adj.filter (fun e => !exits.contains e.1)) fuel
      ((adj.filter (fun e => decide (e.1 = ck))).map Prod.snd)
    let xk := nodeKey x.tile x.node
    let back := reachFrom adj fuel [xk]
    decide (c.op = 0x22) && free.contains xk &&
    ls.any (fun l => decide (l.dst = ck ∧ l.din = 1) && back.contains l.src))

/-- The index of the first entry that `p` accepts, as a word offset behind `base` words. -/
def firstWord {α : Type} (base : Nat) (p : α → Bool) (l : List α) : Option Nat :=
  (l.findIdx? p).map (fun k => 64 + 8 * (base + k))

/-- `fload`'s validation of an image's words (R301). -/
def imageOf (ws : List Nat) : Except Refused FImage :=
  match headerOf ws with
  | .error e => .error e
  | .ok h =>
    match nodesOf h.foot ((ws.drop 8).take h.nnode) 0 [] with
    | .error e => .error e
    | .ok ns =>
      match linksOf ns ((ws.drop (8 + h.nnode)).take h.nlink) h.nnode [] with
      | .error e => .error e
      | .ok ls =>
        let pad := (ws.drop (8 + h.nnode + h.nlink)).take ((h.length - 64) / 8 - h.nnode - h.nlink)
        let classes := rateClasses ls ns (ns.length + 6)
        let src0 := ((ls.find? (fun l => decide (l.dnode = 24))).map (fun l => (l.src, l.sout))).getD (0, 0)
        let fuel := ns.length + 1
        if !ls.any (fun l => decide (l.dnode = 24)) then .error ⟨0x13, 0⟩
        else
          match firstWord (h.nnode + h.nlink) (fun w => decide (w ≠ 0)) pad with
          | some o => .error ⟨0x13, o⟩
          | none =>
            match firstWord 0 (fun n => !auxNames ns n) ns with
            | some o => .error ⟨0x13, o⟩
            | none =>
              match firstWord h.nnode (fun (l : FLink) => decide (l.dnode = 25) &&
                  decide (classOf classes (l.src, l.sout) ≠ classOf classes src0)) ls with
              | some o => .error ⟨0x13, o⟩
              | none =>
                match firstWord h.nnode (fun l => zeroCycle ls fuel l) ls with
                | some o => .error ⟨0x10, o⟩
                | none =>
                  match firstWord 0 (fun n => loopStore ls ns fuel n) ns with
                  | some o => .error ⟨0x11, o⟩
                  | none =>
                    match firstWord h.nnode (fun (l : FLink) => l.crossing && decide (l.slots < 4)) ls with
                    | some o => .error ⟨0x12, o⟩
                    | none => .ok ⟨h.marked, h.foot, h.seg, ns, ls, h.length⟩

/-- Output port 1 is linked (R261). -/
def FImage.port1 (g : FImage) : Bool := g.links.any (fun l => decide (l.dnode = 25))

end Sys2Proof.Machine
end

