-- ==== Sys2Proof/Machine/FNodes.lean ====
section
/-! DEFINITION. The firing of fabric nodes that access no memory (spec/11_fabric_configuration.md R288 to R295, R299): tokens
and links, end of stream and markers, element-wise, control and stream nodes. A firing that its inputs or its outputs do
not allow changes nothing. -/

namespace Sys2Proof.Machine

/-! ## Tokens and links -/

/-- Is it a data token? -/
def FTok.isData (t : FTok) : Bool := match t.kind with | .data _ => true | _ => false
/-- Is it an end of stream? -/
def FTok.isEos (t : FTok) : Bool := match t.kind with | .eos _ => true | _ => false
/-- Is it a marker? -/
def FTok.isMark (t : FTok) : Bool := match t.kind with | .marker => true | _ => false
/-- Does an end of stream carry the swap flag (R288)? -/
def FTok.flagged (t : FTok) : Bool := match t.kind with | .eos f => f | _ => false
/-- The 64 bits of a data token. -/
def FTok.val (t : FTok) : Nat := match t.kind with | .data w => w.toNat | _ => 0

/-- A position comes after another (R299). -/
def posLater (a b : Nat × Nat) : Bool := decide (a.1 < b.1) || (decide (a.1 = b.1) && decide (a.2 < b.2))

/-- The input with the latest position on a port (R299). -/
def latest (p : Nat) (ts : List FTok) : Option FTok :=
  ts.foldl (fun b t => match b, t.pos.getD p none with
    | b, none => b
    | none, some _ => some t
    | some u, some x => if posLater ((u.pos.getD p none).getD (0, 0)) x then some t else some u) none

/-- The token a firing on the tokens `ts` writes (R299). -/
def firedTok (kind : TokKind) (ts : List FTok) : FTok where
  kind := kind
  pos := (List.range 3).map (fun p => (latest p ts).bind (fun t => t.pos.getD p none))
  rcd := (List.range 3).map (fun p => ((latest p ts).map (fun t => t.rcd.getD p (0, 0))).getD (0, 0))

/-- The elements that a firing's tokens come from, on each port (R299). -/
def elemsOf (ts : List FTok) : List (Option Nat) :=
  (List.range 3).map (fun p => ((latest p ts).bind (fun t => t.pos.getD p none)).map Prod.fst)

/-- Of the tokens that a firing takes, the one with the latest position on a port is known as the last output of its element (R299). -/
def lastOn (ts : List FTok) (p : Nat) : Bool :=
  match latest p ts with
  | none => true
  | some t => decide (t.rcd.getD p (0, 0) = (((t.pos.getD p none).getD (0, 0)).1 + 1, 0))

/-- An output of an expanding node, the `js`-th from its elements `es`; on the ports of which `ends` says so it is known to be the last of
them (R299). -/
def expandTok (w : Word) (es : List (Option Nat)) (js : List Nat) (ends : Nat → Bool) : FTok where
  kind := .data w
  pos := (List.range 3).map (fun p => (es.getD p none).map (fun e => (e, js.getD p 0)))
  rcd := (List.range 3).map (fun p => match es.getD p none with
    | none => (0, 0)
    | some e => if ends p then (e + 1, 0) else (e, js.getD p 0 + 1))

/-- The tokens on a link. -/
def FxRun.queue (r : FxRun) (l : Nat) : List FTok := r.queues.getD l []

/-- The tokens on a link replaced. -/
def FxRun.setQueue (r : FxRun) (l : Nat) (q : List FTok) : FxRun := { r with queues := r.queues.set l q }

/-- The link into input `i` of a node key, or an output port. -/
def FImage.inLink (g : FImage) (key i : Nat) : Option Nat :=
  g.links.findIdx? (fun l => decide (l.dst = key ∧ l.din = i))

/-- The links out of output `o` of a node key, or of an input port. -/
def FImage.outLinks (g : FImage) (key o : Nat) : List Nat :=
  (List.range g.links.length).filter (fun i => match g.links[i]? with
    | some l => decide (l.src = key ∧ l.sout = o)
    | none => false)

/-- A link has a free slot; one of 0 slots holds one token (R289). -/
def FxRun.free (r : FxRun) (l : Nat) : Bool :=
  match r.img.links[l]? with
  | some k => decide ((r.queue l).length < Nat.max k.slots 1)
  | none => false

/-- Every link that leaves the outputs `os` has a free slot (R289). -/
def FxRun.room (r : FxRun) (key : Nat) (os : List Nat) : Bool :=
  os.all (fun o => (r.img.outLinks key o).all (fun l => r.free l))

/-- The token at the head of an input. -/
def FxRun.head (r : FxRun) (key i : Nat) : Option FTok := (r.img.inLink key i).bind (fun l => (r.queue l).head?)

/-- The head of an input consumed. -/
def FxRun.pop (r : FxRun) (key i : Nat) : FxRun :=
  match r.img.inLink key i with
  | some l => r.setQueue l ((r.queue l).drop 1)
  | none => r

/-- The heads of several inputs consumed. -/
def FxRun.pops (r : FxRun) (key : Nat) (is : List Nat) : FxRun := is.foldl (fun r i => r.pop key i) r

/-- A token written to every link of an output (R289). -/
def FxRun.push (r : FxRun) (key o : Nat) (t : FTok) : FxRun :=
  (r.img.outLinks key o).foldl (fun r l => r.setQueue l (r.queue l ++ [t])) r

/-- What node `k` holds. -/
def FxRun.st (r : FxRun) (k : Nat) : FNodeSt := r.nodes.getD k FNodeSt.reset

/-- What node `k` holds, replaced. -/
def FxRun.setSt (r : FxRun) (k : Nat) (x : FNodeSt) : FxRun := { r with nodes := r.nodes.set k x }

/-- Flags of a firing (R291). -/
def FxRun.orFlags (r : FxRun) (fl : BitVec 5) : FxRun := { r with flags := r.flags ||| fl }

/-- The key of a node. -/
def FNode.key (n : FNode) : Nat := nodeKey n.tile n.node

/-- The linked inputs of a node. -/
def FxRun.linked (r : FxRun) (n : FNode) : List Nat := [0, 1, 2].filter (fun i => (r.img.inLink n.key i).isSome)

/-- The outputs of a node. -/
def FNode.outputs (n : FNode) : List Nat := List.range ((opShape n.op n.aux).getD (0, 0)).2

/-- The width of a node in bits (R286). -/
def FNode.w (n : FNode) : Nat := 8 * 2 ^ n.ew

/-- IMM as an operand (R289). -/
def FNode.immB (n : FNode) : Nat :=
  if n.fmt = 3 then n.imm.toNat
  else if n.fmt = 4 then n.imm.toNat % 2 ^ 16
  else ofS n.w (toS 32 n.imm.toNat)

/-- IMM as a token: operand b of a function node whose input 1 is unlinked (R289). -/
def FNode.immTok (n : FNode) : FTok :=
  ⟨.data (BitVec.ofNat 64 n.immB), [none, none, none], [(0, 0), (0, 0), (0, 0)]⟩

/-- What an unlinked input stands for: IMM at input 1 of a function node, else a value that the spec does not give (R289; log 50). -/
def FNode.standIn (n : FNode) (i : Nat) : FTok :=
  if i = 1 ∧ !isMemOp n.op then n.immTok
  else ⟨.data (Config.freeWord (4 * n.key + i)), [none, none, none], [(0, 0), (0, 0), (0, 0)]⟩

/-- The token at an input of a node: its head, or what an unlinked input stands for (R289). -/
def FxRun.input (r : FxRun) (n : FNode) (i : Nat) : Option FTok :=
  if (r.img.inLink n.key i).isNone then some (n.standIn i) else r.head n.key i

/-- The bits a node reads of a token (R288). -/
def FNode.read (n : FNode) (t : FTok) : Nat := t.val % 2 ^ n.w

/-- A result token (R288). -/
def dataOf (v : Nat) : TokKind := .data (BitVec.ofNat 64 v)

/-! ## Loop exits -/

/-- The data tokens at the inputs of a node that discards after a loop exit, discarded and counted (R294). -/
def FxRun.discard (r : FxRun) (n : FNode) : FxRun :=
  (r.linked n).foldl (fun r i =>
    match r.img.inLink n.key i with
    | none => r
    | some l =>
      let q := r.queue l
      let k := (q.takeWhile FTok.isData).length
      { r.setQueue l (q.drop k) with disc := Nat.min 65535 (r.disc + k) }) r

/-- The `carry` of key `c` takes its next i token or end of stream: the exits that name it discard what has reached them,
and no more (R294). -/
def FxRun.endSkips (r : FxRun) (c : Nat) : FxRun :=
  (List.range r.img.nodes.length).foldl (fun r k =>
    match r.img.nodes[k]? with
    | none => r
    | some n =>
      if n.exit && decide (n.aux = c) && (r.st k).skip then
        let r := r.discard n
        r.setSt k { r.st k with skip := false }
      else r) r

/-! ## End of stream and markers (R292) -/

/-- An input discarded up to and including its own end of stream or marker: what remains, the data tokens discarded, and
whether that token was reached, with its swap flag. An end of stream met before the marker stays. -/
def drainQueue (eos : Bool) : List FTok → List FTok × Nat × Option Bool
  | [] => ([], 0, none)
  | t :: q =>
    if t.isData then
      let r := drainQueue eos q
      (r.1, r.2.1 + 1, r.2.2)
    else if t.isEos then (if eos then (q, 0, some t.flagged) else (t :: q, 0, some false))
    else if eos then drainQueue eos q
    else (q, 0, some false)

/-- The inputs of a closing node discarded as far as their tokens go: the run, the inputs that have still to end, and whether a swap
flag was met. -/
def FxRun.drainInputs (r : FxRun) (key : Nat) (eos : Bool) : List Nat → FxRun × List Nat × Bool
  | [] => (r, [], false)
  | i :: is =>
    match r.img.inLink key i with
    | none => r.drainInputs key eos is
    | some l =>
      let d := drainQueue eos (r.queue l)
      let rest := ({ r.setQueue l d.1 with rem := r.rem + d.2.1 } : FxRun).drainInputs key eos is
      (rest.1, if d.2.2.isSome then rest.2.1 else i :: rest.2.1, rest.2.2 || d.2.2 = some true)

/-- A node that emits its end of stream before its other inputs have theirs, since they may depend on it: `merge`, `carry` and
`invariant` (R293). -/
def FNode.early (n : FNode) : Bool := decide (n.op = 0x21 ∨ n.op = 0x22 ∨ n.op = 0x23)

/-- An end of stream takes the swap flag (R264). -/
def FTok.flag (t : FTok) (f : Bool) : FTok := match t.kind with | .eos g => { t with kind := .eos (g || f) } | _ => t

/-- A closing node goes on: it discards, emits its one token when it may, and ends the stream or the segment (R292). Its end of stream
carries the swap flag that those it consumes carry (R264). -/
def FxRun.closeStep (r : FxRun) (k : Nat) (n : FNode) (c : FClose) : FxRun :=
  let eos := c.tok.isEos
  let d := r.drainInputs n.key eos c.left
  let r := d.1
  let c := { c with left := d.2.1, tok := if c.sent then c.tok else c.tok.flag d.2.2 }
  let send := !c.sent && (n.early || c.left.isEmpty) && r.room n.key n.outputs
  let r := if send then n.outputs.foldl (fun r o => r.push n.key o c.tok) r else r
  let c := { c with sent := c.sent || send }
  if c.sent && c.left.isEmpty then
    if eos then r.setSt k { r.st k with close := none, ended := true, endSwap := c.tok.flagged }
    else r.setSt k { FNodeSt.reset with skip := (r.st k).skip }
  else if c.sent && eos then r.setSt k { r.st k with close := some c, ended := true, endSwap := c.tok.flagged }
  else r.setSt k { r.st k with close := some c }

/-- A node begins to close on the token `t` at the head of an input; a `carry` then takes its end of stream (R294). -/
def FxRun.beginClose (r : FxRun) (k : Nat) (n : FNode) (t : FTok) : FxRun :=
  let kind : TokKind := if t.isEos then .eos false else .marker
  let r := if n.op = 0x22 ∧ t.isEos then r.endSkips n.key else r
  r.closeStep k n ⟨firedTok kind [t], false, r.linked n⟩

/-- Among some heads, the end of stream, else the marker, that ends a node (R292). -/
def ender (hs : List FTok) : Option FTok :=
  match hs.find? FTok.isEos with
  | some t => some t
  | none => hs.find? FTok.isMark

/-- A node that zips its linked inputs: it closes, or fires by `f` on its data heads when each has one (R292). -/
def FxRun.zip (r : FxRun) (k : Nat) (n : FNode) (f : FxRun → List (Nat × FTok) → FxRun) : FxRun :=
  let is := r.linked n
  let hs := is.filterMap (fun i => (r.head n.key i).map (fun t => (i, t)))
  match ender (hs.map Prod.snd) with
  | some t => r.beginClose k n t
  | none => if is.isEmpty ∨ hs.length ≠ is.length then r else f r hs

/-- The token among heads at input `i`. -/
def headAt (hs : List (Nat × FTok)) (i : Nat) : Option FTok := (hs.find? (fun e => decide (e.1 = i))).map Prod.snd

/-- Operand `i` of a node that zips its linked inputs (R289; log 50). -/
def FNode.operand (n : FNode) (hs : List (Nat × FTok)) (i : Nat) : FTok := (headAt hs i).getD (n.standIn i)

/-! ## Element-wise nodes (R290, R291) -/

/-- The floating-point format of a node. -/
def FNode.flt (n : FNode) : FFmt := if n.fmt = 4 then bf16 else fp32

/-- An element-wise integer result (R290). -/
def elemInt (op fmt w a b : Nat) : Nat :=
  let lt (x y : Nat) : Bool := if fmt = 0 then decide (toS w x < toS w y) else decide (x < y)
  let bit (c : Bool) : Nat := if c then 1 else 0
  match op with
  | 0x01 => (a + b) % 2 ^ w
  | 0x02 => (a + 2 ^ w - b) % 2 ^ w
  | 0x03 => a * b % 2 ^ w
  | 0x05 => if lt b a then b else a
  | 0x06 => if lt a b then b else a
  | 0x07 => Nat.land a b
  | 0x08 => Nat.lor a b
  | 0x09 => Nat.xor a b
  | 0x0A => a * 2 ^ (b % w) % 2 ^ w
  | 0x0B => a / 2 ^ (b % w)
  | 0x0C => ofS w (toS w a / (2 ^ (b % w) : Nat))
  | 0x10 => bit (decide (a = b))
  | 0x11 => bit (decide (a ≠ b))
  | 0x12 => bit (lt a b)
  | 0x13 => bit (!lt b a)
  | 0x14 => bit (decide (a < b))
  | _ => bit (decide (a ≤ b))

/-- An element-wise floating-point result (R290, R291). -/
def elemFlt (op : Nat) (f : FFmt) (a b c : Nat) : FOut :=
  let e : FEnv := ⟨0, 0, false⟩
  let x := f.read 0 a
  let y := f.read 0 b
  let z := f.read 0 c
  let cmp (cc : FltCmp) : FOut :=
    let r := fCmp cc x y
    { bits := if r.1 then 1 else 0, fl := r.2 }
  match op with
  | 0x01 => fAdd f e x y
  | 0x02 => fSub f e x y
  | 0x03 => fMul f e x y
  | 0x04 => fFma f e false false x y z
  | 0x05 => fMinMax f e false x y
  | 0x06 => fMinMax f e true x y
  | 0x10 => cmp .eq
  | 0x11 => cmp .ne
  | 0x12 => cmp .lt
  | 0x13 => cmp .le
  | 0x1C => fExp2 f e x
  | _ => fRece f x

/-- `cvt` (R290, R291). -/
def FNode.cvt (n : FNode) (a : Nat) : FOut :=
  let df := n.aux / 16
  let dw := 8 * 2 ^ (n.aux % 4)
  let e : FEnv := ⟨0, 0, false⟩
  let g := if df = 4 then bf16 else fp32
  let v : Int := if n.fmt = 0 then toS n.w a else (a : Int)
  match decide (3 ≤ n.fmt), decide (3 ≤ df) with
  | true, true => g.convert e (n.flt.read 0 a)
  | true, false => toInt dw (decide (df = 0)) 0 (n.flt.read 0 a)
  | false, true => g.ofInt e v
  | false, false => { bits := ofS dw v }

/-- The result of an element-wise node. -/
def FNode.elem (n : FNode) (a b c : Nat) : FOut :=
  if n.op = 0x18 then n.cvt a
  else if 3 ≤ n.fmt then elemFlt n.op n.flt a b c
  else { bits := elemInt n.op n.fmt n.w a b }

/-- An element-wise node fires (R289, R290). -/
def FxRun.fireElem (r : FxRun) (k : Nat) (n : FNode) : FxRun :=
  r.zip k n (fun r hs =>
    if !r.room n.key [0] then r
    else
      let v (i : Nat) : Nat := n.read (n.operand hs i)
      let o := n.elem (v 0) (v 1) (v 2)
      ((r.pops n.key (hs.map Prod.fst)).push n.key 0 (firedTok (dataOf o.bits) (hs.map Prod.snd))).orFlags o.fl)

/-! ## Control nodes (R293, R294) -/

/-- `steer` and `filter`. -/
def FxRun.fireSteer (r : FxRun) (k : Nat) (n : FNode) : FxRun :=
  r.zip k n (fun r hs =>
    let d := n.operand hs 0
    let p := n.operand hs 1
    let yes := decide (p.val ≠ 0)
    let o := if yes then 0 else 1
    if n.op = 0x24 ∧ !yes then r.pops n.key [0, 1]
    else if !r.room n.key [o] then r
    else
      let r := (r.pops n.key [0, 1]).push n.key o (firedTok (dataOf (n.read d)) [d, p])
      if n.exit && !yes then r.setSt k { r.st k with skip := true } else r)

/-- `merge`: the unchosen input is not named. -/
def FxRun.fireMerge (r : FxRun) (k : Nat) (n : FNode) : FxRun :=
  match r.input n 0 with
  | none => r
  | some p =>
    if !p.isData then r.beginClose k n p
    else
      let i := if p.val ≠ 0 then 1 else 2
      match r.input n i with
      | none => r
      | some x =>
        if !x.isData then r.beginClose k n x
        else if !r.room n.key [0] then r
        else
          let r := (r.pops n.key [0, i]).push n.key 0 (firedTok (dataOf (n.read x)) [p, x])
          if n.exit && decide (i = 2) then r.setSt k { r.st k with skip := true } else r

/-- `carry`. -/
def FxRun.fireCarry (r : FxRun) (k : Nat) (n : FNode) : FxRun :=
  if !(r.st k).on then
    match r.input n 0 with
    | none => r
    | some i =>
      if !i.isData then r.beginClose k n i
      else if !r.room n.key [0] then r
      else
        let r := ((r.endSkips n.key).pop n.key 0).push n.key 0 (firedTok (dataOf (n.read i)) [i])
        r.setSt k { r.st k with on := true }
  else
    match r.input n 2 with
    | none => r
    | some p =>
      if !p.isData then r.beginClose k n p
      else if p.val = 0 then (r.pop n.key 2).setSt k { r.st k with on := false }
      else
        match r.input n 1 with
        | none => r
        | some f =>
          if !f.isData then r.beginClose k n f
          else if !r.room n.key [0] then r
          else (r.pops n.key [1, 2]).push n.key 0 (firedTok (dataOf (n.read f)) [f, p])

/-- `invariant`. -/
def FxRun.fireInvariant (r : FxRun) (k : Nat) (n : FNode) : FxRun :=
  match r.input n 0, r.input n 1 with
  | some v, some p =>
    match ender [v, p] with
    | some t => r.beginClose k n t
    | none =>
      if !r.room n.key [0] then r
      else (r.pops n.key (if p.val = 0 then [0, 1] else [1])).push n.key 0 (firedTok (dataOf (n.read v)) [v, p])
  | some v, none => if v.isData then r else r.beginClose k n v
  | none, some p => if p.isData then r else r.beginClose k n p
  | none, none => r

/-! ## Stream nodes (R295) -/

/-- The comparison of two heads per FMT: −1, 0 or 1; with a NaN the x head counts as the smaller. It raises no flag, not even on a
signalling NaN: R295 gives the order and names none (DESIGN CHOICE; log 57). -/
def FNode.order (n : FNode) (x y : Nat) : Int :=
  if 3 ≤ n.fmt then
    let a := n.flt.read 0 x
    let b := n.flt.read 0 y
    if a.isNan || b.isNan then -1
    else if (fCmp .eq a b).1 then 0
    else if (fCmp .lt a b).1 then -1 else 1
  else
    let a : Int := if n.fmt = 0 then toS n.w x else (x : Int)
    let b : Int := if n.fmt = 0 then toS n.w y else (y : Int)
    if a = b then 0 else if a < b then -1 else 1

/-- `isect`. -/
def FxRun.fireIsect (r : FxRun) (k : Nat) (n : FNode) : FxRun :=
  r.zip k n (fun r hs =>
    let x := n.operand hs 0
    let y := n.operand hs 1
    let o := n.order (n.read x) (n.read y)
    if o < 0 then r.pop n.key 0
    else if 0 < o then r.pop n.key 1
    else if !r.room n.key [0] then r
    else (r.pops n.key [0, 1]).push n.key 0 (firedTok (dataOf (n.read x)) [x, y]))

/-- `umerge`: with one input at its end, the other's remainder passes, its markers too; with one input unlinked, the linked one ends the
node. -/
def FxRun.fireUmerge (r : FxRun) (k : Nat) (n : FNode) : FxRun :=
  match r.input n 0, r.input n 1 with
  | some x, some y =>
    if (r.linked n).length = 1 ∧ !(x.isData && y.isData) then r.beginClose k n (if x.isData then y else x)
    else
    let pass (i : Nat) (t : FTok) : FxRun :=
      if !r.room n.key [0] then r
      else (r.pop n.key i).push n.key 0 (firedTok (if t.isData then dataOf (n.read t) else .marker) [t])
    match x.isData, y.isData with
    | true, true =>
      let o := n.order (n.read x) (n.read y)
      if o < 0 then pass 0 x
      else if 0 < o then pass 1 y
      else if !r.room n.key [0] then r
      else (r.pops n.key [0, 1]).push n.key 0 (firedTok (dataOf (n.read x)) [x, y])
    | true, false => pass 0 x
    | false, true => pass 1 y
    | false, false =>
      if x.isMark && y.isEos then pass 0 x
      else if x.isEos && y.isMark then pass 1 y
      else r.beginClose k n x
  | _, _ => r

/-! ## Expanding nodes (R295, R296, R299) -/

/-- An expanding node. -/
def FNode.expanding (n : FNode) : Bool := decide (n.op = 0x2A ∨ n.op = 0x42)

/-- The ways of tokens from one node or port to another; a token passes from an `ereq` to the `ersp` that names it. -/
def FImage.ways (g : FImage) : List (Nat × Nat) :=
  adjacency g.links ++ (g.nodes.filter (fun (m : FNode) => decide (m.op = 0x49))).map (fun m => (m.aux, m.key))

/-- The nodes that tokens of the node of a key come to. -/
def FImage.down (g : FImage) (key : Nat) : List Nat :=
  reachFrom g.ways (g.nodes.length + 1) ((g.ways.filter (fun e => decide (e.1 = key))).map Prod.snd)

/-- No expanding node follows this one on its way to output port 0: the sub-indices that arrive there are this node's (R299). A branch that
ends elsewhere is not on the way. -/
def FImage.lastExpander (g : FImage) (n : FNode) : Bool :=
  let arrives (m : FNode) : Bool :=
    g.links.any (fun (l : FLink) => decide (l.dnode = 24) && (decide (l.src = m.key) || (g.down m.key).contains l.src))
  arrives n && g.nodes.all (fun (m : FNode) => !m.expanding || decide (m.key = n.key) || !(g.down n.key).contains m.key || !arrives m)

/-- The outputs made so far from the elements `es`, on each port (R299). -/
def FNodeSt.made (x : FNodeSt) (es : List (Option Nat)) : List Nat :=
  (List.range 3).map (fun p => ((es.getD p none).map (fun e => Map.get 0 x.outs (4 * e + p))).getD 0)

/-- A node that has made the `js`-th output from `es`. -/
def FNodeSt.count (x : FNodeSt) (es : List (Option Nat)) (js : List Nat) : FNodeSt :=
  { x with outs := (List.range 3).foldl (fun m p => match es.getD p none with
      | some e => Map.put 0 m (4 * e + p) (js.getD p 0 + 1)
      | none => m) x.outs }

/-- A resumed pass does not make this output again: the record names its element and counts it (R261, R299). -/
def FxRun.skips (r : FxRun) (n : FNode) (es : List (Option Nat)) (js : List Nat) : Bool :=
  r.img.lastExpander n &&
  (List.range 3).any (fun p => match es.getD p none, r.streams[p]? with
    | some e, some s => decide (e = s.start ∧ js.getD p 0 < s.sub)
    | _, _ => false)

/-- Tokens of element `e` of port `p` among some. -/
def anyFrom (p e : Nat) (ts : List FTok) : Bool := ts.any (fun t => decide ((t.pos.getD p none).map Prod.fst = some e))

/-- Node `n` makes no more outputs from element `e` of port `p`: no token of it is left before the node. -/
def FxRun.spent (r : FxRun) (n : FNode) (p e : Nat) : Bool :=
  let before (key : Nat) : Bool := decide (key = n.key) || (r.img.down key).contains n.key
  (r.img.links.zipIdx).all (fun l => !before l.1.dst || !anyFrom p e (r.queue l.2)) &&
  (r.img.nodes.zipIdx).all (fun m => !before m.1.key ||
    !anyFrom p e ((r.reqs.getD m.2 []).map (fun q => match q with | .ready t => t | .copy _ t => t)))

/-- The record of a port as it stands now (R299): an output that was not known to be the last of its element when it left shows to have
been, once the expanding node has no more to make from that element. -/
def FxRun.recordNow (r : FxRun) (p : Nat) (x : Nat × Nat) : Nat × Nat :=
  if x.2 ≠ 0 ∧ (r.img.nodes.zipIdx).any (fun m => m.1.expanding && r.img.lastExpander m.1 &&
      decide (Map.get 0 (r.st m.2).outs (4 * x.1 + p) = x.2) && r.spent m.1 p x.1) then (x.1 + 1, 0) else x

/-- `rep`: one output for each firing; the last one, or a count of 0, consumes both inputs. -/
def FxRun.fireRep (r : FxRun) (k : Nat) (n : FNode) : FxRun :=
  r.zip k n (fun r hs =>
    let v := n.operand hs 0
    let c := n.operand hs 1
    let st := r.st k
    let es := elemsOf [v, c]
    let cnt := n.read c
    if cnt ≤ st.cnt then (r.pops n.key [0, 1]).setSt k { st with cnt := 0 }
    else
      let js := st.made es
      let last := decide (st.cnt + 1 = cnt)
      let next : FNodeSt := { st.count es js with cnt := if last then 0 else st.cnt + 1 }
      let r' := if last then r.pops n.key [0, 1] else r
      if r.skips n es js then r'.setSt k next
      else if !r.room n.key [0] then r
      else (r'.push n.key 0 (expandTok (BitVec.ofNat 64 (n.read v)) es js (fun p => last && lastOn [v, c] p))).setSt k next)

/-- The next state of `red`. -/
def FNode.reduce (n : FNode) (acc v : Nat) : FOut :=
  let op := if n.aux = 0 then 0x01 else if n.aux = 1 then 0x05 else 0x06
  if 3 ≤ n.fmt then elemFlt op n.flt acc v 0 else { bits := elemInt op n.fmt n.w acc v }

/-- `red` and `cnt`: data is taken in; at a marker or end of stream the state is written, then that token. -/
def FxRun.fireFold (r : FxRun) (k : Nat) (n : FNode) : FxRun :=
  let st := r.st k
  match st.pend with
  | some t =>
    if !r.room n.key [0] then r
    else
      let r := r.push n.key 0 t
      r.setSt k { FNodeSt.reset with ended := t.isEos, endSwap := t.flagged, skip := st.skip }
  | none =>
    match r.head n.key 0 with
    | none => r
    | some t =>
      if t.isData then
        if n.op = 0x2C then (r.pop n.key 0).setSt k { st with cnt := st.cnt + 1 }
        else
          let o := n.reduce ((st.acc.map (fun a => a.toNat)).getD n.immB) (n.read t)
          ((r.pop n.key 0).setSt k { st with acc := some (BitVec.ofNat 64 o.bits) }).orFlags o.fl
      else if !r.room n.key [0] then r
      else
        let v := if n.op = 0x2C then st.cnt else (st.acc.map (fun a => a.toNat)).getD n.immB
        let kind : TokKind := if t.isEos then .eos t.flagged else .marker
        ((r.pop n.key 0).push n.key 0 (firedTok (dataOf v) [t])).setSt k { st with pend := some (firedTok kind [t]) }

/-- `idx`. -/
def FxRun.fireIdx (r : FxRun) (k : Nat) (n : FNode) : FxRun :=
  match r.head n.key 0 with
  | none => r
  | some t =>
    if !t.isData then r.beginClose k n t
    else if !r.room n.key [0] then r
    else
      let st := r.st k
      ((r.pop n.key 0).push n.key 0 (firedTok (dataOf st.cnt) [t])).setSt k { st with cnt := st.cnt + 1 }

/-- A node of R290, R293 or R295 fires, or goes on closing (R289, R292, R294). One without a linked input never does (log 50). -/
def FxRun.fireNode (r : FxRun) (k : Nat) (n : FNode) : FxRun :=
  let r := if (r.st k).skip then r.discard n else r
  match (r.st k).close with
  | some c => r.closeStep k n c
  | none =>
    if (r.st k).ended || (r.linked n).isEmpty then r
    else if isElemOp n.op then r.fireElem k n
    else
      match n.op with
      | 0x20 | 0x24 => r.fireSteer k n
      | 0x21 => r.fireMerge k n
      | 0x22 => r.fireCarry k n
      | 0x23 => r.fireInvariant k n
      | 0x28 => r.fireIsect k n
      | 0x29 => r.fireUmerge k n
      | 0x2A => r.fireRep k n
      | 0x2B | 0x2C => r.fireFold k n
      | 0x2D => r.fireIdx k n
      | _ => r

end Sys2Proof.Machine
end

