-- ==== Sys2Proof/Machine/Fabric.lean ====
section
/-! DEFINITION. The Sideboard: slot tables (spec/10_fabric_region_sync_system_instructions.md R256 to R260), placement,
contexts and shadows (spec/15_fabric_programming.md R361 to R365, R375), the slot instructions, and the issue of `fx`
(R261, R263). -/

namespace Sys2Proof.Machine

/-! ## Slot tables -/

/-- The base of the focused thread's slot table (R361). -/
def State.slotTab (s : State) : Nat := (s.th.get .slottab).toNat

/-- The slot-table entry as the seat reads it, its own older stores included (R256, R257). -/
def State.slotEntry (s : State) (slot : Nat) : Nat :=
  let pa := s.slotTab + 8 * slot
  leNat ((List.range 8).map (fun i => forward s.th.lsq (pa + i) (s.tableByte (pa + i))))

/-- The coherence point of an entry serves a read that misses the seat's slot-table cache (R257). -/
def State.slotServe (s : State) (slot : Nat) : State :=
  if s.th.slotValid.getLsbD slot then s else s.serveTable (s.slotTab + 8 * slot)

/-- V of an entry (R256). -/
def entryV (e : Nat) : Bool := decide (bitsOf e 63 1 = 1)
/-- SH of an entry. -/
def entrySh (e : Nat) : Bool := decide (bitsOf e 62 1 = 1)
/-- SID of an entry. -/
def entrySid (e : Nat) : Nat := bitsOf e 32 12
/-- CID of an entry. -/
def entryCid (e : Nat) : Nat := bitsOf e 0 12

/-- The slot table lies where memory is; the trap of an access to one that does not (R326; log 26). -/
def State.slotTrap (s : State) (slot : Nat) : Option Trap :=
  let pa := s.slotTab + 8 * slot
  if paKind pa = .hbm ∨ paKind pa = .vsp then none else some { cause := 0x07, eval := BitVec.ofNat 64 pa, kind := 0 }

/-- A write of an entry, as an `st.d` of the seat (R257, R284). -/
def State.setEntry (s : State) (slot v : Nat) : State :=
  s.enqueue ⟨s.slotTab + 8 * slot, natLe 8 v, s.th.owner, false, false⟩

/-- The resident image of an identifier (R258). -/
def State.image (s : State) (cid : Nat) : Option Image := Map.get none s.images cid

/-- An identifier held in a register, as the slot instructions check it (R259, R362): bits 63..12 not zero name nothing
resident. -/
def State.identOf (s : State) (a : Word) : Except Trap (Nat × Image) :=
  match s.image a.toNat with
  | none => .error { cause := 0x0A, sub := 0x01 }
  | some i => if 4096 ≤ a.toNat then .error { cause := 0x0A, sub := 0x01 }
    else if i.owner ≠ s.th.owner then .error { cause := 0x0A, sub := 0x02 } else .ok (a.toNat, i)

/-! ## Contexts and placement -/

/-- The started `fx` that occupies tile `t` of core `c`: its seat and run (R322). -/
def State.occupant (s : State) (c t : Nat) : Option (Nat × FxRun) :=
  (seatsOf c).findSome? (fun n =>
    match (s.seat n).fx with
    | some r => if r.started && decide (r.base ≤ t ∧ t < r.base + r.img.foot) then some (n, r) else none
    | none => none)

/-- The entries of a tile (R364, R365). -/
def Core.entries (k : Core) (t : Nat) : List TileCtx := k.ctx.filter (fun (e : TileCtx) => e.tile = t)

/-- An entry may be evicted (R365); a running `fx` gives up the old context of a tile that has swapped (R376). -/
def State.evictable (s : State) (c : Nat) (e : TileCtx) : Bool :=
  e.shadow.isNone &&
  (match s.occupant c e.tile with
   | some (_, r) => decide (r.cid ≠ e.cid) || r.swapped.contains (e.tile - r.base)
   | none => true)

/-- A tile has a free or evictable entry (R364). -/
def State.hasEntry (s : State) (c t : Nat) : Bool :=
  let es := (s.core c).entries t
  decide (es.length < 4) || es.any (fun e => s.evictable c e)

/-- The evictable entry of a tile whose configuration last ran there longest ago; among equals the lowest identifier (R365;
log 27). -/
def State.victimEntry (s : State) (c t : Nat) : Option TileCtx :=
  (((s.core c).entries t).filter (fun e => s.evictable c e)).foldl (fun b (e : TileCtx) => match b with
    | none => some e
    | some v => if e.lastRun < v.lastRun ∨ (e.lastRun = v.lastRun ∧ e.cid < v.cid) then some e else b) none

/-- A configuration none of whose contexts is left loses its placement (R364). -/
def Core.dropPlacement (k : Core) (cid : Nat) : Core :=
  if k.ctx.any (fun (e : TileCtx) => decide (e.cid = cid) && e.shadow.isNone) then k
  else { k with place := k.place.filter (fun (p : Placement) => p.cid ≠ cid) }

/-- An entry of tile `t` is free afterwards: one is evicted if there is none (R365). -/
def State.makeRoom (s : State) (c t : Nat) : State :=
  let k := s.core c
  if (k.entries t).length < 4 then s
  else
    match s.victimEntry c t with
    | none => s
    | some v => s.setCore c ({ k with ctx := k.ctx.filter (fun e => e ≠ v) }.dropPlacement v.cid)

/-- The placement of a configuration on a core (R364). -/
def Core.placeOf (k : Core) (cid : Nat) : Option Placement := k.place.find? (fun (p : Placement) => p.cid = cid)

/-- Among some bases, those with the greatest `f`. -/
def bestBases (f : Nat → Nat) (bs : List Nat) : List Nat :=
  let m := bs.foldl (fun m b => Nat.max m (f b)) 0
  bs.filter (fun b => decide (f b = m))

/-- The base the allocator chooses for a footprint, for seat `n` (R364). -/
def State.chooseBase (s : State) (n foot : Nat) : Option Nat :=
  let c := coreOf n
  let tiles (b : Nat) : List Nat := (List.range foot).map (fun r => b + r)
  let ok := (List.range (9 - foot)).filter (fun b => (tiles b).all (fun t => s.hasEntry c t))
  let quiet := ok.filter (fun b => (tiles b).all (fun t =>
    match s.occupant c t with
    | some (m, _) => decide (m = n)
    | none => true))
  let cand := if quiet.isEmpty then ok else quiet
  let free (b : Nat) : Nat := (tiles b).foldl (fun a t => a + (4 - ((s.core c).entries t).length)) 0
  (bestBases free cand).head?

/-- A configuration has an entry of a tile; it takes a free one, or an evicted one, if it has none (R365). -/
def State.takeEntry (s : State) (c t cid : Nat) : State :=
  if ((s.core c).entries t).any (fun (e : TileCtx) => decide (e.cid = cid) && e.shadow.isNone) then s
  else
    let s := s.makeRoom c t
    let k := s.core c
    s.setCore c { k with ctx := k.ctx ++ [⟨t, cid, none, 0, false⟩] }

/-- The configuration has a placement on the core of seat `n`, made now if it can be, with an entry on each of its tiles (R364, R365):
its base. -/
def State.place (s : State) (n cid foot : Nat) : State × Option Nat :=
  let c := coreOf n
  match (s.core c).placeOf cid with
  | some p => (s, some p.base)
  | none =>
    match s.chooseBase n foot with
    | none => (s, none)
    | some b =>
      let s := (List.range foot).foldl (fun s i => s.takeEntry c (b + i) cid) s
      let k := s.core c
      (s.setCore c { k with place := k.place ++ [⟨cid, b, foot⟩] }, some b)

/-- The context of a configuration on a tile, fetched if it is absent, becomes the tile's active one and has last run now
(R365). -/
def State.fetchCtx (s : State) (c t cid : Nat) : State :=
  let s := s.takeEntry c t cid
  let k := s.core c
  s.setCore c { k with ctx := k.ctx.map (fun (e : TileCtx) =>
    if e.tile ≠ t then e
    else if e.cid = cid ∧ e.shadow.isNone then { e with active := true, lastRun := k.useStamp }
    else { e with active := false }) }

/-- An `fshadow` of seat `n` has been woken to look for entries again and has not yet run (R364). -/
def State.looking (s : State) (n : Nat) : Bool := decide ((s.seat n).run = .running) && (s.seat n).fx.isNone

/-- The first `fshadow` among some seats that waits for an entry looks again. -/
def State.wakeFirst (s : State) (ns : List Nat) : State :=
  match ns.find? (fun n => decide ((s.seat n).run = .waiting .fabricEntry)) with
  | some n => s.setSeat n { s.seat n with run := .running }
  | none => s

/-- An entry of core `c` has been released: the `fshadow` instructions that wait for one look again, in the order in which they reached
the Sideboard (R322, R364): the first now, each other after the one before it. -/
def State.wakeFabric (s : State) (c : Nat) : State :=
  let q := (s.core c).fxq
  if q.any s.looking then s else s.wakeFirst q

/-- Every core without the contexts and the placement of a configuration (R259, R362). -/
def State.dropContexts (s : State) (cid : Nat) : State :=
  (Map.keys s.cores).foldl (fun s c =>
    let k := s.core c
    (s.setCore c { k with
      ctx := k.ctx.filter (fun (e : TileCtx) => decide (e.cid ≠ cid)), place := k.place.filter (fun (p : Placement) => p.cid ≠ cid) }).wakeFabric c) s

/-- The number under which the `fx` of seat `n` keeps an image dropped while it was in flight: no identifier, so that a new image may
take the old one (R259, R363). -/
def ghostId (n : Nat) : Nat := 4096 + n

/-- The `fx` in flight of seat `n`, and its contexts on the tiles it runs on, keep a configuration under a number of their own. -/
def State.detach (s : State) (cid n : Nat) : State :=
  let t := s.seat n
  match t.fx with
  | none => s
  | some r =>
    if r.cid ≠ cid then s
    else
      let k := s.core (coreOf n)
      let mine (e : TileCtx) : Bool :=
        decide (e.cid = cid) && e.shadow.isNone && r.started && decide (r.base ≤ e.tile ∧ e.tile < r.base + r.img.foot)
      (s.setCore (coreOf n) { k with ctx := k.ctx.map (fun (e : TileCtx) => if mine e then { e with cid := ghostId n } else e) }).setSeat n
        { t with fx := some { r with cid := ghostId n } }

/-- An image leaves every Armoire, and its contexts every tile that does not run it (R259, R362, R363). -/
def State.dropImage (s : State) (cid : Nat) : State :=
  let s : State := { s with images := Map.put none s.images cid none }
  (s.allSeats.foldl (fun s n => s.detach cid n) s).dropContexts cid

/-- A shadow is armed for a slot on core `c` (R264). -/
def State.armed (s : State) (c tab slot : Nat) : Bool :=
  (s.core c).ctx.any (fun (e : TileCtx) => decide (e.shadow = some (tab, slot)))

/-- The `fx` of a slot on cores where nothing is armed for it carry no swap (R264). -/
def State.dropSwaps (s : State) (tab slot : Nat) : State :=
  s.allSeats.foldl (fun s n =>
    let t := s.seat n
    match t.fx with
    | none => s
    | some r =>
      if r.tab = tab ∧ r.slot = slot ∧ r.swap ∧ !s.armed (coreOf n) tab slot then s.setSeat n { t with fx := some { r with swap := false } }
      else s) s

/-- The shadows armed for a slot are gone from every core (R264). -/
def State.unarm (s : State) (tab slot : Nat) : State :=
  ((Map.keys s.cores).foldl (fun s c =>
    let k := s.core c
    (s.setCore c { k with ctx := k.ctx.filter (fun (e : TileCtx) => e.shadow ≠ some (tab, slot)) }).wakeFabric c) s).dropSwaps tab slot

/-! ## Slot instructions (R259, R260) -/

/-- `fbind`. -/
def execFbind (slot : BitVec 6) (a : SReg) (s : State) : Out :=
  (s.guardTrap (s.qCheck true [] true) fun _ =>
    match s.identOf (s.x a), s.slotTrap slot.toNat with
    | .error t, _ => .trap s t
    | .ok _, some t => .trap s t
    | .ok (cid, _), none =>
      let s := (s.unarm s.slotTab slot.toNat).setEntry slot.toNat (2 ^ 63 + cid)
      .ok (s.finish s.th.pushVq 1)).out

/-- `funbind`. -/
def execFunbind (slot : BitVec 6) (s : State) : Out :=
  (s.guardTrap (s.qCheck true [] true) fun _ =>
    match s.slotTrap slot.toNat with
    | some t => .trap s t
    | none =>
      let s := (s.unarm s.slotTab slot.toNat).setEntry slot.toNat 0
      .ok (s.finish s.th.pushVq 1)).out

/-- The identifiers that no resident image has (R258). -/
def State.freeIds (s : State) : List Nat := (List.range 4096).filter (fun i => (s.image i).isNone)

/-- The image bytes resident in an Armoire (R363). -/
def State.armoireUsed (s : State) : Nat :=
  s.images.foldl (fun n e => n + (match e.2 with | some i => i.img.length | none => 0)) 0

/-- An accepted image is placed in every Armoire (R258, R363): sd receives its identifier, free for the device to choose, or
−1. -/
def State.storeImage (s : State) (d : SReg) (g : FImage) : Res :=
  let ids := s.freeIds
  if ids.isEmpty ∨ 2 ^ 23 < s.armoireUsed + g.length then .ok (s.finish ((s.th.setX d (BitVec.allOnes 64)).pushVq) 1)
  else
    let id := ids.getD (Config.freeNat (s.pick 0) % ids.length) 0
    let s : State := { s with images := Map.put none s.images id (some ⟨s.th.owner, g⟩) }
    .ok (s.finish ((s.th.setX d (BitVec.ofNat 64 id)).pushVq) 1)

/-- The words of some bytes. -/
def wordsOf (bs : List Byte) : List Nat := (List.range (bs.length / 8)).map (fun k => leNat ((bs.drop (8 * k)).take 8))

/-- `fload`: the header is read and checked before the rest of the image (R301). -/
def execFload (d a : SReg) (s : State) : Out :=
  (s.guardTrap (s.qCheck true [] true) fun _ =>
    let sa := s.x a
    let refuse (e : Refused) : Res := .trap s { cause := 0x0A, sub := e.sub, eval := sa + BitVec.ofNat 64 e.off }
    if sa.toNat % 64 ≠ 0 then .trap s { cause := 0x03, eval := sa, kind := 0 }
    else
      let s := s.areaServe sa 1
      match s.areaRead sa 1 with
      | .error t => .trap s t
      | .ok hb =>
        match headerOf (wordsOf hb) with
        | .error e => refuse e
        | .ok h =>
          let s := s.areaServe (sa + 64) (h.length / 64 - 1)
          match s.areaRead (sa + 64) (h.length / 64 - 1) with
          | .error t => .trap s t
          | .ok bs =>
            match imageOf (wordsOf (hb ++ bs)) with
            | .error e => refuse e
            | .ok g => s.storeImage d g).out

/-- `fdrop`. -/
def execFdrop (a : SReg) (s : State) : Out :=
  (s.guardTrap (s.qCheck true [] true) fun _ =>
    match s.identOf (s.x a) with
    | .error t => .trap s t
    | .ok (cid, _) =>
      let s := s.dropImage cid
      .ok (s.finish s.th.pushVq 1)).out

/-- A tile of core `c` has swapped for a slot, in a swap not yet complete, and keeps the image it took (R377). -/
def State.hasSwapped (s : State) (c t tab slot : Nat) : Bool :=
  match s.occupant c t with
  | some (_, r) => decide (r.tab = tab ∧ r.slot = slot) && r.swap && r.swapped.contains (t - r.base)
  | none => false

/-- The shadows armed for a slot are gone from every core, but from the tiles that have swapped: another image replaces them (R264,
R377). -/
def State.disarm (s : State) (tab slot : Nat) : State :=
  ((Map.keys s.cores).foldl (fun s c =>
    let k := s.core c
    (s.setCore c { k with ctx := k.ctx.filter (fun (e : TileCtx) =>
      decide (e.shadow ≠ some (tab, slot)) || s.hasSwapped c e.tile tab slot) }).wakeFabric c) s).dropSwaps tab slot

/-- A tile takes a shadow for a slot (R264, R375). -/
def State.loadShadow (s : State) (c t cid tab slot : Nat) : State :=
  if s.hasSwapped c t tab slot then s
  else
    let s := s.makeRoom c t
    let k := s.core c
    s.setCore c { k with ctx := k.ctx ++ [⟨t, cid, some (tab, slot), 0, false⟩] }

/-- The run has not yet injected its final input token: a linked input port has its own still to inject (R264, R378). -/
def FxRun.injecting (r : FxRun) : Bool :=
  r.img.links.any (fun (l : FLink) =>
    decide (l.snode = 23 ∧ r.argSent < 2) || decide (l.snode = 26 ∧ r.copySent < 2) ||
    (decide (20 ≤ l.snode ∧ l.snode ≤ 22) && !((r.streams[l.snode - 20]?).map (fun (x : FStream) => x.done)).getD false))

/-- A started `fx` of a slot on core `c` that has not injected its final input token carries the swap flag, and one that carries it
swaps to the image armed last (R264, R377). An `fx` that starts later takes the flag then. -/
def State.carrySwap (s : State) (c tab slot sid foot : Nat) : State :=
  (seatsOf c).foldl (fun s n =>
    let t := s.seat n
    match t.fx with
    | none => s
    | some r =>
      if r.tab = tab ∧ r.slot = slot ∧ r.started ∧ (r.swap ∨ r.injecting) then
        s.setSeat n { t with fx := some { r with swap := true, sid := sid, sfoot := foot } }
      else s) s

/-- The focused seat's `fshadow` waits for entries, at its place `ahead ++ behind` in the order of the Sideboard; the next one behind it
looks (R322, R364). -/
def State.waitEntry (s : State) (ahead behind : List Nat) : State :=
  let c := coreOf s.cur
  ((s.setCore c { s.core c with fxq := ahead ++ s.cur :: behind }).waitOn .fabricEntry).wakeFirst behind

/-- `fshadow` (R259, R264, R375, R377). While one that waited before it looks for entries, it waits too (R364); one that fails lets the
next look. -/
def execFshadow (slot : BitVec 6) (a : SReg) (s : State) : Out :=
  (s.guardTrap (s.qCheck true [] true) fun _ =>
    let c := coreOf s.cur
    let q := (s.core c).fxq
    let ahead := q.takeWhile (· ≠ s.cur)
    let behind := (q.dropWhile (· ≠ s.cur)).drop 1
    let s := s.setCore c { s.core c with fxq := ahead ++ behind }
    match s.identOf (s.x a), s.slotTrap slot.toNat with
    | .error t, _ => .trap (s.wakeFirst behind) t
    | .ok _, some t => .trap (s.wakeFirst behind) t
    | .ok (sid, i), none =>
      let s := s.slotServe slot.toNat
      let e := s.slotEntry slot.toNat
      if !entryV e then .trap (s.wakeFirst behind) { cause := 0x09, eval := slot.setWidth 64 }
      else
        match s.image (entryCid e) with
        | none => .trap (s.wakeFirst behind) { cause := 0x0A, sub := 0x01 }
        | some old =>
          if old.img.foot < i.img.foot then .trap (s.wakeFirst behind) { cause := 0x0A, sub := 0x04 }
          else
            let p := s.place s.cur (entryCid e) old.img.foot
            match (if ahead.any s.looking then none else p.2) with
            | none => .ok (s.waitEntry ahead behind)
            | some b =>
              let s := p.1
              let tiles := (List.range i.img.foot).map (fun r => b + r)
              let arm := some (s.slotTab, slot.toNat)
              let room := tiles.all (fun t =>
                ((s.core c).entries t).any (fun (x : TileCtx) => decide (x.shadow = arm)) || s.hasEntry c t)
              if !room then .ok (s.waitEntry ahead behind)
              else
                let s := s.disarm s.slotTab slot.toNat
                let s := tiles.foldl (fun s t => s.loadShadow c t sid s.slotTab slot.toNat) s
                let s := s.carrySwap c s.slotTab slot.toNat sid i.img.foot
                let s := s.setEntry slot.toNat (2 ^ 63 + 2 ^ 62 + sid * 2 ^ 32 + entryCid e)
                .ok ((s.finish s.th.pushVq 1).wakeFirst behind)).out

/-- The value of `fquery` (R260). -/
def State.fquery (s : State) (slot : Nat) (sel : Word) : Word :=
  let e := s.slotEntry slot
  let k := s.core (coreOf s.cur)
  let p := if entryV e then k.placeOf (entryCid e) else none
  let tiles : List Nat := match p with
    | some p => (List.range p.foot).map (fun r => p.base + r)
    | none => []
  let bits (ts : List Nat) : Word := BitVec.ofNat 64 (ts.foldl (fun a t => a + 2 ^ t) 0)
  match sel.toNat with
  | 0 => BitVec.ofNat 64 e
  | 1 => bits tiles
  | 2 => if entryV e then ((s.image (entryCid e)).map (fun i => BitVec.ofNat 64 i.img.foot)).getD 0 else 0
  | 3 => BitVec.ofNat 64 s.freeIds.length
  | 4 => bits (tiles.filter (fun t => (k.entries t).any (fun (x : TileCtx) => decide (x.cid = entryCid e) && x.active)))
  | 5 => ((tiles.head?).map (fun t => BitVec.ofNat 64 (500 + 50 * (k.clk.getD t 10).toNat))).getD 0
  | _ => 0

/-- `fquery`. -/
def execFquery (d : SReg) (slot : BitVec 6) (a : SReg) (s : State) : Out :=
  (s.guardTrap (s.qCheck true [] true) fun _ =>
    match s.slotTrap slot.toNat with
    | some t => .trap s t
    | none =>
      let s := s.slotServe slot.toNat
      .ok (s.finish ((s.th.setX d (s.fquery slot.toNat (s.x a))).pushVq) 1)).out

/-! ## The issue of `fx` (R261, R263, R366) -/

/-- The FSX register of port `j`. -/
def fsx (j : Nat) : Csr := match j with | 0 => .fsx0 | 1 => .fsx1 | 2 => .fsx2 | _ => .fsx3

/-- FSTAT.REC (R39). -/
def Thread.rec_ (t : Thread) : Bool := (t.get .fstat).getLsbD 1

/-- FSTAT.MORE and REC replaced (R39). -/
def Thread.setMore (t : Thread) (more rcd : Bool) : Thread :=
  t.set .fstat ((t.get .fstat &&& ~~~3#64) ||| (if more then 1 else 0) ||| (if rcd then 2 else 0))

/-- A record as FSXj holds it (R261). -/
def recordWord (x : Nat × Nat) : Word := BitVec.ofNat 64 (x.1 % 2 ^ 32 + x.2 % 2 ^ 32 * 2 ^ 32)

/-- The stream of a source: units [start, n) of a register (R261). -/
def Thread.stream (t : Thread) (v : VReg) (n start sub : Nat) : FStream where
  elems := (List.range (n - start)).map (fun i => BitVec.ofNat 64 (t.elem v.toNat t.ew (start + i)))
  next := start
  start := start
  sub := sub
  mark := false
  done := false

/-- Ordered mode without a stateful node: every output is a commit point (R300). -/
def FImage.plain (g : FImage) : Bool := !g.marked && !g.nodes.any FNode.stateful

/-- The run of an `fx` that issues with the slot-table entry `e` (R261, R291, R300). -/
def State.fxRun (s : State) (g : FImage) (e slot words : Nat) (vd : VReg) (srcs : List VReg) (ns : List Nat)
    (arg : Word) : FxRun :=
  let t := s.th
  let rcd := t.rec_
  let starts := (List.range srcs.length).map (fun j =>
    let v := (t.get (fsx j)).toNat
    if rcd then (v % 2 ^ 32, v / 2 ^ 32) else (0, 0))
  let fout := if rcd then (t.get .fout).toNat % 2 ^ 32 else 0
  let stateful := !g.marked && !g.plain
  let from0 := (starts ++ [(0, 0), (0, 0), (0, 0), (0, 0)]).take 4
  { img := g, cid := entryCid e, tab := s.slotTab, slot := slot, words := words, vd := vd, w := t.ew, vlmax := t.vlcMax
    base := 0, started := false, sources := srcs.length
    streams := ((srcs.zip ns).zip starts).map (fun e => t.stream e.1.1 e.1.2 e.2.1 e.2.2)
    arg := arg, argSent := 0, copySent := 0, queues := g.links.map (fun _ => []), nodes := g.nodes.map (fun _ => FNodeSt.reset)
    reqs := g.nodes.map (fun _ => []), out0 := [], out1 := [], out := fout, committed := if stateful then 0 else fout
    records := if stateful then [(0, 0), (0, 0), (0, 0), (0, 0)] else from0
    marks := if g.marked then starts.foldl (fun m x => Nat.max m (x.1 / g.seg)) 0 else 0
    rem := 0, disc := 0, flags := if rcd then t.fxFlags else 0
    swap := false, sid := 0, sfoot := 0, swapped := [], stores := [], cut := false }

/-- `fx` (R261, R263, R362): `len` is the first length register or s0, `arg` the argument register. -/
def State.fxIssue (s : State) (vd : VReg) (slot : BitVec 6) (srcs : List VReg) (len arg : SReg) (words : Nat) : Out :=
  (s.guardTrap (s.qCheck true (srcs.map (fun v => v.toNat) ++ [vd.toNat]) (portClear s.th.vt)) fun _ =>
    match s.slotTrap slot.toNat with
    | some t => .trap s t
    | none =>
      let s := s.slotServe slot.toNat
      let e := s.slotEntry slot.toNat
      let s := s.withTh { s.th with slotValid := s.th.slotValid ||| (1#64 <<< slot.toNat) }
      if !entryV e then .trap s { cause := 0x09, eval := slot.setWidth 64 }
      else
        match s.image (entryCid e) with
        | none => .trap s { cause := 0x0A, sub := 0x01 }
        | some i =>
          if i.owner ≠ s.th.owner then .trap s { cause := 0x0A, sub := 0x02 }
          else if i.img.port1 && decide (s.th.nreg ≤ vd.toNat + 1) then .trap s { cause := 0x11 }
          else
            let t := s.th
            let ns := (List.range srcs.length).map (fun j =>
              if len = 0 then t.vlc
              else unitsOf (vtFmt t.vt) (Nat.min (t.x (len + BitVec.ofNat 5 j)).toNat t.vlmax))
            if !t.rec_ && ns.all (fun n => decide (n = 0)) then
              let t := (t.set .vl 0).set .vstart 0
              .ok (s.finish ((t.setMore false t.rec_).pushVq) words)
            else
              let r := s.fxRun i.img e slot.toNat words vd srcs ns (t.x arg)
              let s := if t.rec_ then s else s.withTh { s.th with fxFlags := 0, fxStores := [], fxBase := [] }
              let s := (s.place s.cur (entryCid e) i.img.foot).1
              let c := coreOf s.cur
              let s := s.setCore c { s.core c with fxq := (s.core c).fxq.filter (· ≠ s.cur) ++ [s.cur] }
              .ok ((s.withTh { s.th with fx := some r }).waitOn .fx)).out

/-- `fx` with one source. -/
def execFx (vd va : VReg) (slot : BitVec 6) (s : State) : Out := s.fxIssue vd slot [va] 0 0 1

/-- `fx` with two sources. -/
def execFxTwo (vd va vb : VReg) (slot : BitVec 6) (s : State) : Out := s.fxIssue vd slot [va, vb] 0 0 1

/-- The sources of a long form in port order (R111). -/
def fxSources : FxSrcs → List VReg
  | .one a => [a]
  | .two a b => [a, b]
  | .three a b c => [a, b, c]

/-- `fx` under the FX prefix (R111). -/
def execFxLong (vd : VReg) (slot : BitVec 6) (src : FxSrcs) (len arg : SReg) (s : State) : Out :=
  s.fxIssue vd slot (fxSources src) len arg 2

end Sys2Proof.Machine
end

