-- ==== Sys2Proof/Machine/FMem.lean ====
section
/-! DEFINITION. The firing of memory and engine nodes (spec/11_fabric_configuration.md R296, R297). The seat of the `fx` is
in focus, and its accesses enter its load-store queue in firing order. -/

namespace Sys2Proof.Machine

/-- What a firing comes to: the run after it, or a fault that freezes the region (R262, R370). -/
inductive Fired
  | ok (s : State) (r : FxRun)
  | fault (s : State) (r : FxRun) (x : Trap)

/-- What a node that zips its inputs may do (R292): nothing or a step of its closing, or a firing on data heads. -/
inductive Zip
  | closed (r : FxRun)
  | data (hs : List (Nat × FTok))

/-- R292 for a node whose firing is the state's. -/
def FxRun.zipHeads (r : FxRun) (k : Nat) (n : FNode) : Zip :=
  let is := r.linked n
  let hs := is.filterMap (fun i => (r.head n.key i).map (fun t => (i, t)))
  match ender (hs.map Prod.snd) with
  | some t => .closed (r.beginClose k n t)
  | none => if is.isEmpty ∨ hs.length ≠ is.length then .closed r else .data hs

/-- A token used as an address (R296). -/
def FNode.addr (n : FNode) (hs : List (Nat × FTok)) (i : Nat) : Word := BitVec.ofNat 64 (n.operand hs i).val

/-- What an access of a node comes to: it waits, is done with a value, or faults. -/
inductive NodeAcc
  | wait (s : State) (r : FxRun)
  | done (s : State) (r : FxRun) (v : Nat)
  | bad (s : State) (x : Trap)

/-- The failed access of the focused seat to another device that entered the queue first (R297, R371). -/
def State.firstFailed (s : State) : Option RemoteOp := s.myRemotes.find? (fun (o : RemoteOp) => o.done && o.fail.isSome)

/-- A node's access on this device faults; while a failed one to another device entered the queue before it, that one is reported
(spec/15_fabric_programming.md R371). -/
def State.localBad (s : State) (r : FxRun) (x : Trap) : NodeAcc := if s.firstFailed.isSome then .wait s r else .bad s x

/-- An access of node `k` to another device (R296; log 18): sent as one record, after the seat's older stores; the node fires when
it is answered, and an owner whose key is gone sends nothing (spec/23_host_and_links.md R478). Of several failures the first in the queue
is reported (spec/15_fabric_programming.md R371). -/
def State.nodeRemote (s : State) (r : FxRun) (k : Nat) (n : FNode) (dev : Nat) (va : Word) (a : Acc) (v : Nat) : NodeAcc :=
  let st := r.st k
  match st.tag with
  | none =>
    match s.remoteCheck dev va (n.w / 8) 0 with
    | some x => s.localBad r (x.by a)
    | none =>
      let u : UnitRec := ⟨va.toNat % 2 ^ 57, widthCode (n.w / 8), BitVec.ofNat 64 v⟩
      .wait (s.drain.sendRemote dev s.th.owner (if a = .load then 0x01 else 0x03) [u]) (r.setSt k { st with tag := some s.nextTag })
  | some tag =>
    match s.remotes.find? (fun (o : RemoteOp) => decide (o.tag = tag) && o.done) with
    | none => .wait s r
    | some o =>
      match o.fail with
      | some e =>
        if s.firstFailed.map (fun (x : RemoteOp) => x.tag) = some tag then
          .bad s { cause := 0x12, sub := BitVec.ofNat 8 e.2, eval := va, kind := a.kind }
        else .wait s r
      | none =>
        .done { s with remotes := s.remotes.filter (fun (x : RemoteOp) => x.tag ≠ tag) } (r.setSt k { st with tag := none })
          ((o.recs.head?.map (fun (u : UnitRec) => u.data.toNat)).getD 0)

/-- A byte as a load of a resumed `fx` finds it: one that uncommitted stores of a stopped pass wrote holds freely what it held before
the `fx` or what one of them gave it; where another party has written it since, what that party wrote (spec/14_memory_ordering.md R360;
log 51). -/
def State.resumedByte (s : State) (pa : Nat) (b : Byte) : Byte :=
  let given := (s.th.fxStores.filter (fun e => decide (e.2.1 = pa))).map (fun e => e.2.2)
  let all := ((s.th.fxBase.filter (fun e => decide (e.1 = pa))).map Prod.snd) ++ given
  if given.isEmpty || !all.contains b then b else all.getD (Config.freeNat (s.pick pa) % all.length) b

/-- A load of node `k` (R144, R145, R296). -/
def State.nodeLoad (s : State) (r : FxRun) (k : Nat) (n : FNode) (va : Word) : NodeAcc :=
  let z := n.w / 8
  match s.remoteOf va with
  | some dev => s.nodeRemote r k n dev va .load 0
  | none =>
    match s.access s.vctx .load false va z 0 with
    | .error x => (s.reach s.vctx z [va]).localBad r x
    | .ok l =>
      let u := s.serveAt s.vctx [va]
      match u.loadUnit s.vctx va z 0 with
      | .error x => u.localBad r x
      | .ok v => .done u r (leNat ((natLe z v).zipIdx.map (fun e => s.resumedByte (l.pa + e.2) e.1)))

/-- The store of a firing on the tokens `ts` is noted: the bytes it finds and those it gives (R360). -/
def State.noteStore (s : State) (r : FxRun) (ts : List FTok) (pa : Nat) (bs : List Byte) : FxRun :=
  { r with stores := r.stores ++ [((firedTok .marker ts).pos, pa, s.readAt s.th.owner s.th.lsq pa bs.length, bs)] }

/-- A store of node `k` by a firing on the tokens `ts`: it enters the load-store queue, joins a cell of a lattice region after the
seat's older stores (R225, R296, R297), or goes to another device. -/
def State.nodeStore (s : State) (r : FxRun) (k : Nat) (n : FNode) (ts : List FTok) (va : Word) (v : Nat) : NodeAcc :=
  let z := n.w / 8
  match s.remoteOf va with
  | some dev => s.nodeRemote r k n dev va .store v
  | none =>
    match s.access s.vctx .store false va z 0 with
    | .error x => (s.reach s.vctx z [va]).localBad r x
    | .ok l =>
      let s := s.walked s.vctx [va]
      let r := s.noteStore r ts l.pa (natLe z v)
      match l.region with
      | none => .done (s.enqueue ⟨l.pa, natLe z v, s.th.owner, false, true⟩) r v
      | some _ =>
        let s := s.drain
        match s.storeCheck s.vctx va z v 0 with
        | .error x => (s.refused s.vctx x).localBad r x
        | .ok l => .done (s.storePerform s.vctx l z v) r v

/-- A firing that goes on with an access's value. -/
def NodeAcc.fired (a : NodeAcc) (r : FxRun) (f : State → FxRun → Nat → Fired) : Fired :=
  match a with
  | .wait s r => .ok s r
  | .bad s x => .fault s r x
  | .done s r v => f s r v

/-- `ld`. -/
def State.fireLd (s : State) (r : FxRun) (k : Nat) (n : FNode) : Fired :=
  match r.zipHeads k n with
  | .closed r => .ok s r
  | .data hs =>
    if !r.room n.key [0] then .ok s r
    else
      (s.nodeLoad r k n (n.addr hs 0)).fired r (fun s r v =>
        .ok s ((r.pops n.key (hs.map Prod.fst)).push n.key 0 (firedTok (dataOf v) (hs.map Prod.snd))))

/-- `st`. -/
def State.fireSt (s : State) (r : FxRun) (k : Nat) (n : FNode) : Fired :=
  match r.zipHeads k n with
  | .closed r => .ok s r
  | .data hs =>
    let v := n.read (n.operand hs 1)
    if !r.room n.key [0] then .ok s r
    else
      (s.nodeStore r k n (hs.map Prod.snd) (n.addr hs 0) v).fired r (fun s r _ =>
        .ok s ((r.pops n.key (hs.map Prod.fst)).push n.key 0 (firedTok (dataOf v) (hs.map Prod.snd))))

/-- Zero as `ldnz` takes it: integer 0, or ±0 (R296). -/
def FNode.isZero (n : FNode) (v : Nat) : Bool := decide ((if 3 ≤ n.fmt then v % 2 ^ (n.w - 1) else v) = 0)

/-- `ldnz` takes one element in each firing, and writes one that is not zero in that firing; the last, or a count of 0, consumes both
inputs. -/
def State.fireLdnz (s : State) (r : FxRun) (k : Nat) (n : FNode) : Fired :=
  match r.zipHeads k n with
  | .closed r => .ok s r
  | .data hs =>
    let st := r.st k
    let ts := [n.operand hs 0, n.operand hs 1]
    let es := elemsOf ts
    let cnt := n.read (n.operand hs 1)
    if cnt ≤ st.cnt then .ok s ((r.pops n.key [0, 1]).setSt k { st with cnt := 0 })
    else
      (s.nodeLoad r k n (n.addr hs 0 + BitVec.ofNat 64 (st.cnt * (n.w / 8)))).fired r (fun s' r' v =>
        let last := decide (st.cnt + 1 = cnt)
        let next := { r'.st k with cnt := if last then 0 else st.cnt + 1 }
        let js := st.made es
        let tok := expandTok (BitVec.ofNat 64 v) es js (fun p => last && lastOn ts p)
        let r' := if last then r'.pops n.key [0, 1] else r'
        if n.isZero v then .ok s' (r'.setSt k next)
        else if r.skips n es js then .ok s' (r'.setSt k (next.count es js))
        else if !r.room n.key [0, 1] then .ok s r
        else
          .ok s' (((r'.push n.key 0 tok).push n.key 1 { tok with kind := .data (BitVec.ofNat 64 st.cnt) }).setSt k (next.count es js)))

/-- `stnz` writes one element in each firing. -/
def State.fireStnz (s : State) (r : FxRun) (k : Nat) (n : FNode) : Fired :=
  let st := r.st k
  let z := n.w / 8
  let put (b : FTok) (ts : List FTok) (i v : Nat) (f : FxRun → FxRun) : Fired :=
    (s.nodeStore r k n (b :: ts) (BitVec.ofNat 64 (b.val + i * z)) v).fired r (fun s r _ => .ok s (f r))
  let move (i : Nat) (r : FxRun) : FxRun := r.setSt k { r.st k with cnt := i }
  match r.input n 0 with
  | none => .ok s r
  | some b =>
    if !b.isData then .ok s (r.beginClose k n b)
    else
      match r.input n 1 with
      | none => .ok s r
      | some c =>
        if c.isData then
          match r.input n 2 with
          | none => .ok s r
          | some v =>
            if !v.isData then .ok s (r.beginClose k n v)
            else
              let i := n.read c
              if st.cnt < i then put b [c] st.cnt 0 (move (st.cnt + 1))
              else put b [c, v] i (n.read v) (fun r => move (Nat.max st.cnt (i + 1)) (r.pops n.key [1, 2]))
        else if st.cnt < n.imm.toNat then put b [] st.cnt 0 (move (st.cnt + 1))
        else .ok s ((r.pop n.key 0).beginClose k n c)

/-- The requests of node `k`. -/
def FxRun.reqsOf (r : FxRun) (k : Nat) : List FReq := r.reqs.getD k []

/-- The requests of node `k` replaced. -/
def FxRun.setReqs (r : FxRun) (k : Nat) (q : List FReq) : FxRun := { r with reqs := r.reqs.set k q }

/-- A handle for a copy that a node asks for: no `acopy` handle (log 28). -/
def State.nodeHandle (s : State) : Nat :=
  s.copies.foldl (fun m (c : Copy) => if c.seat = s.cur then Nat.max m (c.handle + 1) else m) (2 ^ 64)

/-- `ereq`. Its end of stream and its markers leave through its `ersp`, after its responses. -/
def State.fireEreq (s : State) (r : FxRun) (k : Nat) (n : FNode) : Fired :=
  match r.zipHeads k n with
  | .closed r' =>
    let hs := (r.linked n).filterMap (fun i => r.head n.key i)
    match ender hs with
    | some t =>
      let kind : TokKind := if t.isEos then .eos (hs.any FTok.flagged) else .marker
      .ok s (r'.setReqs k (r.reqsOf k ++ [.ready (firedTok kind [t])]))
    | none => .ok s r'
  | .data hs =>
    let toks := hs.map Prod.snd
    if n.aux = 0 then
      (s.nodeLoad r k n (n.addr hs 0)).fired r (fun s r v =>
        .ok s ((r.pop n.key 0).setReqs k (r.reqsOf k ++ [.ready (firedTok (dataOf v) toks)])))
    else
      match s.copyRefused (n.addr hs 0) (n.addr hs 1) with
      | some va => (s.localBad r { cause := 0x07, eval := va }).fired r (fun s r _ => .ok s r)
      | none =>
        if 16 ≤ (s.outstanding s.cur).length then .ok s r
        else
          let h := s.nodeHandle
          .ok (s.startCopy h (n.addr hs 0) (n.addr hs 1) (n.read (n.operand hs 2)) 1 0 0)
            ((r.pops n.key [0, 1, 2]).setReqs k (r.reqsOf k ++ [.copy h (firedTok .marker toks)]))

/-- The index of the node that AUX names (R296). -/
def FImage.auxNode (g : FImage) (n : FNode) : Nat :=
  (g.nodes.findIdx? (fun m => decide (m.tile = n.aux / 32 ∧ m.node = n.aux % 32))).getD g.nodes.length

/-- `ersp`. -/
def State.fireErsp (s : State) (r : FxRun) (k : Nat) (n : FNode) : Fired :=
  let q := r.img.auxNode n
  if !r.room n.key [0] then .ok s r
  else
    match r.reqsOf q with
    | [] => .ok s r
    | .ready t :: rest =>
      let r := (r.push n.key 0 t).setReqs q rest
      .ok s (if t.isEos then r.setSt k { r.st k with ended := true, endSwap := t.flagged } else r)
    | .copy h t :: rest =>
      match s.copies.find? (fun (c : Copy) => decide (c.seat = s.cur ∧ c.handle = h)) with
      | none => .ok s r
      | some c =>
        match c.status with
        | none => .ok s r
        | some w =>
          .ok { s with copies := s.copies.filter (fun (x : Copy) => !(decide (x.seat = s.cur ∧ x.handle = h))) }
            ((r.push n.key 0 { t with kind := .data w }).setReqs q rest)

/-- Accesses of the focused seat wait: a seat of its core changes VSPCFG (spec/13_memory_hierarchy.md R330). -/
def State.vspHeld (s : State) : Bool := (s.core (coreOf s.cur)).vspPending.isSome

/-- A node of R296 fires, or goes on closing. It begins no access while accesses wait or the seat's load-store queue is full
(spec/13_memory_hierarchy.md R330, R336). One without a linked input never fires, but for `ersp` (log 50). -/
def State.fireMem (s : State) (r : FxRun) (k : Nat) (n : FNode) : Fired :=
  match (r.st k).close with
  | some c => .ok s (r.closeStep k n c)
  | none =>
    if (r.st k).ended ∨ (n.op ≠ 0x49 ∧ ((r.linked n).isEmpty ∨ ((r.st k).tag.isNone ∧ (s.vspHeld ∨ s.th.lsqFull)))) then .ok s r
    else
      match n.op with
      | 0x40 => s.fireLd r k n
      | 0x41 => s.fireSt r k n
      | 0x42 => s.fireLdnz r k n
      | 0x43 => s.fireStnz r k n
      | 0x48 => s.fireEreq r k n
      | _ => s.fireErsp r k n

end Sys2Proof.Machine
end

