-- ==== Sys2Proof/Machine/FEvents.lean ====
section
/-! DEFINITION. What happens to an `fx` after it issues (spec/10_fabric_region_sync_system_instructions.md R261 to R264;
spec/11_fabric_configuration.md R298 to R300; spec/12_execution_model.md R322; spec/15_fabric_programming.md R364 to R378):
its start, the firings of nodes and ports, the swap of a shadow, the cap, a fault, a cut, and its end. -/

namespace Sys2Proof.Machine

/-! ## Ports (R288, R298, R366, R378) -/

/-- A token without a position. -/
def plainTok (kind : TokKind) : FTok := ⟨kind, [none, none, none], [(0, 0), (0, 0), (0, 0)]⟩

/-- The token of element `e` on port `j` (R299). -/
def elemTok (w : Word) (j e : Nat) : FTok where
  kind := .data w
  pos := (List.range 3).map (fun p => if p = j then some (e, 0) else none)
  rcd := (List.range 3).map (fun p => if p = j then (e + 1, 0) else (0, 0))

/-- The port has links, and each of them has a free slot. -/
def FxRun.canInject (r : FxRun) (key : Nat) : Bool := !(r.img.outLinks key 0).isEmpty && r.room key [0]

/-- Input port `j` injects its next token: an element, the marker after the last of a segment, or end of stream. A linked
port without a source injects only end of stream (log 29). -/
def FxRun.inject (r : FxRun) (j : Nat) : FxRun :=
  let key := nodeKey 0 (20 + j)
  if !r.canInject key then r
  else
    let st := r.streams.getD j ⟨[], 0, 0, 0, false, false⟩
    let upd (x : FStream) : FxRun := { r with
      streams := ((List.range (Nat.max r.streams.length (j + 1))).map (fun i =>
        if i = j then x else r.streams.getD i ⟨[], 0, 0, 0, false, false⟩)) }
    if st.done then r
    else if st.mark then (upd { st with mark := false }).push key 0 (plainTok .marker)
    else
      match st.elems with
      | w :: ws =>
        (upd { st with elems := ws, next := st.next + 1,
                       mark := r.img.marked && decide ((st.next + 1) % r.img.seg = 0) }).push key 0 (elemTok w j st.next)
      | [] => (upd { st with done := true }).push key 0 (plainTok (.eos r.swap))

/-- A port of one token and end of stream: `sent` tokens have left. -/
def FxRun.single (r : FxRun) (key sent : Nat) (w : Word) : Option FxRun :=
  if 2 ≤ sent ∨ !r.canInject key then none
  else some (r.push key 0 (plainTok (if sent = 0 then .data w else .eos r.swap)))

/-- The outputs of the pass so far, in all (R261). -/
def FxRun.total (r : FxRun) : Nat := r.out + r.out0.length

/-- Records for the used sources; those of the others are 0 (R261). -/
def FxRun.used (r : FxRun) (xs : List (Nat × Nat)) : List (Nat × Nat) :=
  (List.range 4).map (fun j => if j < r.sources ∧ j < 3 then xs.getD j (0, 0) else (0, 0))

/-- Output port 1 has delivered its element for each of the first `n` of the pass (R261). -/
def FxRun.caughtUp (r : FxRun) (n : Nat) : Bool := !r.img.port1 || decide (n ≤ r.out1.length)

/-- The commit point of a marker that reaches output port 0 (R300). -/
def FxRun.commitMark (r : FxRun) : FxRun :=
  let m := r.marks + 1
  { r with
    marks := m, committed := r.total
    records := r.used [(r.img.seg * m, 0), (r.img.seg * m, 0), (r.img.seg * m, 0)] }

/-- Output port 0 takes a token: a data token counts once output port 1 has delivered its own; end of stream stays. -/
def FxRun.takeOut0 (r : FxRun) : FxRun :=
  let key := nodeKey 0 24
  match r.head key 0 with
  | none => r
  | some t =>
    match t.kind with
    | .data w =>
      if !r.caughtUp (r.out0.length + 1) then r
      else
        let r := { r.pop key 0 with out0 := r.out0 ++ [w] }
        if r.img.plain then { r with committed := r.total, records := r.used t.rcd } else r
    | .marker => if r.cut ∨ !r.caughtUp r.out0.length then r else (r.pop key 0).commitMark
    | .eos _ => r

/-- Output port 1 takes a token. -/
def FxRun.takeOut1 (r : FxRun) : FxRun :=
  let key := nodeKey 0 25
  match r.head key 0 with
  | none => r
  | some t =>
    match t.kind with
    | .data w => { r.pop key 0 with out1 := r.out1 ++ [w] }
    | .marker => r.pop key 0
    | .eos _ => r

/-! ## Shadows (R264, R376, R377) -/

/-- Every node of a tile has emitted its end of stream, with the swap flag. -/
def FxRun.tileEnded (r : FxRun) (t : Nat) : Bool :=
  (List.range r.img.nodes.length).all (fun k =>
    match r.img.nodes[k]? with
    | some n => decide (n.tile ≠ t) || ((r.st k).ended && (r.st k).endSwap)
    | none => true)

/-- A tile of core `c` swaps: its shadow becomes the active context and the old one can be evicted; without one, it releases the old
context. Either way an entry may be had (R364, R376). -/
def State.swapTile (s : State) (c : Nat) (r : FxRun) (t : Nat) : State :=
  let k := s.core c
  let has := (k.entries t).any (fun (e : TileCtx) => decide (e.shadow = some (r.tab, r.slot)))
  if has then
    s.setCore c { k with ctx := k.ctx.map (fun (e : TileCtx) =>
      if e.tile = t then { e with active := decide (e.shadow = some (r.tab, r.slot)) } else e) }
  else s.setCore c { k with ctx := k.ctx.filter (fun (e : TileCtx) => !(decide (e.tile = t ∧ e.cid = r.cid) && e.shadow.isNone)) }

/-- The swap is complete (R264, R376): the shadows are contexts of their own, the new configuration has the placement, and the
entry names it. Contexts of the new configuration elsewhere on the core go, but for pinned ones (R365): those armed as shadows and those
of a running `fx`. -/
def State.finishSwap (s : State) (r : FxRun) : State :=
  let c := coreOf s.cur
  let k := s.core c
  let mine (e : TileCtx) : Bool := decide (e.shadow = some (r.tab, r.slot))
  let rest := k.ctx.filter (fun (e : TileCtx) => e.shadow.isSome ||
    !((decide (e.cid = r.sid) && s.evictable c e) ||
      k.ctx.any (fun (x : TileCtx) => mine x && decide (x.tile = e.tile ∧ x.cid = e.cid))))
  let k : Core := { k with
    ctx := rest.map (fun (e : TileCtx) => if mine e then { e with shadow := none } else e)
    place := k.place.filter (fun (p : Placement) => p.cid ≠ r.sid) ++ [⟨r.sid, r.base, r.sfoot⟩] }
  ((s.setCore c (k.dropPlacement r.cid)).wakeFabric c).enqueue
    ⟨r.tab + 8 * r.slot, natLe 8 (2 ^ 63 + r.sid), s.th.owner, false, false⟩

/-- The tiles that the swap flag has passed, and with `all` the others too, swap; with the last of them the swap is complete and the
`fx` carries the flag no more (R264, R376). -/
def State.swapTiles (s : State) (r : FxRun) (all : Bool) : State × FxRun :=
  let c := coreOf s.cur
  if !r.swap ∨ !s.armed c r.tab r.slot then (s, r)
  else
    let a := (List.range r.img.foot).foldl (fun (a : State × FxRun) t =>
      if a.2.swapped.contains t ∨ !(all || a.2.tileEnded t) then a
      else
        let x := { a.2 with swapped := t :: a.2.swapped }
        let s := a.1.swapTile c a.2 (a.2.base + t)
        ((s.withTh { s.th with fx := some x }).wakeFabric c, x)) (s, r)
    if a.2.swapped.length = r.img.foot then (a.1.finishSwap a.2, { a.2 with swap := false }) else a

/-! ## How an `fx` ends -/

/-- Outputs of the pass written to vd and, under output port 1, to vd + 1, below index `n` (R261, R300). -/
def Thread.fxOutputs (t : Thread) (r : FxRun) (n : Nat) : Thread :=
  let put (t : Thread) (v : Nat) (xs : List Word) : Thread :=
    t.setElems v r.w (((xs.take (n - r.out)).zipIdx).map (fun e => (r.out + e.2, e.1.toNat)))
  let t := put t r.vd.toNat r.out0
  if r.img.port1 then put t (r.vd.toNat + 1) r.out1 else t

/-- FSX0 to FSX3 and FOUT (R261, R262). -/
def Thread.fxRecords (t : Thread) (r : FxRun) (fout : Nat) : Thread :=
  let t := (List.range 4).foldl (fun t j => t.set (fsx j) (recordWord (r.records.getD j (0, 0)))) t
  t.set .fout (BitVec.ofNat 64 (fout % 2 ^ 32))

/-- The tiles of the focused seat's `fx` are free: what it has asked of other devices is forgotten, contexts of an image dropped
while it was in flight go (R259), and seats that wait for an entry look again (R364). -/
def State.leaveTiles (s : State) (r : FxRun) : State :=
  let c := coreOf s.cur
  let k := s.core c
  let s := s.setCore c { k with fxq := k.fxq.filter (· ≠ s.cur) }
  let s := s.dropRemotes.withTh { s.th with fx := none }
  let s := if r.cid = ghostId s.cur then s.dropContexts r.cid else s
  s.wakeFabric c

/-- A position lies at or after its port's record (spec/14_memory_ordering.md R360). -/
def FxRun.uncommitted (r : FxRun) (pos : List (Option (Nat × Nat))) : Bool :=
  (List.range 3).any (fun p => match pos.getD p none with
    | some x => !posLater x (r.records.getD p (0, 0))
    | none => false)

/-- A stopped pass leaves its flags; the bytes that the uncommitted stores of its passes wrote, as its records now stand; and what every
byte it stored held before the `fx` (R291; spec/14_memory_ordering.md R360). -/
def Thread.fxStopped (t : Thread) (r : FxRun) : Thread :=
  let wrote := r.stores.flatMap (fun e => e.2.2.2.zipIdx.map (fun b => (e.1, e.2.1 + b.2, b.1)))
  let found := r.stores.flatMap (fun e => e.2.2.1.zipIdx.map (fun b => (e.2.1 + b.2, b.1)))
  { t with
    fxFlags := r.flags
    fxStores := (t.fxStores ++ wrote).filter (fun e => r.uncommitted e.1)
    fxBase := found.foldl (fun m b => if m.any (fun e => decide (e.1 = b.1)) then m else m ++ [b]) t.fxBase }

/-- The run with its records as they stand now (R299). -/
def FxRun.settled (r : FxRun) : FxRun :=
  if r.img.plain then { r with records := (r.records.zipIdx).map (fun x => r.recordNow x.2 x.1) } else r

/-- A fault freezes the region (R262, R370): the focused seat's `fx` ends at its last commit point with the fault. FSTAT.MORE, of which
R262 says nothing, becomes 0 (DESIGN CHOICE; log 57). -/
def State.fxFault (s : State) (r : FxRun) (x : Trap) : Out :=
  let r := r.settled
  let k := r.committed
  let t := (((s.th.fxOutputs r k).fxRecords r k).fxStopped r)
  let t := (t.set .vstart (BitVec.ofNat 64 k)).setMore false true
  (Res.trap ((s.withTh t).leaveTiles r) { x with elem := k }).out

/-- The `fx` completes on thread `t` with VL and its flags (R39, R261, R291). -/
def State.fxDone (s : State) (r : FxRun) (t : Thread) (vl : Nat) : State :=
  let t := (t.set .vl (BitVec.ofNat 64 vl)).set .vstart 0
  let t := { t.set .fflags (t.get .fflags ||| r.flags.setWidth 64) with fxFlags := 0 }
  let s := (s.withTh t).leaveTiles r
  s.finish s.th.pushVq r.words

/-- The cap (R261, R373): every output of the pass is written, and the `fx` completes with MORE and REC set. -/
def State.fxCap (s : State) (r : FxRun) : State :=
  let r := r.settled
  let t := ((s.th.fxOutputs r r.total).fxRecords r 0).fxStopped r
  s.fxDone r (t.setMore true true) t.vlmax

/-- End of stream at output port 0 (R39, R261): tiles whose nodes emit nothing more swap too (log 29). -/
def State.fxEnd (s : State) (r : FxRun) : State :=
  let a := s.swapTiles r true
  let t := a.1.th.fxOutputs r r.total
  let t := t.set .fstat (BitVec.ofNat 64 (r.rem % 2 ^ 32 * 2 ^ 32 + Nat.min r.disc 65535 * 2 ^ 16))
  a.1.fxDone r { t with fxStores := [], fxBase := [] } (Nat.min (r.total * unitElems (vtFmt t.vt)) t.vlmax)

/-! ## Events -/

/-- `f` on the state with seat `n` in focus; the focus returns. -/
def State.onSeat (s : State) (n : Nat) (f : State → Out) : Out :=
  match f (s.focus n) with
  | .next t => .next (t.focus s.cur)
  | o => o

/-- The run of the focused seat's `fx` that has started. -/
def State.startedFx (s : State) : Option FxRun := s.th.fx.bind (fun (r : FxRun) => if r.started then some r else none)

/-- The focused seat's run is `r`; the cap is reached, or tiles may swap. -/
def State.withRun (s : State) (r : FxRun) : State :=
  if r.vlmax ≤ r.total then s.fxCap r
  else
    let a := s.swapTiles r false
    a.1.withTh { a.1.th with fx := some a.2 }

/-- Whether the tiles of a waiting `fx` are free, with entries for its contexts and steady clocks (R322, R365, R367). -/
def State.tilesReady (s : State) (c base foot cid : Nat) : Bool :=
  (List.range foot).all (fun i =>
    let t := base + i
    (s.occupant c t).isNone && !s.clockChanging c t &&
    (((s.core c).entries t).any (fun (e : TileCtx) => decide (e.cid = cid) && e.shadow.isNone) || s.hasEntry c t))

/-- The `fx` of seat `n` can start now: the state with its placement, and its base. -/
def State.startable (s : State) (n : Nat) : Option (State × Nat × FxRun) :=
  match (s.seat n).fx with
  | none => none
  | some r =>
    if r.started then none
    else
      let p := s.place n r.cid r.img.foot
      match p.2 with
      | none => none
      | some b => if p.1.tilesReady (coreOf n) b r.img.foot r.cid then some (p.1, b, r) else none

/-- The run of the focused seat's `fx` that starts at base `b`: while the entry of its slot has SH = 1 and a shadow is armed for the slot
on the core, it carries the swap to the image that SID names (R264, R377). -/
def State.startRun (s : State) (b : Nat) (r : FxRun) : FxRun :=
  let r := { r with base := b, started := true }
  let e := s.slotEntry r.slot
  if entryV e ∧ entrySh e ∧ s.armed (coreOf s.cur) r.tab r.slot then
    { r with swap := true, sid := entrySid e, sfoot := ((s.image (entrySid e)).map (fun (i : Image) => i.img.foot)).getD 0 }
  else r

/-- FX_START (R322, R364, R365, R378): among the waiting `fx` of the core that can start, the one that arrived first starts, unless an
`fshadow` that waited before it looks for entries. Its contexts are fetched. -/
def execFxStart (seat : Nat) (s : State) : Out :=
  let c := coreOf seat
  if (s.core c).fxq.find? (fun n => (s.startable n).isSome || s.looking n) ≠ some seat then .next s
  else
    match s.startable seat with
    | none => .next s
    | some (s, b, r) =>
      let k := s.core c
      let s := s.setCore c { k with useStamp := k.useStamp + 1 }
      let s := (List.range r.img.foot).foldl (fun s i => s.fetchCtx c (b + i) r.cid) s
      s.onSeat seat (fun s => .next (s.withRun (s.startRun b r)))

/-- A port or node of the focused seat's `fx` moves; `none` when nothing of the run changes. -/
def State.firePlace (s : State) (r : FxRun) (tile node : Nat) : Option Fired :=
  let run (x : FxRun) : Option Fired := if x = r then none else some (.ok s x)
  if node < 20 then
    match r.img.nodes.findIdx? (fun n => decide (n.tile = tile ∧ n.node = node)) with
    | none => none
    | some k =>
      match r.img.nodes[k]? with
      | none => none
      | some n =>
        if isMemOp n.op then
          match s.fireMem r k n with
          | .ok t x => if x = r then none else some (.ok t x)
          | f => some f
        else run (r.fireNode k n)
  else if tile ≠ 0 then none
  else if node ≤ 22 then run (r.inject (node - 20))
  else if node = 23 then
    (r.single (nodeKey 0 23) r.argSent r.arg).map (fun x => .ok s { x with argSent := r.argSent + 1 })
  else if node = 24 then run r.takeOut0
  else if node = 25 then run r.takeOut1
  else if node = 26 then
    let w := s.copyStatus r.arg.toNat
    if r.copySent = 0 ∧ w.toNat % 256 = 0xFE then none
    else (r.single (nodeKey 0 26) r.copySent w).map (fun x => .ok s { x with copySent := r.copySent + 1 })
  else none

/-- NODE_FIRE (R289): a node fires, an input port injects, or an output port takes a token. A firing that its inputs, its
outputs or its requests do not allow changes nothing. -/
def execNodeFire (seat tile node : Nat) (s : State) : Out :=
  s.onSeat seat (fun s =>
    match s.startedFx with
    | none => .next s
    | some r =>
      match s.firePlace r tile node with
      | none => .next s
      | some (.ok s r) => .next (s.withRun r)
      | some (.fault s r x) => s.fxFault r x)

/-- The places of an `fx` that can move: ports and nodes. -/
def FImage.places (g : FImage) : List (Nat × Nat) :=
  [(0, 24), (0, 25)] ++ g.nodes.map (fun (n : FNode) => (n.tile, n.node)) ++ [(0, 20), (0, 21), (0, 22), (0, 23), (0, 26)]

/-- A place of the focused seat's `fx` that can move now (log 30). -/
def State.nextPlace (s : State) (r : FxRun) : Option (Nat × Nat) :=
  r.img.places.find? (fun p => (s.firePlace r p.1 p.2).isSome)

/-- The end of stream is at output port 0, with output port 1 caught up. -/
def FxRun.atEnd (r : FxRun) : Bool :=
  ((r.head (nodeKey 0 24) 0).map FTok.isEos).getD false &&
  (!r.img.port1 || (decide (r.out1.length = r.out0.length) && ((r.head (nodeKey 0 25) 0).map FTok.isEos).getD false))

/-- FX_END_OF_STREAM (R261): the `fx` completes once end of stream is at output port 0 and no node of it can fire any more
(log 30). -/
def execFxEndOfStream (seat : Nat) (s : State) : Out :=
  s.onSeat seat (fun s =>
    match s.startedFx with
    | none => .next s
    | some r => if r.atEnd && (s.nextPlace r).isNone then .next (s.fxEnd r) else .next s)

/-- PREEMPTION_CUT (R262, R371): a marked configuration that is to be cut stops at the next marker that reaches output port 0,
with that marker's records and no trap; its `fx` is issued again later. -/
def execPreemptionCut (seat : Nat) (s : State) : Out :=
  s.onSeat seat (fun s =>
    match s.startedFx with
    | none => .next s
    | some r =>
      if r.cut && r.img.marked && ((r.head (nodeKey 0 24) 0).map FTok.isMark).getD false && r.caughtUp r.out0.length then
        let r := r.commitMark
        let t := ((s.th.fxOutputs r r.committed).fxRecords r r.committed).fxStopped r
        let t := (t.set .vstart (BitVec.ofNat 64 r.committed)).setMore false true
        let s := (s.withTh t).leaveTiles r
        .next (s.withTh { s.th with run := .running })
      else .next s)

/-- TILE_CLOCK_CHANGE_COMPLETE (R367; spec/25_fleet_operation.md R490): a tile that no `fx` occupies takes the clock its
register and the throttle level call for. -/
def execTileClockChangeComplete (core tile : Nat) (s : State) : Out :=
  if 8 ≤ tile ∨ 192 ≤ core ∨ (s.occupant core tile).isSome then .next s
  else
    let k := s.core core
    .next (s.setCore core { k with clk := k.clk.setIfInBounds tile (BitVec.ofNat 8 (s.clockTarget core tile)) })

end Sys2Proof.Machine
end

