-- ==== Sys2Proof/Machine/Launch.lean ====
section
/-! DEFINITION. Launch and scheduling (spec/21_launch_and_scheduling.md R427 to R439): the intake queues, gates, arbitration,
placement and completion; `launch` and `exit` (spec/10_fabric_region_sync_system_instructions.md R274, R275). -/

namespace Sys2Proof.Machine

/-! ## Queues and records (R427 to R431) -/

/-- An intake queue. -/
def State.queue (s : State) (q : Nat) : Queue := Map.get Queue.reset s.queues q

/-- The state with an intake queue replaced. -/
def State.setQueue (s : State) (q : Nat) (x : Queue) : State := { s with queues := Map.put Queue.reset s.queues q x }

/-- QCTL.EN. -/
def Queue.en (q : Queue) : Bool := q.ctl.getLsbD 0
/-- QCTL.ASID. -/
def Queue.asid (q : Queue) : Nat := bitsOf q.ctl.toNat 16 16
/-- QCTL.QOWN. -/
def Queue.owner (q : Queue) : Nat := bitsOf q.ctl.toNat 32 10

/-- A field of CTRL (R430). -/
def LaunchRec.field (r : LaunchRec) (lo n : Nat) : Nat := bitsOf r.ctrl.toNat lo n
/-- TASKCNT. -/
def LaunchRec.tasks (r : LaunchRec) : Nat := r.field 0 20
/-- PRIO. -/
def LaunchRec.prio (r : LaunchRec) : Nat := r.field 20 3
/-- GANG. -/
def LaunchRec.gang (r : LaunchRec) : Bool := decide (r.field 23 1 = 1)
/-- GATE. -/
def LaunchRec.gate (r : LaunchRec) : Nat := r.field 24 2
/-- CMPL. -/
def LaunchRec.cmpl (r : LaunchRec) : Bool := decide (r.field 26 1 = 1)
/-- MSI. -/
def LaunchRec.msi (r : LaunchRec) : Bool := decide (r.field 27 1 = 1)
/-- LANES. -/
def LaunchRec.lanes (r : LaunchRec) : Nat := r.field 28 4
/-- SHAPE. -/
def LaunchRec.shape (r : LaunchRec) : Nat := r.field 32 2
/-- QUEUE. -/
def LaunchRec.queue (r : LaunchRec) : Nat := r.field 34 6
/-- MSIV. -/
def LaunchRec.msiv (r : LaunchRec) : Nat := r.field 40 11
/-- OWNER. -/
def LaunchRec.owner (r : LaunchRec) : Nat := r.field 51 10

/-- A record from its eight words (R430). -/
def recOf (f : Nat → Word) : LaunchRec := ⟨f 0, f 1, f 2, f 3, f 4, f 5, f 6, f 7⟩

/-- A PC field: bits 1..0 and 63..57 zero (R430). -/
def pcOk (w : Word) : Bool := decide (w.toNat % 4 = 0 ∧ w.toNat < 2 ^ 57)

/-- R431, for a record in queue `q` whose owner is `own`. -/
def LaunchRec.valid (r : LaunchRec) (own : Nat) : Bool :=
  pcOk r.entry && pcOk r.exitpc && decide (r.field 61 3 = 0) && decide (r.gate ≠ 3) && decide (r.tasks ≠ 0) &&
  decide (r.lanes ≤ 8) && decide (r.owner = own) && (!r.gang || decide (r.tasks ≤ 192))

/-- What becomes of a record (R274, R428, R438): 0 accepted, 1 the queue is full or EN is 0, 2 invalid. -/
def State.admission (s : State) (q : Nat) (r : LaunchRec) : Nat :=
  let x := s.queue q
  if !r.valid x.owner then 2 else if !x.en ∨ 256 ≤ x.recs.length then 1 else 0

/-- An accepted record enters its queue with the next sequence number. -/
def State.accept (s : State) (q : Nat) (r : LaunchRec) : State :=
  let x := s.queue q
  s.setQueue q { x with recs := x.recs ++ [(x.seq, r)], seq := (x.seq + 1) % 2 ^ 32 }

/-- `launch` (R274, R431, R438): the record at sa with its owner replaced; an accepted one acts as `fence device, rwal` first. -/
def execLaunch (d a : SReg) (s : State) : Out :=
  (s.guardTrap (s.qCheck true [] true) fun _ =>
    let s := s.areaServe (s.x a) 1
    match s.areaRead (s.x a) 1 with
    | .error t => .trap s t
    | .ok bs =>
      let w (k : Nat) : Word := BitVec.ofNat 64 (leNat ((bs.drop (8 * k)).take 8))
      let r := recOf w
      let r := { r with ctrl := (r.ctrl &&& ~~~(0x3FF#64 <<< 51)) ||| (BitVec.ofNat 64 s.th.owner <<< 51) }
      let code := s.admission r.queue r
      let done (s : State) : Res := .ok (s.finish ((s.th.setX d (BitVec.ofNat 64 code)).pushVq) 1)
      if code ≠ 0 then done s
      else
        let s := s.drain
        match (s.outstanding s.cur).head? with
        | some c => .ok (s.waitOn (.copy c.handle))
        | none => done (s.accept r.queue r)).out

/-- `exit` (R275, R353): after its tile loads and its stores, the thread ends; its copies go on. -/
def execExit (s : State) : Out :=
  (s.guardTrap (s.qCheck true [] true) fun _ =>
    if s.th.tb0.pending.isSome then .ok (s.waitOn (.tile false false))
    else if s.th.tb1.pending.isSome then .ok (s.waitOn (.tile true false))
    else
      let s := s.drain
      .ok ((s.retired s.cur 1).endThread s.cur)).out

/-- A write of QCTL's words (R427, R429): reserved bits make it ignored whole; EN that becomes 1 begins GATE 1's history. -/
def State.writeQctl (s : State) (q : Nat) (v : Word) : State :=
  if bitsOf v.toNat 42 22 ≠ 0 ∨ bitsOf v.toNat 1 15 ≠ 0 then s
  else
    let x := s.queue q
    s.setQueue q { x with ctl := v, prev := if v.getLsbD 0 ∧ !x.en then none else x.prev }

/-- Host accesses reach registers and memory: the device is READY and CD0 is alive (spec/24_startup.md R485;
spec/23_host_and_links.md R479). -/
def State.ready (s : State) : Bool := decide (s.start.state = 2) && !s.start.tripped && !s.fleet.deadDies.contains 0

/-- QCTL_WRITE, by the physical function. -/
def execQctlWrite (queue : Nat) (value : Word) (s : State) : Out :=
  .next (if s.ready ∧ queue < 64 then s.writeQctl queue value else s)

/-- Bits lo+n-1..lo of a word replaced. -/
def putBits (w : Word) (lo n v : Nat) : Word :=
  BitVec.ofNat 64 (w.toNat - bitsOf w.toNat lo n * 2 ^ lo + v % 2 ^ n * 2 ^ lo)

/-- HOST_RECORD_COMMIT (R428): the write of staging byte 63, 8 or 4 bytes wide; the record is accepted, or refused and counted in
QERR. -/
def execHostRecordCommit (queue : Nat) (wide : Bool) (data : Word) (s : State) : Out :=
  if !s.ready ∨ 64 ≤ queue then .next s
  else
    let x := s.queue queue
    let old := x.staging.getD 7 0
    let x := { x with staging := x.staging.setIfInBounds 7 (if wide then data else putBits old 32 32 data.toNat) }
    let r := recOf (fun k => x.staging.getD k 0)
    let s := s.setQueue queue x
    if r.queue = queue ∧ s.admission queue r = 0 then .next (s.accept queue r)
    else .next (s.setQueue queue { x with err := Nat.min 65535 (x.err + 1) })

/-! ## Gates (R432) -/

/-- A lattice cell that a gate or a completion names, in the replica of die `die` under an address space: its region and its
place (R383, R399, R400). -/
def State.queueCell (s : State) (die owner asid pt lrt : Nat) (va : Word) : Option (Region × Nat) :=
  if va.toNat / 2 ^ 57 ≠ 0 then none
  else
    match s.translate ⟨32 * die, dieTlb die, owner, asid, pt, lrt, false⟩ .load va.toNat with
    | .error _ => none
    | .ok (l, _) => l.region.bind (fun r => if l.pa % (r.bits / 8) = 0 then some (r, l.pa) else none)

/-- What finding such a cell and reading it takes is served (spec/13_memory_hierarchy.md R332; spec/22_translation_faults_preemption.md R446). -/
def State.queueServe (s : State) (die owner asid pt lrt : Nat) (va : Word) : State :=
  let s := s.walked ⟨32 * die, dieTlb die, owner, asid, pt, lrt, false⟩ [va]
  match s.queueCell die owner asid pt lrt va with
  | none => s
  | some c => s.serveLines owner [c.2 / 128]

/-- How a lattice gate stands: `none` for one that fails (R432). -/
def State.gateCell (s : State) (x : Queue) (r : LaunchRec) : Option Bool :=
  (s.queueCell 0 x.owner x.asid x.pt.toNat x.lrt.toNat r.gcell).bind (fun c =>
    if c.1.bits = 32 ∧ 2 ^ 32 ≤ r.gthr.toNat then none
    else some (c.1.le (c.1.canon (r.gthr.toNat % 2 ^ c.1.bits)) (s.cellAt x.owner c.1 c.2)))

/-- How the gate of a queue's head record stands (R432). -/
def State.gate (s : State) (q : Nat) (r : LaunchRec) : Option Bool :=
  let x := s.queue q
  match r.gate with
  | 0 => some true
  | 1 =>
    (match x.prev with
     | none => some true
     | some p => some (!s.groups.any (fun (g : Group) => decide (g.queue = q ∧ g.seq = p))))
  | _ => s.gateCell x r

/-- The group of a record that leaves its queue (R429, R433, R436). -/
def State.groupOf (s : State) (q seq : Nat) (r : LaunchRec) (failed : Bool) : Group :=
  let x := s.queue q
  { queue := q, seq := seq, r := r, owner := r.owner, asid := BitVec.ofNat 64 x.asid, pt := x.pt, lrt := x.lrt, slot := x.slot
    placed := 0, exited := 0, removed := 0, boost := 0, since := s.cycle, lastDie := 0, gateFailed := failed }

/-- GATE_TEST (R429, R432): the head record of an enabled queue leaves it when its gate passes or fails. -/
def execGateTest (queue : Nat) (s : State) : Out :=
  let x := s.queue queue
  match x.recs with
  | [] => .next s
  | (seq, r) :: rest =>
    if !x.en then .next s
    else
      let s := if r.gate = 2 then s.queueServe 0 x.owner x.asid x.pt.toNat x.lrt.toNat r.gcell else s
      match s.gate queue r with
      | some false => .next s
      | g =>
        let s : State := { s with groups := s.groups ++ [s.groupOf queue seq r g.isNone] }
        .next (s.setQueue queue { x with recs := rest, prev := some seq })

/-! ## Arbitration (R433) -/

/-- Core cycles in 2 ms (R9). -/
def agingCycles : Nat := 3600000

/-- An effective priority: PRIO raised by `k`, up to 6; 7 stays. -/
def raisePrio (p k : Nat) : Nat := if 6 ≤ p then p else Nat.min 6 (p + k)

/-- The effective priority of a group's next task: it has risen once for every 2 ms since the group became pending (R433). -/
def Group.prioAt (g : Group) (cycle : Nat) : Nat := raisePrio g.r.prio (Nat.max g.boost ((cycle - g.since) / agingCycles))

/-- A group has tasks to place. -/
def Group.pending (g : Group) : Bool := !g.gateFailed && decide (g.placed < g.r.tasks)

/-- PRIORITY_AGING (R433): after each 2 ms of waiting. -/
def execPriorityAging (queue seq : Nat) (s : State) : Out :=
  .next { s with groups := s.groups.map (fun (g : Group) =>
    if g.queue = queue ∧ g.seq = seq ∧ g.pending ∧ (g.boost + 1) * agingCycles ≤ s.cycle - g.since then
      { g with boost := g.boost + 1 }
    else g) }

/-- The effective priority of a saved thread: its placement priority, with aging restarted (spec/22 R459). -/
def State.savedPrio (s : State) (x : Saved) : Nat := raisePrio x.th.prio ((s.cycle - x.since) / agingCycles)

/-! ## Placement (R434, R435) -/

/-- A supervisor seat (spec/12_execution_model.md R303). -/
def supervisorSeat (n : Nat) : Bool := decide (n % 256 = 7)

/-- The free seats of a core that tasks may take. -/
def State.freeSeats (s : State) (c : Nat) : List Nat :=
  (seatsOf c).filter (fun n => !supervisorSeat n && decide ((s.seat n).run = .free))

/-- The seats of a core are reserved for a gang other than group (q, k): each as it frees (R435). -/
def State.reservedFrom (s : State) (q k c : Nat) : Bool :=
  match s.gangResv with
  | none => false
  | some (rq, rk, c0) =>
    !decide (rq = q ∧ rk = k) &&
    s.groups.any (fun (g : Group) => decide (g.queue = rq ∧ g.seq = rk ∧ c0 ≤ c ∧ c < c0 + g.r.tasks))

/-- The lowest seat of a core that a task of a group can take. -/
def State.seatFor (s : State) (q k c : Nat) : Option Nat :=
  if s.reservedFrom q k c then none else (s.freeSeats c).head?

/-- The die links between two dies (spec/13_memory_hierarchy.md R327). -/
def crossings (a b : Nat) : Nat :=
  let d (x y : Nat) : Nat := (x - y) + (y - x)
  d (a / 3) (b / 3) + d (a % 3) (b % 3)

/-- The preferred die of a group (R434). -/
def State.preferredDie (s : State) (g : Group) : Nat :=
  if g.r.argptr.toNat / 2 ^ 57 ≠ 0 then 0
  else
    match s.translate ⟨0, dieTlb 0, g.owner, g.asid.toNat, g.pt.toNat, g.lrt.toNat, false⟩ .load g.r.argptr.toNat with
    | .error _ => 0
    | .ok (l, _) =>
      if l.pa < 6 * hbmWindow then l.pa / hbmWindow
      else if paKind l.pa = .vsp then dieOf ((l.pa - vspBase) / vspSpan)
      else 0

/-- Finding the preferred die of a group translates its ARGPTR (spec/22_translation_faults_preemption.md R446). -/
def State.preferWalk (s : State) (g : Group) : State :=
  s.walked ⟨0, dieTlb 0, g.owner, g.asid.toNat, g.pt.toNat, g.lrt.toNat, false⟩ [g.r.argptr]

/-- The lists' first member with the least `f`. -/
def leastBy (f : Nat → Nat) (l : List Nat) : Option Nat :=
  l.foldl (fun b x => match b with
    | none => some x
    | some y => if f x < f y then some x else some y) none

/-- The seat a non-gang task of a group takes (R434): the fewest crossings, the most free octets, the lowest core. -/
def State.taskSeat (s : State) (g : Group) : Option Nat :=
  let pd := s.preferredDie g
  let cores := (List.range 192).filter (fun c => (s.seatFor g.queue g.seq c).isSome)
  (leastBy (fun c => crossings pd (dieOf c) * 16 + (8 - (s.freeOctets c).length)) cores).bind
    (fun c => s.seatFor g.queue g.seq c)

/-- A run of cores from `c0` each has a seat for a gang's task. -/
def State.runFree (s : State) (g : Group) (c0 : Nat) : Bool :=
  decide (c0 + g.r.tasks ≤ 192) && (List.range g.r.tasks).all (fun t => (s.seatFor g.queue g.seq (c0 + t)).isSome)

/-- The first core of the run a gang takes (R435): the lowest, one on the preferred die before others. -/
def State.gangRun (s : State) (g : Group) : Option Nat :=
  let runs := (List.range 192).filter (fun c => s.runFree g c)
  let pd := s.preferredDie g
  match runs.find? (fun c => decide (dieOf c = pd)) with
  | some c => some c
  | none => runs.head?

/-- What the dispatcher can place: a task, a gang, or a saved thread on its core. -/
inductive Choice | task (g : Group) | gang (g : Group) | saved (x : Saved)
  deriving DecidableEq, Repr

/-- A saved thread's seat: the one kept for it, else a free one of its core
(spec/22_translation_faults_preemption.md R454, R459). -/
def State.savedSeat (s : State) (x : Saved) : Option Nat :=
  if x.kept then (if (s.seat x.seat).run = .parked then some x.seat else none)
  else s.seatFor 64 0 (coreOf x.seat)

/-- The threads restored with a saved one: a gang that was saved whole comes back whole
(spec/12_execution_model.md R323). -/
def State.savedWith (s : State) (x : Saved) : List Saved :=
  if x.th.gang && !x.kept then s.saved.filter (fun (y : Saved) => y.th.grp = x.th.grp) else [x]

/-- A saved thread can be restored: it and all that come back with it have seats, and no thread of a gang is still being
stopped. -/
def State.restorable (s : State) (x : Saved) : Bool :=
  (s.savedWith x).all (fun (y : Saved) => !y.parked && (s.savedSeat y).isSome) &&
  (!x.th.gang || x.kept || s.allSeats.all (fun n => decide ((s.seat n).grp ≠ x.th.grp) || (s.seat n).stopping.isNone))

/-- The choices whose seats are free. -/
def State.choices (s : State) : List Choice :=
  (s.groups.filterMap (fun (g : Group) =>
    if !g.pending then none
    else if g.r.gang then (if (s.gangRun g).isSome then some (.gang g) else none)
    else if (s.taskSeat g).isSome then some (.task g) else none)) ++
  (s.saved.filterMap (fun (x : Saved) => if s.restorable x then some (.saved x) else none))

/-- Effective priority, queue and sequence number of a choice. -/
def State.rank (s : State) : Choice → Nat × Nat × Nat
  | .task g => (g.prioAt s.cycle, g.queue, g.seq)
  | .gang g => (g.prioAt s.cycle, g.queue, g.seq)
  | .saved x => (s.savedPrio x, (x.th.grp.getD (0, 0)).1, (x.th.grp.getD (0, 0)).2)

/-- A choice comes before another (R433): the higher priority, then the next queue after the one last served, then the lower
sequence number. -/
def State.before (s : State) (a b : Choice) : Bool :=
  let x := s.rank a
  let y := s.rank b
  let turn (q : Nat) : Nat := (q + 63 - s.rr) % 64
  decide (y.1 < x.1) || (decide (x.1 = y.1) && (decide (turn x.2.1 < turn y.2.1) ||
    (decide (turn x.2.1 = turn y.2.1) && decide (x.2.2 < y.2.2))))

/-- What the dispatcher takes at a placement opportunity. -/
def State.dispatch (s : State) : Option Choice :=
  s.choices.foldl (fun b c => match b with
    | none => some c
    | some d => if s.before c d then some c else some d) none

/-- A thread as placement makes it (R436, spec/01_state.md R44). -/
def Group.thread (g : Group) (n task cycle : Nat) : Thread :=
  let t := (((Thread.free.set .taskid (BitVec.ofNat 64 task)).set .taskcnt (BitVec.ofNat 64 g.r.tasks)).set .argptr g.r.argptr)
  let t := ((t.set .exitpc g.r.exitpc).set .vshape (BitVec.ofNat 64 g.r.shape)).set .asid g.asid
  let t := ((t.set .ptbase g.pt).set .lrtbase g.lrt).set .slottab g.slot
  let t := ((t.set .owner (BitVec.ofNat 64 g.owner)).set .seatid (BitVec.ofNat 64 (n % 8))).set .coreid (BitVec.ofNat 64 (coreOf n))
  { t.set .gceil 8 with
    pc := g.r.entry.extractLsb' 0 57, run := .running, grp := some (g.queue, g.seq), gang := g.r.gang, prio := g.prioAt cycle
    placedAt := cycle }

/-- A task is placed on a seat, with its first grant (R304, R436). -/
def State.placeTask (s : State) (g : Group) (task n : Nat) : State :=
  let s := s.setSeat n (g.thread n task s.cycle)
  let q := g.r.lanes
  match s.benchGrant n q 8 with
  | none => ((s.becomeShort n).demand n 0 q).setSeat n { ((s.becomeShort n).demand n 0 q).seat n with run := .waiting (.firstLanes q) }
  | some os => (s.benchTake n os).demand n os.length q

/-- A group has placed so many tasks; its queue has been served. -/
def State.served (s : State) (g : Group) (k : Nat) : State :=
  { s with
    rr := g.queue
    groups := s.groups.map (fun (x : Group) => if x.queue = g.queue ∧ x.seq = g.seq then { x with placed := x.placed + k } else x) }

/-- TASK_PLACEMENT (R433, R434, R436). -/
def execTaskPlacement (s : State) : Out :=
  match s.dispatch with
  | some (.task g) =>
    (match s.taskSeat g with
     | some n => .next (((s.preferWalk g).placeTask g g.placed n).served g 1)
     | none => .next s)
  | _ => .next s

/-- GANG_PLACEMENT (R435): every task in one step. -/
def execGangPlacement (s : State) : Out :=
  match s.dispatch with
  | some (.gang g) =>
    (match s.gangRun g with
     | none => .next s
     | some c0 =>
       let s' := (List.range g.r.tasks).foldl (fun (t : State) k =>
         match s.seatFor g.queue g.seq (c0 + k) with
         | some n => t.placeTask g k n
         | none => t) (s.preferWalk g)
       let s' : State := { s' with gangResv := match s'.gangResv with
         | some (q, k, c) => if q = g.queue ∧ k = g.seq then none else some (q, k, c)
         | none => none }
       .next (s'.served g g.r.tasks))
  | _ => .next s

/-- Core cycles in 100 µs (R9). -/
def gangWaitCycles : Nat := 180000

/-- GANG_RESERVATION (R435): the waiting gang of highest effective priority reserves the run with the most free seats, once it has
waited longer than 100 µs and no gang holds a reservation. -/
def execGangReservation (s : State) : Out :=
  let late := s.groups.filter (fun (g : Group) => g.pending && g.r.gang && decide (gangWaitCycles < s.cycle - g.since))
  let best := late.foldl (fun b (g : Group) => match b with
    | none => some g
    | some h => if s.before (.gang g) (.gang h) then some g else some h) none
  match s.gangResv, best with
  | none, some g =>
    let free (c0 : Nat) : Nat := (List.range g.r.tasks).foldl (fun a t => a + (s.freeSeats (c0 + t)).length) 0
    match leastBy (fun c0 => 2 ^ 20 - free c0) (List.range (193 - g.r.tasks)) with
    | some c0 => .next { s with gangResv := some (g.queue, g.seq, c0) }
    | none => .next s
  | _, _ => .next s

/-! ## Completion (R437) -/

/-- The function that receives an owner's messages: 0 for the PF, v + 1 for VF v (spec/23_host_and_links.md R466). -/
def State.fnOf (s : State) (owner : Nat) : Option Nat :=
  if s.pfown = owner then some 0
  else ((List.range 16).find? (fun v =>
    let w := (Map.get 0 s.vfs v : Word)
    w.getLsbD 63 && decide (bitsOf w.toNat 0 10 = owner))).map (· + 1)

/-- An MSI-X message to an owner's function, while there is a host link (spec/23_host_and_links.md R465, R479). -/
def State.sendMsi (s : State) (owner vec : Nat) : State :=
  match s.fnOf owner with
  | some f => if s.fleet.deadDies.contains 0 then s else { s with msi := s.msi ++ [(f, vec)] }
  | none => s

/-- Every task of a group has ended and every copy of its tasks has completed. -/
def State.groupDone (s : State) (g : Group) : Bool :=
  decide (g.exited + g.removed = g.r.tasks) &&
  !s.copies.any (fun (c : Copy) => decide (c.grp = some (g.queue, g.seq)) && c.status.isNone)

/-- The completion join (R400): whether it was applied. Under an owner whose key is gone it is not
(spec/23_host_and_links.md R478). -/
def State.completionJoin (s : State) (g : Group) : State × Bool :=
  let s := s.walked ⟨32 * g.lastDie, dieTlb g.lastDie, g.owner, g.asid.toNat, g.pt.toNat, g.lrt.toNat, false⟩ [g.r.ccell]
  if !s.keys.contains g.owner then (s, false)
  else match s.queueCell g.lastDie g.owner g.asid.toNat g.pt.toNat g.lrt.toNat g.r.ccell with
  | none => (s, false)
  | some (r, pa) => (s.joinCell g.owner r g.lastDie pa (g.r.cval.toNat % 2 ^ r.bits), true)

/-- The completion entry (R437). -/
def completionEntry (seq status done : Nat) : List Byte := natLe 4 seq ++ natLe 1 status ++ natLe 3 0 ++ natLe 4 done ++ natLe 4 0

/-- The entry is written to the queue's ring, while the owner has its key (spec/23_host_and_links.md R478). -/
def State.writeEntry (s : State) (g : Group) (status : Nat) : State :=
  let pa := (s.queue g.queue).cr.toNat + 16 * (g.seq % 256)
  if s.keys.contains g.owner ∧ (paKind pa = .hbm ∨ paKind pa = .vsp) then s.writePhys g.owner pa (completionEntry g.seq status g.exited) else s

/-- GROUP_COMPLETION (R437): join, entry, message. A group whose gate failed joins nothing. -/
def execGroupCompletion (queue seq : Nat) (s : State) : Out :=
  match s.groups.find? (fun (g : Group) => decide (g.queue = queue ∧ g.seq = seq)) with
  | none => .next s
  | some g =>
    if !g.gateFailed && !s.groupDone g then .next s
    else
      let j := if g.r.cmpl && !g.gateFailed then s.completionJoin g else (s, true)
      let status := if g.gateFailed then 2 else if 0 < g.removed then 3 else if j.2 then 0 else 1
      let s := j.1.writeEntry g status
      let s : State := { s with groups := s.groups.filter (fun (x : Group) => !(decide (x.queue = queue ∧ x.seq = seq))) }
      .next (if g.r.msi then s.sendMsi g.owner g.r.msiv else s)

end Sys2Proof.Machine
end

