-- ==== Sys2Proof/Machine/Faults.lean ====
section
/-! DEFINITION. What the firmware and the device do about traps, and pre-emption
(spec/22_translation_faults_preemption.md R450 to R463): fault records and their answers, parked and saved threads, the
watchdog and removal, full context saves and restorations. The firmware's code is no part of the part's description; what
it does is given here as single steps (log 37). -/

namespace Sys2Proof.Machine

/-! ## Fault queues (R451 to R453) -/

/-- Core cycles in 1 ms (R9). -/
def msCycles : Nat := 1800000

/-- The fault queue of a function: 0 the physical function, v + 1 virtual function v. -/
def State.fq (s : State) (fn : Nat) : FaultQ := Map.get FaultQ.reset s.fqs fn

/-- The state with a fault queue replaced. -/
def State.setFq (s : State) (fn : Nat) (q : FaultQ) : State := { s with fqs := Map.put FaultQ.reset s.fqs fn q }

/-- FQCTL.EN. -/
def FaultQ.en (q : FaultQ) : Bool := q.ctl.getLsbD 0
/-- FQCTL.MSIV. -/
def FaultQ.msiv (q : FaultQ) : Nat := bitsOf q.ctl.toNat 5 11
/-- FQCTL.TMO. -/
def FaultQ.tmo (q : FaultQ) : Nat := bitsOf q.ctl.toNat 16 16
/-- The ring is full. -/
def FaultQ.full (q : FaultQ) : Bool := decide ((q.prod + 2 ^ 32 - q.cons % 2 ^ 32) % 2 ^ 32 = 256)

/-- The owner of a function (spec/23_host_and_links.md R466). -/
def State.fnOwner (s : State) (fn : Nat) : Nat :=
  if fn = 0 then s.pfown else bitsOf (Map.get 0 s.vfs (fn - 1) : Word).toNat 0 10

/-- The 32 bytes of a record (R453). -/
def FaultRec.bytes (r : FaultRec) : List Byte :=
  natLe 8 r.va.toNat ++ natLe 2 r.asid.toNat ++ natLe 1 r.cause ++ natLe 1 r.sub ++ natLe 1 r.kind ++
  natLe 1 ((if r.fatal then 1 else 0) + (if r.gang then 2 else 0)) ++ natLe 2 r.seat ++ natLe 4 r.token ++
  natLe 4 r.elem ++ natLe 8 r.pc.toNat

/-- A record is written to its ring; FQPROD advances, and the message follows (R451, R453). -/
def State.writeRecord (s : State) (fn : Nat) (r : FaultRec) : State :=
  let q := s.fq fn
  let own := s.fnOwner fn
  let pa := bitsOf q.base.toNat 12 40 * 4096 + 32 * (q.prod % 256)
  let s := if paKind pa = .hbm ∨ paKind pa = .vsp then s.writePhys own pa r.bytes else s
  (s.setFq fn { s.fq fn with prod := (q.prod + 1) % 2 ^ 32 }).sendMsi own q.msiv

/-- A record is posted, or held while the ring is full (R451). -/
def State.postRecord (s : State) (fn : Nat) (r : FaultRec) : State :=
  let q := s.fq fn
  if q.full ∨ !q.held.isEmpty then s.setFq fn { q with held := q.held ++ [r] } else s.writeRecord fn r

/-- Held records are posted while the ring has room. -/
def State.postHeld (s : State) (fn : Nat) : Nat → State
  | 0 => s
  | k + 1 =>
    match (s.fq fn).held with
    | [] => s
    | r :: rs => if (s.fq fn).full then s else ((s.setFq fn { s.fq fn with held := rs }).writeRecord fn r).postHeld fn k

/-- The function that receives an owner's records, when its queue is enabled (R451, R452). -/
def State.recordFn (s : State) (owner : Nat) : Option Nat :=
  (s.fnOf owner).bind (fun f => if (s.fq f).en then some f else none)

/-- A fresh token. -/
def State.bumpToken (s : State) : State := { s with nextToken := (s.nextToken + 1) % 2 ^ 32 }

/-- The record of a thread's trap, from its supervisor registers and the kind of access that raised it (R453; log 37). -/
def State.recordOf (s : State) (t : Thread) (n token : Nat) (fatal : Bool) : FaultRec where
  va := t.get .eval
  asid := t.get .asid
  cause := (t.get .ecause).toNat % 256
  sub := (t.get .ecause).toNat / 256 % 256
  kind := t.trapKind
  fatal := fatal
  gang := t.gang
  seat := n
  token := token
  elem := (t.get .eelem).toNat % 2 ^ 32
  pc := t.get .epc

/-- A record with FATAL = 1 (R450), where the function takes records. -/
def State.postFatal (s : State) (t : Thread) (n : Nat) : State :=
  match s.recordFn t.owner with
  | none => s
  | some f => s.bumpToken.postRecord f (s.recordOf t n s.nextToken true)

/-! ## Removal (R462) -/

/-- The `fx` of seat `n` is dropped. -/
def State.dropFx (s : State) (n : Nat) : State :=
  match (s.seat n).fx with
  | none => s
  | some r => ((s.focus n).leaveTiles r).focus s.cur

/-- A removed thread at its exit routine (R462). -/
def Thread.toExit (t : Thread) (cycle : Nat) : Thread :=
  let cause := (t.get .ecause).toNat
  let u := ((((t.set .gceil 0).set .grant 0).set .vl 0).set .vstart 0).invalidate
  let u := (u.set .status 0).set .vtype 0
  let u := u.set .ucause (BitVec.ofNat 64 (cause % 256 + cause / 256 % 256 * 2 ^ 16 + (t.get .eelem).toNat % 2 ^ 32 * 2 ^ 32))
  let u := u.set .uepc (t.get .epc)
  { u with
    pc := (t.get .exitpc).extractLsb' 0 57, run := .running, lsq := [], vq := [], fx := none, wake := false
    waitStart := none, waitUsed := 0, stopping := none, finishing := none, ahead := none, ceilFell := none
    lowered := false, ceilHeld := true, exitRoutine := true, removed := true, placedAt := cycle }

/-- The thread of seat `n` has trapped fatally: it is removed. Its stores that entered the queue are performed. -/
def State.removeSeat (s : State) (n : Nat) : State :=
  let s := (s.dropFx n).drainSeat n
  let t := s.seat n
  let s := s.setSeat n { t with removed := true }
  if t.get .exitpc = 0 then (s.endThread n).wakeFabric (coreOf n)
  else
    let c := coreOf n
    let s := s.setCore c ((s.core c).forget n)
    let s : State := { s with remotes := s.remotes.filter (fun (r : RemoteOp) => r.seat ≠ n) }
    (s.setSeat n (t.toExit s.cycle)).wakeFabric c

/-- The exit routine on seat `n` ends, its stores performed, with no record (R463). -/
def State.endRoutine (s : State) (n : Nat) : State := (((s.dropFx n).drainSeat n).endThread n).wakeFabric (coreOf n)

/-- The watchdog's trap (R461), on the state between instructions. -/
def Thread.watchdog (t : Thread) (sub : BitVec 8) : Thread := t.enterSuper { cause := 0x13, sub := sub }

/-- The watchdog removes the thread of seat `n`. -/
def State.watchdogSeat (s : State) (n : Nat) (sub : BitVec 8) : State :=
  let s := s.mergeSeat n
  let t := (s.seat n).watchdog sub
  ((s.postFatal t n).setSeat n t).removeSeat n

/-- A saved thread ends off its seat. -/
def State.endSaved (s : State) (x : Saved) : State :=
  let s : State := { s with
    saved := s.saved.filter (fun (y : Saved) => y.token ≠ x.token)
    copies := orphanCopies (2 ^ 16 + x.token) s.copies
    groups := match x.th.grp with
      | none => s.groups
      | some (q, k) => s.groups.map (fun (g : Group) =>
          if g.queue = q ∧ g.seq = k then g.ended x.th.removed (dieOf (coreOf x.seat)) else g) }
  if x.kept then s.setSeat x.seat Thread.free else s

/-- The state with a saved thread replaced. -/
def State.setSaved (s : State) (x : Saved) : State :=
  { s with saved := s.saved.map (fun (y : Saved) => if y.token = x.token then x else y) }

/-- The watchdog removes a parked thread: it runs its exit routine once it is restored (R461, R462). -/
def State.watchdogSaved (s : State) (x : Saved) (sub : BitVec 8) : State :=
  let t := x.th.watchdog sub
  let s := s.postFatal t x.seat
  if t.get .exitpc = 0 then s.endSaved { x with th := { t with removed := true } }
  else s.setSaved { x with th := t.toExit s.cycle, parked := false, since := s.cycle }

/-! ## Parking (R451) -/

/-- The thread as its trap found it: what `ctxsv` saves (R455; log 21). -/
def Thread.untrap (t : Thread) : Thread :=
  { (t.set .vtype (t.savedCsr .vtype)).set .status (t.savedCsr .status) with
    pc := (t.get .epc).extractLsb' 0 57, run := .running }

/-- Seat `n` holds no thread more: `th`, with its stores performed, is kept under a fresh token. -/
def State.saveSeat (s : State) (n : Nat) (th : Thread) (parked kept : Bool) (fn : Nat) : State :=
  let s := s.drainSeat n
  let token := s.nextToken
  let c := coreOf n
  let s := (s.setCore c ((s.core c).forget n)).bumpToken
  let th : Thread := { th with
    lsq := [], vq := [], held := th.held + (s.cycle - th.placedAt), stopping := none, finishing := none, ahead := none
    ceilFell := none }
  let s : State := { s with
    saved := s.saved ++ [⟨token, n, th, parked, kept, fn, s.cycle⟩]
    remotes := s.remotes.filter (fun (r : RemoteOp) => r.seat ≠ n)
    copies := s.copies.map (fun (k : Copy) => if k.seat = n then { k with seat := 2 ^ 16 + token } else k) }
  (s.setSeat n (if kept then { Thread.free with run := .parked } else Thread.free)).wakeFabric c

/-- The firmware has been entered by a trap of a task. -/
def Thread.trapped (t : Thread) : Bool :=
  decide (t.run = .running) && t.priv && !(t.get .status).getLsbD 1 && decide (t.pc = (t.get .evec).extractLsb' 0 57)

/-- Causes that are forwarded (R450). -/
def forwarded (cause : Nat) : Bool := [0x04, 0x05, 0x06, 0x0F, 0x10].contains cause

/-- FAULT_RECORD_POST (R450, R451): the firmware parks the thread and posts its record, or removes it with a fatal one. It waits
for pending tile loads. A trap in an exit routine ends the thread, with no record (R463). A thread of a gang keeps its seat, unless the gang
is being saved, with which it then comes back (spec/12_execution_model.md R323). -/
def execFaultRecordPost (seat : Nat) (s : State) : Out :=
  let t := s.seat seat
  if !t.trapped ∨ supervisorSeat seat ∨ t.tb0.pending.isSome ∨ t.tb1.pending.isSome then .next s
  else if t.exitRoutine then .next (s.endRoutine seat)
  else
    match s.recordFn t.owner with
    | some f =>
      if forwarded ((t.get .ecause).toNat % 256) then
        let r := s.recordOf t seat s.nextToken false
        .next ((s.saveSeat seat t.untrap true (t.gang && t.stopping.isNone) f).postRecord f r)
      else .next ((s.postFatal t seat).removeSeat seat)
    | none => .next (s.removeSeat seat)

/-! ## Answers (R454) -/

/-- The parked thread a function's token names. -/
def State.parkedThread (s : State) (fn token : Nat) : Option Saved :=
  s.saved.find? (fun (x : Saved) => decide (x.token = token ∧ x.fn = fn) && x.parked)

/-- The faulted copy a function's token names. -/
def State.faultedCopy (s : State) (fn token : Nat) : Option Copy :=
  s.copies.find? (fun (c : Copy) => decide (c.fault = some token ∧ s.fnOf c.owner = some fn))

/-- The copy goes on. -/
def State.retryCopy (s : State) (c : Copy) : State :=
  s.updCopy c (fun (k : Copy) => { k with fault := none })

/-- FQ_RETRY: ACTION 0. -/
def execFqRetry (fn token : Nat) (s : State) : Out :=
  if !s.ready then .next s
  else
    match s.parkedThread fn token, s.faultedCopy fn token with
    | some x, _ => .next (s.setSaved { x with parked := false, since := s.cycle })
    | none, some c => .next (s.retryCopy c)
    | none, none => .next s

/-- Bytes of the instruction at a saved thread's pc: 8 for a long form. -/
def State.skipBytes (s : State) (x : Saved) : Nat :=
  match s.fetchWord (x.th.ctx (coreOf x.seat)) x.th.pc with
  | .ok w => if wMajor w = 0x3E then 8 else 4
  | .error _ => 4

/-- FQ_SKIP: ACTION 1. -/
def execFqSkip (fn token : Nat) (s : State) : Out :=
  if !s.ready then .next s
  else
    match s.parkedThread fn token with
    | some x =>
      .next (s.setSaved { x with
        th := { x.th with pc := x.th.pc + BitVec.ofNat 57 (s.skipBytes x) }, parked := false, since := s.cycle })
    | none => .next s

/-- The code of a copy whose page fault is final (R272, R454). -/
def Copy.faultStatus (c : Copy) (off : Nat) : Word := statusWord off 0 (if c.faultStore then 0x05 else 0x04)

/-- The offset of the first byte of a copy at its failing address: the lowest one. -/
def Copy.faultOff (c : Copy) : Nat :=
  (((c.pieces c.rows).find? (fun p =>
    let a := if c.faultStore then p.dst else p.src
    decide ((c.faultVa - a.toNat) < p.n ∧ a.toNat ≤ c.faultVa))).map (fun p =>
      p.off + (c.faultVa - (if c.faultStore then p.dst else p.src).toNat))).getD 0

/-- A copy ends at the page it failed on: bytes below it are copied, or sent to the other device first (R355). -/
def State.failCopy (s : State) (c : Copy) : State :=
  match s.remoteOf c.dst with
  | some dev =>
    let rows := s.rowsOn dev (fun j => (c.row j).2) c.rows
    let h := s.copyHave c c.faultOff
    h.1.copySend c dev rows (handPrefix h.2 c.faultOff) (c.faultStatus c.faultOff)
  | none =>
    let r := s.copyCut c c.faultOff
    ({ r.1 with remotes := r.1.remotes.filter (fun (o : RemoteOp) => some o.tag ≠ c.tag) } : State).endCopy c (c.faultStatus r.2)

/-- FQ_REMOVE: ACTION 2. -/
def execFqRemove (fn token : Nat) (s : State) : Out :=
  if !s.ready then .next s
  else
    match s.parkedThread fn token, s.faultedCopy fn token with
    | some x, _ => .next (s.watchdogSaved x 0x04)
    | none, some c => .next (s.failCopy c)
    | none, none => .next s

/-- PARKED_TIMEOUT (R461). -/
def execParkedTimeout (token : Nat) (s : State) : Out :=
  match s.saved.find? (fun (x : Saved) => decide (x.token = token) && x.parked) with
  | none => .next s
  | some x =>
    let tmo := (s.fq x.fn).tmo
    .next (if tmo ≠ 0 ∧ tmo * msCycles ≤ s.cycle - x.since then s.watchdogSaved x 0x03 else s)

/-- FQCONS_WRITE (R451, R452). -/
def execFqconsWrite (fn : Nat) (value : Word) (s : State) : Out :=
  if !s.ready ∨ 17 ≤ fn then .next s
  else
    let q := s.fq fn
    .next ((s.setFq fn { q with cons := value.toNat % 2 ^ 32 }).postHeld fn (q.held.length))

/-! ## Page faults of the copy engine (R271, R453, R454) -/

/-- SEAT of a copy's record; free once its thread has ended. -/
def State.copySeatNo (s : State) (c : Copy) : Nat :=
  if c.seat < 2 ^ 16 then c.seat
  else
    match s.saved.find? (fun (x : Saved) => decide (2 ^ 16 + x.token = c.seat)) with
    | some x => x.seat
    | none => Config.freeNat (s.pick c.handle) % 1536

/-- COPY_ENGINE_PAGE_FAULT. Where the copy's function takes no records it ends with the fault's code (log 37). -/
def execCopyEnginePageFault (seat handle : Nat) (s : State) : Out :=
  match s.copies.find? (fun (c : Copy) => decide (c.seat = seat ∧ c.handle = handle) && c.status.isNone && c.fault.isNone) with
  | none => .next s
  | some c =>
    match s.copyPage c with
    | none => .next s
    | some (va, st) =>
      let c : Copy := { c with faultVa := va.toNat, faultStore := st }
      match s.recordFn c.owner with
      | none => .next (s.failCopy c)
      | some f =>
        let r : FaultRec := {
          va := va, asid := BitVec.ofNat 64 c.asid, cause := if st then 0x05 else 0x04, sub := 0, kind := 3, fatal := false
          gang := s.groups.any (fun (g : Group) => decide (c.grp = some (g.queue, g.seq)) && g.r.gang)
          seat := s.copySeatNo c, token := s.nextToken, elem := 0, pc := 0 }
        let c : Copy := { c with fault := some s.nextToken, faultPath := s.pathFrom va.toNat [4, 3, 2, 1, 0] c.ptbase, retry := false }
        .next ((s.updCopy c (fun _ => c)).bumpToken.postRecord f r)

/-- COPY_PAGE_RETRY (R454): the failing page's entry has changed and a `tlbi` that covers it has completed since; the engine
retries the page. -/
def execCopyPageRetry (token : Nat) (s : State) : Out :=
  match s.copies.find? (fun (c : Copy) => decide (c.fault = some token)) with
  | none => .next s
  | some c => .next (if c.retry then s.retryCopy c else s)

/-! ## Pre-emption (R458 to R460) -/

/-- The instruction in hand has waited, and has not completed. -/
def Thread.inHand (t : Thread) : Bool :=
  (match t.run with | .waiting _ => true | _ => false) || t.vq.any (fun (e : VqEntry) => e.held)

/-- A stop of the thread of seat `n` begins: what R458 abandons is abandoned, unless the thread is in supervisor mode, in which nothing of it
stops. A vector load or store to another device stops at the unit VSTART names: none of its answers has been taken (R218). Any other
instruction in hand is to complete. -/
def State.beginStop (s : State) (n : Nat) (chosen : Bool) : State :=
  let s := s.mergeSeat n
  let t := s.seat n
  let t : Thread := { t with stopping := some (s.cycle, chosen), finishing := if t.inHand then t.finishing else none }
  if t.priv then s.setSeat n t
  else
  match t.run with
  | .waiting (.cells _ _ _ _ _ _ _ _) =>
    s.setSeat n { t with run := .running, waitUsed := t.waitUsed + (s.cycle - t.waitStart.getD s.cycle), waitStart := none }
  | .waiting (.event _) => s.setSeat n { t with run := .running, wake := true }
  | .waiting (.tile _ true) => s.setSeat n { t with run := .running }
  | .waiting (.remote _ true) =>
    { s with remotes := s.remotes.filter (fun (r : RemoteOp) => r.seat ≠ n) }.setSeat n { t with run := .running }
  | .waiting (.lanes _) =>
    let k := s.core (coreOf n)
    (s.setCore (coreOf n) { k with shortQ := leaveShort n k.shortQ, resv := dropSeat n k.resv }).setSeat n { t with run := .running }
  | .waiting .fx =>
    (match t.fx with
     | none => s.setSeat n t
     | some r =>
       if r.started then s.setSeat n { t with fx := some { r with cut := r.img.marked } }
       else
         let s := (s.setSeat n t).dropFx n
         s.setSeat n { s.seat n with run := .running })
  | _ => s.setSeat n t

/-- The stop of a thread is complete: it is between instructions, in user mode, with nothing in hand and no pending tile load. -/
def Thread.stopped (t : Thread) : Bool :=
  t.stopping.isSome && !t.priv && t.fx.isNone && decide (t.finishing ≠ some t.pc) && t.tb0.pending.isNone && t.tb1.pending.isNone &&
  (match t.run with
   | .running | .waiting (.firstLanes _) | .waiting (.restoreLanes _) => true
   | _ => false)

/-- The stop of the thread of seat `n` is complete, with no access to another device in hand. -/
def State.stopDone (s : State) (n : Nat) : Bool := (s.seat n).stopped && !s.remotes.any (fun (r : RemoteOp) => decide (r.seat = n))

/-- A thread whose stop is complete is saved (R459). -/
def State.finishStop (s : State) (n : Nat) : State :=
  if s.stopDone n then s.saveSeat n (s.seat n) false false 0 else s

/-- The seats of the threads saved with the one on seat `n`: a gang is saved whole (spec/12_execution_model.md R323). -/
def State.stopSet (s : State) (n : Nat) : List Nat :=
  let t := s.seat n
  if t.gang then s.allSeats.filter (fun m => decide ((s.seat m).grp = t.grp)) else [n]

/-- A level 3 save of the thread of seat `n`, and of its gang, begins; it ends at once where nothing is in flight. -/
def State.level3 (s : State) (n : Nat) (chosen : Bool) : State :=
  let t := s.seat n
  let ns := (s.stopSet n).filter (fun m => (s.seat m).stopping.isNone)
  let s := if !t.gang then s else
    (s.saved.filter (fun (x : Saved) => x.kept && decide (x.th.grp = t.grp))).foldl (fun (s : State) (x : Saved) =>
      (s.setSaved { x with kept := false }).setSeat x.seat Thread.free) s
  let s := ns.foldl (fun (s : State) m => s.beginStop m chosen) s
  ns.foldl (fun (s : State) m => s.finishStop m) s

/-- LEVEL3_SAVE_TIMEOUT (R459): 20 µs after the GCEIL of a level-1 victim fell. -/
def execLevel3SaveTimeout (seat : Nat) (s : State) : Out :=
  let t := s.seat seat
  match t.ceilFell, t.stopping with
  | some c, none => .next (if 36000 ≤ s.cycle - c then s.level3 seat false else s)
  | _, some _ => .next (s.finishStop seat)
  | _, _ => .next s

/-- The highest effective priority among the next task of a group and its saved threads that have been pending for `c` cycles and that
no free seat can take (R460). -/
def State.unseated (s : State) (q k c : Nat) : Option Nat :=
  let tasks := s.groups.filter (fun (g : Group) =>
    decide (g.queue = q ∧ g.seq = k ∧ c ≤ s.cycle - g.since) && g.pending &&
    (if g.r.gang then (s.gangRun g).isNone else (s.taskSeat g).isNone))
  let threads := s.saved.filter (fun (x : Saved) =>
    decide (x.th.grp = some (q, k) ∧ c ≤ s.cycle - x.since) && !x.parked && (s.savedSeat x).isNone)
  (tasks.map (fun g => g.prioAt s.cycle) ++ threads.map s.savedPrio).max?

/-- The priority with which a group has waited 200 µs for a seat (R460). -/
def State.starved (s : State) (q k : Nat) : Option Nat := s.unseated q k 360000

/-- A seat whose thread has released it to the scheduler, waiting at `wait`, `wait.y`, `ltw` or `ltwn`
(spec/10_fabric_region_sync_system_instructions.md R267, R269). -/
def State.released (s : State) (n : Nat) : Bool :=
  let t := s.seat n
  !supervisorSeat n && !t.priv && t.stopping.isNone &&
  (match t.run with
   | .waiting (.cells _ _ _ _ _ _ _ _) | .waiting (.event _) => true
   | _ => false)

/-- A seat whose thread runs or waits. -/
def Thread.onSeat (t : Thread) : Bool := match t.run with | .running | .waiting _ => true | _ => false

/-- The order of R460 among victims: lower priority, more recently placed, higher seat number. -/
def State.victimBefore (s : State) (a b : Nat) : Bool :=
  let x := s.seat a
  let y := s.seat b
  decide (x.prio < y.prio) || (decide (x.prio = y.prio) && (decide (y.placedAt < x.placedAt) ||
    (decide (x.placedAt = y.placedAt) && decide (b < a))))

/-- Every task of the gang of seat `n` lies below priority `p` (R460); of a thread of no gang, the thread itself. -/
def State.gangBelow (s : State) (n p : Nat) : Bool :=
  let t := s.seat n
  (s.stopSet n).all (fun m => decide ((s.seat m).prio < p)) &&
    (!t.gang || s.saved.all (fun (x : Saved) => decide (x.th.grp ≠ t.grp ∨ x.th.prio < p)))

/-- The thread that R460 saves for a group that has waited 200 µs. -/
def State.seatVictim (s : State) (q k : Nat) : Option Nat :=
  (s.starved q k).bind (fun p =>
    (s.allSeats.filter (fun n => !supervisorSeat n && (s.seat n).onSeat && s.gangBelow n p)).foldl (fun b n => match b with
      | none => some n
      | some m => if s.victimBefore n m then some n else some m) none)

/-- SEAT_PREEMPTION (R460): for a group that no free seat can take, the scheduler saves the victim of R460, or, where there is none, a
thread that has released its seat, with its gang (R267, R269; log 52). -/
def execSeatPreemption (queue seq : Nat) (s : State) : Out :=
  if s.allSeats.any (fun n => ((s.seat n).stopping.map (fun (x : Nat × Bool) => x.2)).getD false) then .next s
  else
    match s.seatVictim queue seq with
    | some v => .next (s.level3 v true)
    | none =>
      let can := s.allSeats.filter (fun n => (s.stopSet n).all s.released)
      match s.unseated queue seq 0, can[Config.freeNat (s.pick 0) % can.length]? with
      | some _, some n => .next (s.level3 n false)
      | _, _ => .next s

/-! ## The watchdog (R461, R463) -/

/-- A scalar access to another device or a `vstxr` of seat `n` is in flight, or has its answer to take: a stop lets it complete
(R458, R462). -/
def State.mustComplete (s : State) (n : Nat) : Bool :=
  s.remotes.any (fun (r : RemoteOp) => decide (r.seat = n)) &&
  (match (s.seat n).run with | .waiting (.remote _ true) => false | _ => true)

/-- RUNTIME_LIMIT_EXPIRY (R461; spec/25_fleet_operation.md R494): an `fx` that runs stops first, and what completes under a stop
completes (R462, R458). -/
def execRuntimeLimitExpiry (seat : Nat) (s : State) : Out :=
  let t := s.seat seat
  let late := decide (s.fleet.rtlim ≠ 0) && decide (s.fleet.rtlim * msCycles < t.held + (s.cycle - t.placedAt))
  if !late ∨ !t.onSeat ∨ t.priv ∨ t.exitRoutine ∨ supervisorSeat seat ∨ s.mustComplete seat then .next s
  else
    match t.fx with
    | some r =>
      if r.started then .next (s.setSeat seat { t with fx := some { r with cut := r.img.marked } })
      else .next (s.watchdogSeat seat 0x01)
    | none => .next (s.watchdogSeat seat 0x01)

/-- STOP_TIMEOUT (R461): a level 3 stop has not completed within 1 ms. What completes under a stop completes first (R458, R462); an exit
routine ends with no record (R463). -/
def execStopTimeout (seat : Nat) (s : State) : Out :=
  let t := s.seat seat
  match t.stopping with
  | some (c, _) =>
    .next (if s.cycle - c < msCycles ∨ t.priv ∨ s.mustComplete seat then s
      else if t.exitRoutine then s.endRoutine seat
      else s.watchdogSeat seat 0x02)
  | none => .next s

/-- EXIT_ROUTINE_TIMEOUT (R463). -/
def execExitRoutineTimeout (seat : Nat) (s : State) : Out :=
  let t := s.seat seat
  .next (if t.exitRoutine ∧ msCycles ≤ s.cycle - t.placedAt then s.endRoutine seat else s)

/-! ## Restoration (R281, R303, R454, R459) -/

/-- A saved thread takes seat `n`: its registers are as saved, and it waits until it holds exactly the octets it held. A task that
was short at placement waits for its first grant again. -/
def State.restoreOn (s : State) (x : Saved) (n : Nat) : State :=
  let t := x.th
  let s : State := { s with
    saved := s.saved.filter (fun (y : Saved) => y.token ≠ x.token)
    copies := s.copies.map (fun (k : Copy) => if k.seat = 2 ^ 16 + x.token then { k with seat := n } else k) }
  let base : Thread := { (t.set .seatid (BitVec.ofNat 64 (n % 8))).set .grant 0 with placedAt := s.cycle }
  let start (k : WaitKind) (q ceil : Nat) (exact : Bool) : State :=
    let s := s.setSeat n { base.set .gceil (BitVec.ofNat 64 ceil) with run := .waiting k }
    let run (s : State) : State := s.setSeat n { s.seat n with run := .running }
    if q = 0 then run s
    else
      match s.benchGrant n q 8 with
      | some os =>
        if !exact ∨ os.length = q then (run (s.benchTake n os)).demand n os.length q
        else (s.becomeShort n).demand n 0 q
      | none => (s.becomeShort n).demand n 0 q
  match t.run with
  | .waiting (.firstLanes q) => start (.firstLanes q) q 8 false
  | .waiting (.restoreLanes q) => start (.restoreLanes q) q (Nat.max t.gceil q) true
  | _ => start (.restoreLanes t.octets) t.octets (Nat.max t.gceil t.octets) true

/-- CONTEXT_RESTORE (R459): the dispatcher chooses a saved thread (spec/21_launch_and_scheduling.md R433). -/
def execContextRestore (token : Nat) (s : State) : Out :=
  match s.dispatch with
  | some (.saved x) =>
    if x.token ≠ token then .next s
    else
      .next ((s.savedWith x).foldl (fun (s : State) (y : Saved) =>
        match s.savedSeat y with
        | some n => s.restoreOn y n
        | none => s) s)
  | _ => .next s

end Sys2Proof.Machine
end

