-- ==== Sys2Proof/Machine/Settle.lean ====
section
/-! DEFINITION. The Settle (spec/16_lattice_regions.md R389 to R398): change sets, rounds, `lsync`, and what a die does with a
block it receives. -/

namespace Sys2Proof.Machine

/-! ## Sending -/

/-- A region as the change sets name it, with the first die at which its descriptor is good. -/
def State.regionAt (s : State) (lrt idx : Nat) : Option Region := (List.range 6).findSome? (fun d => s.descriptor lrt idx d)

/-- The blocks of a region that a die has still to send to a partner (R390). -/
def State.changeSet (s : State) (lrt idx die partner : Nat) : List Change :=
  s.changes.filter (fun (c : Change) => decide (c.die = die ∧ c.partner = partner ∧ c.lrt = lrt ∧ c.idx = idx))

/-- A die's DROP counts `n` blocks (R383, R395). -/
def State.dropped (s : State) (d n : Nat) : State := s.setDie d { s.die d with setDrop := Nat.min 65535 ((s.die d).setDrop + n) }

/-- The current contents of a block (log 15). -/
def State.blockBytes (s : State) (r : Region) (block : Nat) : List Byte :=
  (List.range 64).map (fun i => s.tableByte (r.rb + 64 * block + i))

/-- The coherence points of the lines of some blocks of a replica serve the Settle (spec/13_memory_hierarchy.md R332). -/
def State.serveBlocks (s : State) (r : Region) (cs : List Change) : State :=
  cs.foldl (fun (s : State) (c : Change) => s.serveTable (r.rb + 64 * c.block)) s

/-- A die takes part in rounds: alive, with SETCFG.EN = 1 (R391, R398). -/
def State.settles (s : State) (d : Nat) : Bool := (s.die d).setEn && !s.fleet.deadDies.contains d

/-- A die sends its change set for a region, as it stood at `t`, to another die (R390, R391). With a bad descriptor it sends nothing,
keeps the set and counts its blocks in DROP (R383). -/
def State.settleSend (s : State) (lrt idx t src dst : Nat) : State :=
  let cs := (s.changeSet lrt idx src dst).filter (fun c => decide (c.since ≤ t))
  match s.descriptor lrt idx src with
  | none => s.dropped src cs.length
  | some r =>
    let s := s.serveBlocks r cs
    { s with
      changes := s.changes.filter (fun (c : Change) => !cs.contains c)
      settleMsgs := s.settleMsgs ++ cs.map (fun (c : Change) => ⟨src, dst, lrt, idx, c.block, s.blockBytes r c.block⟩) }

/-- The next device of the ring, in ascending device number, dead devices left out (R396, R398). -/
def State.ringNext (s : State) : Option Nat :=
  let live := (List.range 128).filter (fun d => s.member d && !s.fleet.deadPeers.contains d && decide (d ≠ s.devnum))
  match live.find? (fun d => decide (s.devnum < d)) with
  | some d => some d
  | none => live.head?

/-- AUX of a lattice exchange flit (R396, spec/23_host_and_links.md R473; log 34): the region index, TYPE, WLOG and VBASE. -/
def Region.aux (r : Region) : Nat := r.idx + 2 ^ 12 * r.typ + 2 ^ 16 * r.width.log2 + 2 ^ 19 * (r.vbase / 4096)

/-- The device sends its change set for a domain-scope region, as it stood at `t`, to the next device of the ring (R396), each block
under the owner of its line; over a port that cannot send, nothing leaves the set. -/
def State.ringSend (s : State) (lrt idx t : Nat) : State :=
  match s.regionAt lrt idx, s.ringNext with
  | some r, some dev =>
    if !(Map.get Port.reset s.ports (s.portOf dev)).up then s
    else
      let cs := (s.changeSet lrt idx r.home 6).filter (fun c => decide (c.since ≤ t))
      let s := s.serveBlocks r cs
      let s' : State := { s with changes := s.changes.filter (fun (c : Change) => !cs.contains c) }
      cs.foldl (fun (t : State) (c : Change) =>
        let owner := (Map.get LineTag.reset s.lines ((r.rb + 64 * c.block) / 128)).owner.getD 0
        t.emit (t.portOf dev)
          { type := 0x07, line := false, len := 64, src := s.devnum, dst := dev, owner := owner, tag := 0, seq := 0,
            addr := r.vbase + 64 * c.block, aux := r.aux, recs := [], bytes := s.blockBytes r c.block }) s'
  | _, _ => s

/-- `lsync` on a region (R397): an exchange at once, outside the schedule. -/
def State.lsyncRegion (s : State) (r : Region) (die : Nat) : State :=
  if !s.settles die then s
  else if r.domain then (if s.settles r.home then s.ringSend r.lrt r.idx s.cycle else s)
  else ((List.range 6).filter (fun p => decide (p ≠ die) && s.settles p)).foldl (fun s p => s.settleSend r.lrt r.idx s.cycle die p) s

/-- The pairs of a phase (R391). -/
def phasePairs : Nat → List (Nat × Nat)
  | 0 => [(5, 0), (1, 4), (2, 3)]
  | 1 => [(5, 1), (2, 0), (3, 4)]
  | 2 => [(5, 2), (3, 1), (4, 0)]
  | 3 => [(5, 3), (4, 2), (0, 1)]
  | _ => [(5, 4), (0, 3), (1, 2)]

/-- The period in core cycles of a region of so many pages and PCNT (R391, R392). -/
def periodOf (pages pcnt : Nat) : Nat := Nat.max 1 (Nat.max pcnt ((pages + 15) / 16)) * 900

/-- The period of a region's rounds. Where every die's descriptor fails, the fields of the bytes that stand there give it, to count what
is not sent (R383; log 35). -/
def State.roundPeriod (s : State) (lrt idx : Nat) : Nat :=
  match s.regionAt lrt idx with
  | some r => periodOf r.pages r.period
  | none =>
    let ctl := s.rawNat (lrt + 64 * idx) 8
    periodOf (bitsOf ctl 32 18 + 1) (bitsOf ctl 20 12)

/-- The ring can take blocks: it has a next device, over a port that can send (R396). -/
def State.ringUp (s : State) : Bool :=
  match s.ringNext with
  | some dev => (Map.get Port.reset s.ports (s.portOf dev)).up
  | none => false

/-- The exchanges of a round that begins at `t`, of phase `k`: the pairs of dies, and the ring (R391, R396). Under a descriptor that fails
on every die, each counts the blocks it would have sent to the ring (R383). -/
def State.runRound (s : State) (lrt idx t k : Nat) : State :=
  let ps := (phasePairs k).filter (fun p => s.settles p.1 && s.settles p.2)
  let pairs (s : State) : State := ps.foldl (fun s p => (s.settleSend lrt idx t p.1 p.2).settleSend lrt idx t p.2 p.1) s
  match s.regionAt lrt idx with
  | some r => if r.domain then (if s.settles r.home then s.ringSend lrt idx t else s) else pairs s
  | none =>
    ((List.range 6).filter (fun d => s.settles d && s.ringUp)).foldl (fun s d =>
      s.dropped d ((s.changeSet lrt idx d 6).filter (fun c => decide (c.since ≤ t))).length) (pairs s)

/-- SETTLE_ROUND (R391, R396): the round that began last, once; a change made since waits for a later one (log 35). -/
def execSettleRound (lrt idx : Nat) (s : State) : Out :=
  let p := s.roundPeriod lrt idx
  let k := s.cycle / p
  let key := 4096 * lrt + idx
  if k * p < Map.get 0 s.rounds key then .next s
  else .next (({ s with rounds := Map.put 0 s.rounds key (k * p + 1) } : State).runRound lrt idx (k * p) (k % 5))

/-! ## Receiving -/

/-- A cell part at `pa` of a replica takes the join of a received value, under its line's own owner (R390; log 33): whether it
changed. -/
def State.joinReceived (s : State) (r : Region) (pa v : Nat) : State × Bool :=
  let owner := (Map.get LineTag.reset s.lines (pa / 128)).owner.getD 0
  let old := s.cellAt owner r pa
  let new := r.join old (r.canon v)
  if new = old then (s, false) else (s.writePhys owner pa (natLe (r.bits / 8) new), true)

/-- A received block is joined cell by cell into a replica, whose line its coherence point serves (spec/13_memory_hierarchy.md R332); a
change marks it for every partner but the sender (R390). -/
def State.joinBlock (s : State) (r : Region) (die : Nat) (from? : Option Nat) (block : Nat) (bytes : List Byte) : State :=
  let z := r.bits / 8
  let base := r.rb + 64 * block
  let s := s.serveTable base
  let a := (List.range (64 / z)).foldl (fun (a : State × Bool) i =>
    let x := a.1.joinReceived r (base + i * z) (leNat ((bytes.drop (i * z)).take z))
    (x.1, a.2 || x.2)) (s, false)
  if a.2 then a.1.markBlock r die from? base else a.1

/-- SETTLE_BLOCK_RECEIVE (R390, R383, R398): the `k`-th block on its way arrives. A block for a region whose descriptor fails at
the receiver, or that lies outside it, is dropped and counted; a dead die receives nothing, and one with EN = 0 nothing yet (R395). -/
def execSettleBlockReceive (k : Nat) (s : State) : Out :=
  match s.settleMsgs[k]? with
  | none => .next s
  | some m =>
    if !(s.die m.dst).setEn && !s.fleet.deadDies.contains m.dst then .next s
    else
      let s : State := { s with settleMsgs := s.settleMsgs.eraseIdx k }
      if s.fleet.deadDies.contains m.dst then .next s
      else
        match s.descriptor m.lrt m.idx m.dst with
        | none => .next (s.dropped m.dst 1)
        | some r => .next (if r.pages * 64 ≤ m.block then s.dropped m.dst 1 else s.joinBlock r m.dst (some m.src) m.block m.bytes)

end Sys2Proof.Machine
end

