-- ==== Sys2Proof/Machine/Sync.lean ====
section
/-! DEFINITION. Lattice joins and threshold waits (spec/10_fabric_region_sync_system_instructions.md R265 to R268), `wait`,
`wait.y` and `cbar` (R269, R270), and messages between neighbours (R273; spec/13_memory_hierarchy.md R337 to R339). -/

namespace Sys2Proof.Machine

/-! ## Joins (R265, R266) -/

/-- Bytes of a `.w` or `.d` form. -/
def cellBytes (dbl : Bool) : Nat := if dbl then 8 else 4

/-- `stj`. Under `.rel` the seat's older stores are performed first (R266). -/
def execStj (a b : SReg) (rel dbl : Bool) (s : State) : Out :=
  (s.guardTrap (s.qCheck true [] true) fun _ =>
    let n := cellBytes dbl
    let s := (if rel then s.drain else s).reach s.ctx n [s.x a]
    match joinUnit State.ctx true n s 0 [(s.x a, (s.x b).toNat % 2 ^ (8 * n))] with
    | .error t => .trap s t
    | .ok (s, _) => .ok (s.finish s.th.pushVq 1)).out

/-! ## Threshold waits (R267) -/

/-- The cell a threshold wait names, after the checks of R265: its region and where it lies. -/
def State.cellLoc (s : State) (va : Word) (dbl : Bool) : Except Trap (Region × Loc) :=
  let n := cellBytes dbl
  match s.access s.ctx .load false va n 0 with
  | .error t => .error t
  | .ok l =>
    match l.region with
    | none => .error { cause := 0x08, sub := 0x03, eval := va, kind := 0 }
    | some r =>
      if !(decide (r.width = n) || (decide (r.typ = 5 ∧ 16 ≤ r.width) && dbl)) then .error { cause := 0x08, sub := 0x01, eval := va, kind := 0 }
      else .ok (r, l)

/-- A cell that a threshold wait reads: its region and its place, where it is not poisoned (R267, R334). -/
def State.cellPlace (s : State) (va : Word) (dbl : Bool) : Except Trap (Region × Nat) :=
  match s.cellLoc va dbl with
  | .error t => .error t
  | .ok (r, l) =>
    if s.poisoned s.th.owner l then
      .error { cause := 0x0D, eval := va, poisons := if l.psn then none else some l.pa, kind := 0 }
    else .ok (r, l.pa)

/-- The places of some cells of a threshold wait, each checked (R267). -/
def State.cellPlaces (s : State) (dbl : Bool) : List Word → Except Trap (List (Region × Nat))
  | [] => .ok []
  | a :: as =>
    match s.cellPlace a dbl with
    | .error t => .error t
    | .ok p =>
      match s.cellPlaces dbl as with
      | .error t => .error t
      | .ok ps => .ok (p :: ps)

/-- The addresses of `c` cells of a region from one on, a cell's width apart. -/
def Region.cells (r : Region) (va : Word) (c : Nat) : List Word := (List.range c).map (fun k => va + BitVec.ofNat 64 (k * r.width))

/-- The values of cells at their places. -/
def State.cellVals (s : State) (ps : List (Region × Nat)) : List Nat := ps.map (fun p => s.cellAt s.th.owner p.1 p.2)

/-- Cells at or above a threshold (R379). -/
def Region.above (r : Region) (thr : Word) (vs : List Nat) : Nat :=
  vs.countP (fun v => r.le (r.canon (thr.toNat % 2 ^ r.bits)) v)

/-- A cell's value in sd (R267). -/
def Region.ext (r : Region) (v : Nat) : Word := if r.typ = 2 then BitVec.ofInt 64 (toS r.bits v) else BitVec.ofNat 64 v

/-- Cycles that the wait of a thread has lasted (R267). -/
def State.waited (s : State) : Nat := s.th.waitUsed + (s.cycle - s.th.waitStart.getD s.cycle)

/-- The wait has lasted LTWTO cycles. -/
def State.timedOut (s : State) : Bool :=
  decide ((s.th.get .ltwto).toNat ≠ 0) && decide ((s.th.get .ltwto).toNat ≤ s.waited)

/-- The thread with no wait in progress. -/
def Thread.endWait (t : Thread) : Thread := { t with waitStart := none, waitUsed := 0, wake := false }

/-- A range of `c` cells from `pa` on, each of which it takes whole, leaves the region or is too long (R267). -/
def Region.exceeds (r : Region) (pa c : Nat) : Bool :=
  decide (4096 < c) || decide (r.rb + r.pages * 4096 < pa - (pa - r.rb) % r.width + c * r.width)

/-- `ltw` and `ltwn`: `c` cells, `n` of which must be at or above the threshold. The coherence points of the cells serve the reads. -/
def State.threshold (s : State) (d a b : SReg) (many acq dbl : Bool) : Res :=
  let va := s.x a
  let c := if many then (s.x d).toNat % 2 ^ 32 else 1
  let n := if many then Nat.min ((s.x d).toNat / 2 ^ 32) c else 1
  let s := s.reach s.ctx (cellBytes dbl) [va]
  match s.cellLoc va dbl with
  | .error t => .trap (s.withTh s.th.endWait) t
  | .ok (r, l) =>
    if many && r.exceeds l.pa c then
      .trap (s.withTh s.th.endWait) { cause := 0x0B, sub := 0x02, eval := va, kind := 0 }
    else
      let s := s.serveAt s.ctx (r.cells va c)
      match s.cellPlaces dbl (r.cells va c) with
      | .error t => .trap (s.withTh s.th.endWait) t
      | .ok ps =>
        let vs := s.cellVals ps
        let k := r.above (s.x b) vs
        let done (last : Option CellRange) : Res :=
          let v := if many then BitVec.ofNat 64 k else r.ext (vs.headD 0)
          .ok (s.finish (({ s.th.endWait with lastRange := last }.setX d v).pushVq) 1)
        if n ≤ k then done none
        else if s.timedOut then done (some ⟨va, c, dbl, vs.map (fun v => BitVec.ofNat 64 v)⟩)
        else
          .ok ((s.withTh { s.th with waitStart := some (s.th.waitStart.getD s.cycle) }).waitOn
            (.cells d many va (s.x b) c n dbl acq))

/-- `ltw`. Under `.acq` it is performed before any younger access of the seat; here it always is (R266). -/
def execLtw (d a b : SReg) (acq dbl : Bool) (s : State) : Out :=
  (s.guardTrap (s.qCheck true [] true) fun _ => s.threshold d a b false acq dbl).out

/-- `ltwn`. -/
def execLtwn (d a b : SReg) (acq dbl : Bool) (s : State) : Out :=
  (s.guardTrap (s.qCheck true [] true) fun _ => s.threshold d a b true acq dbl).out

/-- The focused seat's threshold wait is satisfied in the local replica, or its cells can be read no more. -/
def State.cellsHold (s : State) : Bool :=
  match s.th.run with
  | .waiting (.cells _ _ va thr c n dbl _) =>
    (match s.cellPlace va dbl with
     | .error _ => true
     | .ok (r, _) =>
       (match s.cellPlaces dbl (r.cells va c) with
        | .error _ => true
        | .ok ps => decide (n ≤ r.above thr (s.cellVals ps))))
  | _ => false

/-- Seat `n` goes on with the instruction it waits at. -/
def State.resume (s : State) (n : Nat) : State := s.setSeat n { s.seat n with run := .running }

/-- LTW_SATISFIED (R267). -/
def execLtwSatisfied (seat : Nat) (s : State) : Out :=
  .next (if (s.focus seat).cellsHold then s.resume seat else s)

/-- LTWTO_EXPIRY (R267). -/
def execLtwtoExpiry (seat : Nat) (s : State) : Out :=
  .next (match (s.seat seat).run with
    | .waiting (.cells _ _ _ _ _ _ _ _) => if (s.focus seat).timedOut then s.resume seat else s
    | _ => s)

/-- `lsync` (R268, R397): it issues in the scalar pipeline, orders nothing and waits for nothing. -/
def execLsync (a : SReg) (s : State) : Out :=
  let s := s.walked s.ctx [s.x a]
  (match s.access s.ctx .load false (s.x a) 1 0 with
   | .error t => Res.trap s t
   | .ok l =>
     match l.region with
     | none => .trap s { cause := 0x08, sub := 0x03, eval := s.x a, kind := 0 }
     | some r => .ok ((s.lsyncRegion r (dieOf (coreOf s.cur))).adv 1)).out

/-! ## `wait` and `wait.y` (R269) -/

/-- The wait begins; a thread restored after a save goes on at once. -/
def State.suspend (s : State) (yields : Bool) : Res :=
  if s.th.wake then .ok (s.finish s.th.endWait.pushVq 1)
  else .ok ((s.withTh { s.th with waitStart := some s.cycle }).waitOn (.event yields))

/-- `wait`. -/
def execWait (s : State) : Out := (s.guardTrap (s.qCheck true [] true) fun _ => s.suspend false).out

/-- `wait.y`: the octets return to the pool at once, and reservations for the seat lapse (R317, R320). -/
def execWaitY (s : State) : Out :=
  (s.guardTrap (s.qCheck true [] true) fun _ =>
    let c := coreOf s.cur
    let s := s.setCore c { s.core c with resv := dropSeat s.cur (s.core c).resv }
    let t := (((s.th.set .grant 0).set .vl 0).set .vstart 0).invalidate
    (s.withTh { t with ceilFell := none }).suspend true).out

/-- The cells of the last threshold wait that timed out have changed since (R269; log 36). -/
def State.cellsChanged (s : State) : Bool :=
  match s.th.lastRange with
  | none => false
  | some g =>
    match s.cellPlace g.va g.dbl with
    | .error _ => false
    | .ok (r, _) =>
      (match s.cellPlaces g.dbl (r.cells g.va g.count) with
       | .error _ => false
       | .ok ps => decide ((s.cellVals ps).map (fun v => BitVec.ofNat 64 v) ≠ g.vals))

/-- WAIT_RESUME (R269): an event of the list has come. -/
def execWaitResume (seat : Nat) (s : State) : Out :=
  let t := s.seat seat
  let f := s.focus seat
  .next (match t.run with
    | .waiting (.event _) =>
      if t.wake || f.cellsChanged || f.timedOut then s.finishSeat seat t.endWait.pushVq 1 else s
    | _ => s)

/-! ## `cbar` (R270) -/

/-- The threads of a task group on a core: on their seats. -/
def State.groupSeats (s : State) (c : Nat) (g : Nat × Nat) : List Nat := (seatsOf c).filter (fun n => (s.seat n).grp = some g)

/-- Those saved off their seats (log 32). -/
def Saved.inGroup (x : Saved) (c : Nat) (g : Nat × Nat) : Bool := decide (coreOf x.seat = c ∧ x.th.grp = some g)

/-- `cbar`. The first arrival of a generation fixes its participants. A thread released from the barrier then performs
`fence core, rwal`. A thread without a group is alone at its barrier. -/
def execCbar (s : State) : Out :=
  (s.guardTrap (s.qCheck true [] true) fun _ =>
    if s.th.cbarPassed ∨ s.th.grp = none then
      let s := s.drain
      match (s.outstanding s.cur).head? with
      | some c => .ok (s.waitOn (.copy c.handle))
      | none => .ok (s.finish { s.th with cbarPassed := false }.pushVq 1)
    else
      match s.th.grp with
      | none => .ok s
      | some g =>
        let c := coreOf s.cur
        let seats := s.groupSeats c g
        let current := seats.any (fun n => (s.seat n).cbarIn) || s.saved.any (fun (x : Saved) => x.inGroup c g && x.th.cbarIn)
        let s : State := if current then s else
          let s := seats.foldl (fun s n => s.setSeat n { s.seat n with cbarIn := true }) s
          { s with saved := s.saved.map (fun (x : Saved) => if x.inGroup c g then { x with th := { x.th with cbarIn := true } } else x) }
        .ok ((s.withTh { s.th with cbarArrived := s.th.cbarIn }).waitOn .cbar)).out

/-- CBAR_RELEASE (R270): every participant of the generation has arrived, or has ended; each goes on. Threads placed later
begin the next generation, at once where the current one has no participant left. -/
def execCbarRelease (core queue seq : Nat) (s : State) : Out :=
  let g := (queue, seq)
  let seats := s.groupSeats core g
  let ins := seats.filter (fun n => (s.seat n).cbarIn)
  let out := s.saved.any (fun (x : Saved) => x.inGroup core g && x.th.cbarIn && !x.th.cbarArrived)
  if out ∨ !(ins.all (fun n => (s.seat n).cbarArrived)) then .next s
  else
    .next (seats.foldl (fun s n =>
      let t := s.seat n
      let t := if t.cbarIn then { t with cbarIn := false, cbarArrived := false, cbarPassed := true } else t
      s.setSeat n (if t.run = .waiting .cbar then { t with run := .running } else t)) s)

/-! ## Messages (R273, R337, R338) -/

/-- The core a direction leads to: `true` for c + 1. -/
def neighbour (c : Nat) (next : Bool) : Option Nat :=
  if next then (if c = 191 then none else some (c + 1)) else if c = 0 then none else some (c - 1)

/-- The buffer of core `c` that holds what core c + 1 (`true`) or c − 1 has sent it. -/
def Core.buf (k : Core) (fromNext : Bool) : StreamBuf := if fromNext then k.fromNext else k.fromPrev

/-- The core with that buffer replaced. -/
def Core.setBuf (k : Core) (fromNext : Bool) (b : StreamBuf) : Core :=
  if fromNext then { k with fromNext := b } else { k with fromPrev := b }

/-- Bytes of a message in a buffer (R337). -/
def Msg.bytes (m : Msg) : Nat := 64 + 64 * ((m.elems.length * 2 ^ m.ew.toNat + 63) / 64)

/-- Bytes in use (R337). -/
def StreamBuf.used (b : StreamBuf) : Nat := (b.msgs ++ b.flight).foldl (fun n (m : Msg) => n + m.bytes) 0

/-- The core, or its die, is dead (R479). -/
def State.coreDead (s : State) (c : Nat) : Bool := s.fleet.deadCores.contains c || s.fleet.deadDies.contains (dieOf c)

/-- The message of the focused thread: elements [0, VL) of a register, packed ones as their containers (R161, R273). -/
def Thread.message (t : Thread) (vs : VReg) : Msg where
  vl := t.vl
  ew := BitVec.ofNat 2 (vtEwc t.vt)
  fmt := BitVec.ofNat 4 (vtFmt t.vt)
  owner := t.owner
  elems := (List.range t.vlc).map (fun i => BitVec.ofNat 64 (t.elem vs.toNat t.ew i))

/-- `vsend`. Of a message only the destination's core and die are looked at: one between cores 95 and 96 goes through whatever dies
lie on its way (log 48). -/
def State.vsend (s : State) (vs : VReg) (next : Bool) : Out :=
  (s.guardTrap (s.qCheck true [vs.toNat] (portClear s.th.vt)) fun _ =>
    match neighbour (coreOf s.cur) next with
    | none => .trap s { cause := 0x0E, sub := 0x01 }
    | some d =>
      if s.coreDead d then .trap s { cause := 0x0E, sub := 0x04 }
      else
        let m := s.th.message vs
        let k := s.core d
        let b := k.buf (!next)
        if 16384 < b.used + m.bytes then .ok (s.waitOn (.sendRoom next))
        else
          let s := s.setCore d (k.setBuf (!next) { b with flight := b.flight ++ [m] })
          .ok (s.finish (s.th.pushVq) 1)).out

/-- `vsend.nx`. -/
def execVsendNx (vs : VReg) (s : State) : Out := s.vsend vs true

/-- `vsend.pv`. -/
def execVsendPv (vs : VReg) (s : State) : Out := s.vsend vs false

/-- The elements of a message written to vd; above them it is unchanged, the other half of a shared container too. -/
def Thread.receive (t : Thread) (vd : VReg) (m : Msg) : Thread :=
  let w := ewBits m.ew.toNat
  (m.elems.zipIdx).foldl (fun t e =>
    if m.fmt = 8 ∧ m.vl < 2 * e.2 + 2 then t.setElem vd.toNat w e.2 (e.1.toNat % 16 + t.elem vd.toNat w e.2 / 16 * 16)
    else t.setElem vd.toNat w e.2 e.1.toNat) t

/-- `vrecv`. -/
def State.vrecv (s : State) (vd : VReg) (next : Bool) : Out :=
  (s.guardTrap (s.qCheck true [vd.toNat] (portClear s.th.vt)) fun _ =>
    let c := coreOf s.cur
    match neighbour c next with
    | none => .trap s { cause := 0x0E, sub := 0x01 }
    | some _ =>
      let k := s.core c
      let b := k.buf next
      let pop (s : State) : State := s.setCore c (k.setBuf next { b with msgs := b.msgs.drop 1 })
      if b.dead then .trap s { cause := 0x0E, sub := 0x04 }
      else
        match b.msgs.head? with
        | none => .ok (s.waitOn (.message next))
        | some m =>
          if m.owner ≠ s.th.owner then .trap (pop s) { cause := 0x0E, sub := 0x02 }
          else if m.ew.toNat ≠ vtEwc s.th.vt ∨ s.th.vlmax < m.vl ∨ s.th.vlcMax < m.elems.length then .trap s { cause := 0x0E, sub := 0x03 }
          else
            let s := pop s
            let t := (s.th.receive vd m).set .vl (BitVec.ofNat 64 m.vl)
            .ok (s.finish ({ t.set .vstart 0 with lastRecv := some next }.pushVq) 1)).out

/-- `vrecv.nx`. -/
def execVrecvNx (vd : VReg) (s : State) : Out := s.vrecv vd true

/-- `vrecv.pv`. -/
def execVrecvPv (vd : VReg) (s : State) : Out := s.vrecv vd false

/-- MESSAGE_ARRIVAL (R338): the oldest published message of a buffer arrives. A thread that waits for it looks again, and one
that waits for an event and last received from that buffer has it (R269). -/
def execMessageArrival (core : Nat) (fromNext : Bool) (s : State) : Out :=
  let k := s.core core
  let b := k.buf fromNext
  match b.flight with
  | [] => .next s
  | m :: rest =>
    let s := s.setCore core (k.setBuf fromNext { b with msgs := b.msgs ++ [m], flight := rest })
    .next ((seatsOf core).foldl (fun s n =>
      let t := s.seat n
      match t.run with
      | .waiting (.message x) => if x = fromNext then s.setSeat n { t with run := .running } else s
      | .waiting (.event _) => if t.lastRecv = some fromNext then s.setSeat n { t with wake := true } else s
      | _ => s) s)

/-- VSEND_ROOM (R273): a waiting `vsend` finds room, or its neighbour is dead. -/
def execVsendRoom (seat : Nat) (s : State) : Out :=
  let t := s.seat seat
  .next (match t.run with
    | .waiting (.sendRoom next) =>
      (match neighbour (coreOf seat) next with
       | none => s
       | some d =>
         if s.coreDead d ∨ ((s.core d).buf (!next)).used + (t.message 0).bytes ≤ 16384 then s.resume seat else s)
    | _ => s)

end Sys2Proof.Machine
end

