-- ==== Sys2Proof/Machine/CoreEvents.lean ====
section
/-! DEFINITION. What a core does beside running instructions: fetches, loads, stores and walks that finish
(spec/13_memory_hierarchy.md R330 to R333, R343; spec/14_memory_ordering.md R345; spec/22_translation_faults_preemption.md
R445, R446), and the Bench (spec/12_execution_model.md R315 to R318). -/

namespace Sys2Proof.Machine

/-! ## Memory -/

/-- The owner tag of a line as a cache holds it, for a line that is not poisoned (R340). -/
def State.tagOf (s : State) (line : Nat) : Option Nat :=
  if paKind (128 * line) = .vsp then Map.get none s.vspTags (s.memKey (128 * line) / 4096)
  else
    let t := Map.get LineTag.reset s.lines line
    if t.poison then none else t.owner

/-- INSTRUCTION_FETCH_RETURN (R331, R279): a line that a seat of the core has fetched, and that its instruction L1 did not hold, arrives
there with the bytes and the owner tag it has now, if its coherence point still holds it. Any older line may go: the model keeps the 256
lines last fetched (log 10). -/
def execInstructionFetchReturn (core line : Nat) (s : State) : Out :=
  if !s.fetches.contains (core, line) then .next s
  else
    let s : State := { s with fetches := s.fetches.filter (fun e => e ≠ (core, line)) }
    match (if paKind (128 * line) = .hbm ∧ !s.inSlice line then none else s.tagOf line) with
    | none => .next s
    | some o =>
      let k := s.core core
      let e : Nat × Nat × List Byte := (line, o, (List.range 128).map (fun i => s.rawByte (128 * line + i)))
      .next (s.setCore core { k with icache := (e :: k.icache.filter (fun (x : Nat × Nat × List Byte) => x.1 ≠ line)).take 256 })

/-- LOAD_RETURN (R331, R343): the line of a scalar load that missed the data L1 of its core, and that allocates there, arrives. It is
kept if its coherence point still holds it. -/
def execLoadReturn (core line : Nat) (s : State) : Out :=
  if !s.loads.contains (core, line) then .next s
  else
    let s : State := { s with loads := s.loads.filter (fun e => e ≠ (core, line)) }
    .next (if paKind (128 * line) = .hbm ∧ !s.inSlice line then s else s.fillL1 core line false)

/-- HBM_REFRESH (R343): the row of a bank is closed. -/
def execHbmRefresh (stack bank : Nat) (s : State) : Out :=
  .next { s with openRows := Map.put 0 s.openRows (stack * 2 ^ 16 + bank % 2 ^ 16) 0 }

/-- Two pending stores write a common byte. -/
def PendingStore.overlaps (p q : PendingStore) : Bool :=
  decide (p.pa < q.pa + q.bytes.length) && decide (q.pa < p.pa + p.bytes.length)

/-- STORE_PERFORMED (R345, R347, R351): the `k`-th store of a seat's queue is performed, before older ones where none of them writes
a byte of it; a release only as the oldest. A store that is no release leaves a dirty copy in the core's L1 (R331). -/
def execStorePerformed (seat k : Nat) (s : State) : Out :=
  let t := s.seat seat
  match t.lsq[k]? with
  | none => .next s
  | some p =>
    if (t.lsq.take k).any (fun (q : PendingStore) => q.overlaps p) ∨ (p.rel ∧ k ≠ 0) then .next s
    else
      let s := (s.readTiles seat).performOne (coreOf seat) p
      let t := s.seat seat
      .next (s.setSeat seat { t with lsq := t.lsq.eraseIdx k })

/-- A walk that ends at a lattice page caches the region's descriptor (spec/16_lattice_regions.md R384; log 16), unless the
device holds one already. -/
def State.cacheDescriptor (s : State) (lrt leaf : Nat) : State :=
  let p := lrt + 64 * bitsOf leaf 52 12
  if bitsOf leaf 7 1 = 0 ∨ paKind p ≠ .hbm ∨ paKind (p + 63) ≠ .hbm ∨ s.descs.any (fun e => decide (e.1 = p)) then s
  else
    let s := s.serveTable p
    { s with descs := (p, (List.range 64).map (fun i => s.tableByte (p + i))) :: s.descs }

/-- The entries of a TLB (R445). -/
def tlbSize (tlb : Nat) : Nat := if tlb < 192 then 64 else if tlb < 384 then 256 else 16384

/-- A translation enters a TLB that does not hold one for the address yet. Which entry it displaces is free, and so is whether it
displaces one while the TLB is not full (R445; log 16). -/
def State.tlbPut (s : State) (tlb : Nat) (c : Ctx) (va : Nat) (x : Xlat) : State :=
  let held := s.tlb.filter (fun (e : TlbEntry) => e.tlb = tlb)
  let k := Config.tlbVictim (s.pick va)
  let k := if held.length < tlbSize tlb then k else k % held.length
  if (s.cached tlb c va).isSome then s
  else { s with tlb := { tlb := tlb, asid := c.asid, vpn := va / 2 ^ x.size, size := x.size, base := x.base, leaf := BitVec.ofNat 64 x.leaf } ::
    (held.eraseIdx k ++ s.tlb.filter (fun (e : TlbEntry) => e.tlb ≠ tlb)) }

/-- WALK_COMPLETE (R445, R446): the translation of a seat's address, which the die's TLB holds or a walk finds, enters the die's
TLB, the TLB of the core's scalar accesses and that of its vector ones, the last two freely, and a lattice page's descriptor is
cached. A walk that fails installs nothing. -/
def execWalkComplete (seat va : Nat) (s : State) : Out :=
  let core := coreOf seat
  let c := { (s.seat seat).ctx core with tlb := dieTlb (dieOf core) }
  if 2 ^ 57 ≤ va then .next s
  else
    let s := s.walkAt c va
    match s.lookup c va with
    | .error _ => .next s
    | .ok x =>
      let fill (p : State) (tlb : Nat) : State := if Config.fillsTlb (p.pick tlb) then p.tlbPut tlb c va x else p
      .next (([core, vecTlb core].foldl fill (s.tlbPut c.tlb c va x)).cacheDescriptor c.lrtbase x.leaf)

/-- VSPCFG_TAKES_EFFECT (R330): every store on the device that could reach a VSP is performed; the granule changes; the write of the
waiting seat completes. -/
def execVspcfgTakesEffect (core : Nat) (s : State) : Out :=
  match (s.core core).vspPending with
  | none => .next s
  | some (n, v) =>
    let s := s.allSeats.foldl (fun (s : State) m => s.drainSeat m) s
    let s := s.setCore core { s.core core with vspcfg := v, vspPending := none }
    .next (if (s.seat n).run = .waiting .vspcfg then s.finishSeat n (s.seat n) 1 else s)

/-! ## The Bench -/

/-- REFLOW_COMPLETE (R166, R315): the octets a seat gave up return to the pool. -/
def execReflowComplete (core seat : Nat) (s : State) : Out :=
  let k := s.core core
  .next (s.setCore core { k with returning := dropSeat seat k.returning })

/-- The order in which short seats are served (R316). -/
def State.servedBefore (s : State) (c : Nat) (a b : Nat × Nat) : Bool :=
  let has (n : Nat) : Bool := (s.core c).resv.any (fun (e : Nat × Nat) => decide (e.2 = n))
  let p (n : Nat) : Nat := (s.seat n).prio
  (has a.1 && !has b.1) || (decide (has a.1 = has b.1) && (decide (p b.1 < p a.1) || (decide (p a.1 = p b.1) &&
    (decide (a.2 < b.2) || (decide (a.2 = b.2) && decide (a.1 < b.1))))))

/-- The octets a short seat can take now: under `setvl` and placement any, at a restoration all it asks for (R281, R315). -/
def State.servable (s : State) (n : Nat) : Option (List Nat) :=
  match (s.seat n).run with
  | .waiting (.lanes q) => s.benchGrant n q (s.ceiling n)
  | .waiting (.firstLanes q) => s.benchGrant n q 8
  | .waiting (.restoreLanes q) => (s.benchGrant n q 8).bind (fun os => if os.length = q then some os else none)
  | _ => none

/-- The first short seat of a core that can be served. -/
def State.nextShort (s : State) (c : Nat) : Option (Nat × Nat) :=
  ((s.core c).shortQ.filter (fun (e : Nat × Nat) => (s.servable e.1).isSome)).foldl (fun b e => match b with
    | none => some e
    | some x => if s.servedBefore c e x then some e else some x) none

/-- What a short seat lacks beyond its reservations is reclaimed for it: a victim may have appeared since its wait began (R317, R325). -/
def State.redemand (s : State) (n : Nat) : State :=
  match (s.seat n).run with
  | .waiting (.lanes q) => s.demand n 0 (Nat.min q (s.ceiling n))
  | .waiting (.firstLanes q) => s.demand n 0 q
  | .waiting (.restoreLanes q) => s.demand n (s.seat n).octets q
  | _ => s

/-- SHORT_SEAT_SERVE (R316): the first short seat that can be served takes its octets, or runs its `setvl` again next. Where none can, the
Bench reclaims for those that are short. -/
def execShortSeatServe (core : Nat) (s : State) : Out :=
  match s.nextShort core with
  | none => .next ((s.core core).shortQ.foldl (fun s e => s.redemand e.1) s)
  | some (n, _) =>
    match (s.seat n).run, s.servable n with
    | .waiting (.lanes _), _ => .next (({ s with sched := .seat n :: s.sched } : State).resume n)
    | .waiting (.firstLanes q), some os => .next (((s.benchTake n os).demand n os.length q).resume n)
    | .waiting (.restoreLanes q), some os => .next (((s.benchTake n os).demand n os.length q).resume n)
    | _, _ => .next s

/-- GCEIL_RAISE (R318): every ceiling of the core's seats that the Bench has lowered rises. A victim whose ceiling rises is a
level-1 victim no more. -/
def execGceilRaise (core : Nat) (s : State) : Out :=
  let k := s.core core
  let free := (s.freeOctets core).length
  if !k.shortQ.isEmpty ∨ !k.resv.isEmpty ∨ free = 0 then .next s
  else
    .next ((seatsOf core).foldl (fun (s : State) n =>
      let t := s.seat n
      if !t.lowered then s
      else
        let c := Nat.min 8 (t.gceil + free)
        s.setSeat n { t.set .gceil (BitVec.ofNat 64 c) with ceilFell := none, lowered := decide (c < 8) }) s)

end Sys2Proof.Machine
end

