-- ==== Sys2Proof/Machine/Host.lean ====
section
/-! DEFINITION. The host interface (spec/23_host_and_links.md R465 to R469, R477, R478): registers reached through BAR0, device
memory through BAR2, SEATGO, the key mailbox, and reads that clear (spec/16_lattice_regions.md R395;
spec/21_launch_and_scheduling.md R427; spec/25_fleet_operation.md R493). Function 0 is the PF, function v + 1 is VF v. -/

namespace Sys2Proof.Machine

/-! ## Functions -/

/-- The register of VF `v` (R466). -/
def State.vf (s : State) (v : Nat) : Word := Map.get 0 s.vfs v

/-- A function can be addressed: the PF, or an enabled VF. -/
def State.fnUp (s : State) (fn : Nat) : Bool := decide (fn = 0) || (decide (fn ≤ 16) && (s.vf (fn - 1)).getLsbD 63)

/-- A function sees the intake window of a queue (R467). -/
def State.seesQueue (s : State) (fn q : Nat) : Bool :=
  decide (q < 64) && s.fnUp fn && (decide (fn = 0) || decide ((s.queue q).owner = s.fnOwner fn))

/-! ## Registers (R467) -/

/-- A request of the host completes. -/
def State.answer (s : State) (c : Completion) : State := { s with hostOut := c :: s.hostOut }

/-- A function's BAR0 reaches an offset (R467): all of it for the PF; for a VF all but the blocks marked No, which are those from the key
mailbox to the fleet block and the windows of queues that its owner has not. -/
def State.reaches (s : State) (fn off : Nat) : Bool :=
  if fn = 0 then decide (off < 0x10000000)
  else decide (off < 0x10000 ∨ (0x80000 ≤ off ∧ off < 0x100000) ∨ (0x140000 ≤ off ∧ off < 0x200000)) ||
    (decide (0x100000 ≤ off ∧ off < 0x140000) && s.seesQueue fn ((off - 0x100000) / 0x1000))

/-- A request has a form and an offset that BAR0 takes (R467): one that does not completes as Unsupported Request. While the device
is not READY every offset above the start status is one with no register (spec/24_startup.md R485). -/
def State.requestOk (s : State) (fn off size : Nat) : Bool :=
  decide (size = 4 ∨ size = 8) && decide (off % size = 0) && (s.reaches fn off || !s.ready)

/-- A register of BAR0 that REGISTER_WRITE writes. -/
inductive HostReg
  | vf (v : Nat) | pfown | pfwin | fcfg | route (n : Nat) | pcap | rtlim | hbcfg
  | fqbase (fn : Nat) | fqctl (fn : Nat) | kcmd
  | qpt (q : Nat) | qlrt (q : Nat) | qslot (q : Nat) | qcr (q : Nat) | staging (q k : Nat)
  deriving DecidableEq, Repr

/-- The register of a queue's window at an offset (spec/21_launch_and_scheduling.md R427). -/
def queueReg (fn q o : Nat) : Option HostReg :=
  if o < 0x40 then some (.staging q (o / 8))
  else if fn ≠ 0 then none
  else
    match o with
    | 0x50 => some (.qpt q)
    | 0x58 => some (.qlrt q)
    | 0x60 => some (.qslot q)
    | 0x68 => some (.qcr q)
    | _ => none

/-- The plain register of a function's BAR0 at an 8-byte aligned offset. -/
def State.hostReg (s : State) (fn off : Nat) : Option HostReg :=
  if off = 0x80000 then some (.fqbase fn)
  else if off = 0x80020 then some (.fqctl fn)
  else if 0x100000 ≤ off ∧ off < 0x140000 then
    (let q := (off - 0x100000) / 0x1000
     if s.seesQueue fn q then queueReg fn q (off % 0x1000) else none)
  else if fn ≠ 0 then none
  else if 0x20000 ≤ off ∧ off < 0x20080 then some (.vf ((off - 0x20000) / 8))
  else if off = 0x20080 then some .pfown
  else if off = 0x20088 then some .pfwin
  else if off = 0x10000 then some .kcmd
  else if off = 0x30000 then some .fcfg
  else if 0x31000 ≤ off ∧ off < 0x31400 then some (.route ((off - 0x31000) / 8))
  else if off = 0x50000 then some .pcap
  else if off = 0x50010 then some .rtlim
  else if off = 0x50018 then some .hbcfg
  else none

/-- The value a write of part of a register is merged with. -/
def State.hostValue (s : State) : HostReg → Word
  | .vf v => s.vf v
  | .pfown => BitVec.ofNat 64 s.pfown
  | .pfwin => s.pfwin
  | .fcfg => BitVec.ofNat 64 (s.devnum + s.lto * 2 ^ 32)
  | .route n => Map.get 0 s.routes n
  | .pcap => BitVec.ofNat 64 s.fleet.pcap
  | .rtlim => BitVec.ofNat 64 s.fleet.rtlim
  | .hbcfg => s.fleet.hbcfg.setWidth 64
  | .kcmd => 0
  | .fqbase fn => (s.fq fn).base
  | .fqctl fn => (s.fq fn).ctl
  | .qpt q => (s.queue q).pt
  | .qlrt q => (s.queue q).lrt
  | .qslot q => (s.queue q).slot
  | .qcr q => (s.queue q).cr
  | .staging q k => (s.queue q).staging.getD k 0

/-- The bits of a register that are not rs. -/
def HostReg.mask : HostReg → Word
  | .vf _ => 0xFFFFFE00000003FF
  | .pfown => 0x3FF
  | .pfwin => 0x000FFFFFC0000000
  | .fcfg => 0x0000FFFF0000007F
  | .route _ => 0x800000000000000F
  | .pcap => 0x7F
  | .rtlim => 0xFFFFFFFF
  | .hbcfg => 0x7
  | .kcmd => 0x03FF0003
  | .fqbase _ => 0x000FFFFFFFFFF000
  | .fqctl _ => 0xFFFFFFE1
  | .qpt _ | .qlrt _ | .qcr _ => 0x000FFFFFFFFFF000
  | .qslot _ => 0x000FFFFFFFFFFE00
  | .staging _ _ => BitVec.ofNat 64 (2 ^ 64 - 1)

/-- A value the register takes (R467): no rs bit and no reserved value. -/
def HostReg.legal (r : HostReg) (v : Word) : Bool :=
  decide (v &&& ~~~ r.mask = 0) &&
  (match r with
   | .fcfg => decide (bitsOf v.toNat 32 16 ≠ 0)
   | .route _ => decide (bitsOf v.toNat 0 4 < 12)
   | .pcap => decide (24 ≤ v.toNat ∧ v.toNat ≤ 72)
   | _ => true)

/-- A register takes a legal value. KCMD with a reserved operation only reports it (R477); operations 1 and 2 are KEY_CREATE and
KEY_DESTROY. -/
def State.setHostReg (s : State) (r : HostReg) (v : Word) : State :=
  match r with
  | .vf n => { s with vfs := Map.put 0 s.vfs n v }
  | .pfown => { s with pfown := v.toNat % 1024 }
  | .pfwin => { s with pfwin := v }
  | .fcfg => { s with devnum := bitsOf v.toNat 0 7, lto := bitsOf v.toNat 32 16 }
  | .route n => { s with routes := Map.put 0 s.routes n v }
  | .pcap => { s with fleet := { s.fleet with pcap := v.toNat } }
  | .rtlim => { s with fleet := { s.fleet with rtlim := v.toNat } }
  | .hbcfg => { s with fleet := { s.fleet with hbcfg := v.extractLsb' 0 3 } }
  | .kcmd =>
    if s.keyCmd.isSome ∨ v.toNat % 4 = 1 ∨ v.toNat % 4 = 2 then s else { s with keyLid := bitsOf v.toNat 16 10, keyRes := 3 }
  | .fqbase fn => s.setFq fn { s.fq fn with base := v }
  | .fqctl fn => s.setFq fn { s.fq fn with ctl := v }
  | .qpt q => s.setQueue q { s.queue q with pt := v }
  | .qlrt q => s.setQueue q { s.queue q with lrt := v }
  | .qslot q => s.setQueue q { s.queue q with slot := v }
  | .qcr q => s.setQueue q { s.queue q with cr := v }
  | .staging q k => s.setQueue q { s.queue q with staging := (s.queue q).staging.setIfInBounds k v }

/-- REGISTER_WRITE (R467): a write of a BAR0 register without an event of its own, or to device control space. The write of the
byte that commits a launch record is HOST_RECORD_COMMIT's, and one of STCMD is STCMD_WARM's or STCMD_COLD's (spec/24_startup.md R486). -/
def execRegisterWrite (fn off size : Nat) (value : Word) (s : State) : Out :=
  if !s.fnUp fn ∨ s.fleet.deadDies.contains 0 then .next s
  else if !s.requestOk fn off size then .next (s.answer .unsupported)
  else if !s.ready then .next s
  else if 0x8000000 ≤ off ∧ off < 0x10000000 then
    .next (if fn = 0 then s.ctlWrite (ctlBase + (off - 0x8000000)) size value.toNat else s)
  else
    match s.hostReg fn (off / 8 * 8) with
    | none => .next s
    | some r =>
      let v := if size = 8 then value else putBits (s.hostValue r) (8 * (off % 8)) 32 value.toNat
      let commits := match r with
        | .staging _ 7 => decide (size = 8 ∨ off % 8 = 4)
        | _ => false
      .next (if r.legal v && !commits then s.setHostReg r v else s)

/-- TCLK_WRITE (spec/25_fleet_operation.md R491). -/
def execTclkWrite (die idx : Nat) (value : Word) (s : State) : Out :=
  .next (if s.ready ∧ die < 6 ∧ idx < 32 then s.tclkWrite (32 * die + idx) value.toNat else s)

/-! ## Reads that clear -/

/-- The bytes of a register that a read takes (R467). -/
def partBytes (p : RegPart) (v : Nat) : List Byte :=
  match p with
  | .whole => natLe 8 v
  | .low => natLe 4 v
  | .high => natLe 4 (v / 2 ^ 32)

/-- The host link has ended (R479). -/
def State.hostGone (s : State) : Bool := s.fleet.deadDies.contains 0

/-- A read of a register completes with what it holds, and the state is then as `k` says; while the device is not READY it finds no register
(spec/24_startup.md R485). -/
def State.readReg (s : State) (p : RegPart) (v : Nat) (k : State → State) : Out :=
  if s.hostGone then .next s
  else if !s.ready then .next (s.answer (.data (partBytes p 0)))
  else .next ((k s).answer (.data (partBytes p v)))

/-- QERR_READ (spec/21_launch_and_scheduling.md R427): a read of the low half clears too, which holds the count. The window of a queue of
another owner is an offset marked No (R467). -/
def execQerrRead (fn : Nat) (queue : RegRead) (s : State) : Out :=
  if !s.fnUp fn then .next s
  else if s.ready && !s.seesQueue fn queue.reg then .next (s.answer .unsupported)
  else
    let x := s.queue queue.reg
    s.readReg queue.part x.err (fun s => if queue.part = .high then s else s.setQueue queue.reg { x with err := 0 })

/-- SETCFG_READ (spec/16_lattice_regions.md R395): a read of the high half clears too, which holds DROP and CARRY. -/
def execSetcfgRead (die : RegRead) (s : State) : Out :=
  if 6 ≤ die.reg then .next s
  else
    let x := s.die die.reg
    s.readReg die.part x.setcfg (fun s => if die.part = .low then s else s.setDie die.reg { x with setCarry := 0, setDrop := 0 })

/-- Counters that a read clears (spec/25_fleet_operation.md R493). -/
def clearedCounter (off : Nat) : Bool := decide (0x1300 ≤ off ∧ off < 0x14A8)

/-- What a counter reads as (spec/25_fleet_operation.md R493): ro counters wrap, rc counters saturate. -/
def State.counterValue (s : State) (off : Nat) : Nat :=
  let v := Map.get 0 s.fleet.cnt off
  if clearedCounter off then Nat.min v (2 ^ 32 - 1) else v % 2 ^ 64

/-- FLEET_COUNTER_READ (spec/25_fleet_operation.md R493): a read of an rc counter clears it, unless it takes only the high half, which
holds none of its bits. -/
def execFleetCounterRead (off : RegRead) (s : State) : Out :=
  s.readReg off.part (s.counterValue off.reg) (fun s =>
    if clearedCounter off.reg ∧ off.part ≠ .high then { s with fleet := { s.fleet with cnt := Map.put 0 s.fleet.cnt off.reg 0 } } else s)

/-! ## BAR2 (R469) -/

/-- The physical address an offset of a function's BAR2 reaches. -/
def State.windowBase (s : State) (fn : Nat) : Nat :=
  if fn = 0 then s.pfwin.toNat else bitsOf (s.vf (fn - 1)).toNat 41 22 * 2 ^ 30

/-- A BAR2 access that is performed: within HBM, under an owner whose key is held. -/
def State.bar2Ok (s : State) (fn pa n : Nat) : Bool :=
  s.ready && s.fnUp fn && s.keys.contains (s.fnOwner fn) &&
  (List.range n).all (fun i => decide (paKind (pa + i) = .hbm))

/-- A BAR2 read finds poison in the line of an address. -/
def State.bar2Poison (s : State) (owner pa : Nat) : Bool := s.pointDead pa || decide (s.view owner pa = .poison)

/-- A byte that a BAR2 read returns: ones in a poisoned line. -/
def State.bar2Byte (s : State) (owner pa : Nat) : Byte := if s.bar2Poison owner pa then 0xFF else s.byteAs owner pa

/-- The lines that `n` bytes from a physical address reach. -/
def paLines (pa n : Nat) : List Nat := (List.range (if n = 0 then 0 else (pa + n - 1) / 128 - pa / 128 + 1)).map (fun k => pa / 128 + k)

/-- BAR2_READ: data, in a poisoned TLP where a line of it is poisoned, or a Completer Abort; nothing once the host link has ended (R479). A
dirty copy is recalled, and a line absent from its slice is read from HBM and not kept. -/
def execBar2Read (fn off n : Nat) (s : State) : Out :=
  let pa := s.windowBase fn + off
  let own := s.fnOwner fn
  if s.hostGone then .next s
  else if !s.bar2Ok fn pa n then .next (s.answer .abort)
  else
    let ls := (paLines pa n).filter (fun l => !s.pointDead (128 * l))
    let s := ls.foldl (fun s l => if s.inSlice l then s else s.readLineAs own l) (s.recallL1 ls)
    let bs := (List.range n).map (fun i => s.bar2Byte own (pa + i))
    .next (s.answer (if (List.range n).any (fun i => s.bar2Poison own (pa + i)) then .poisoned bs else .data bs))

/-- BAR2_WRITE (R344, R469). One outside the HBM windows is discarded and logged; a write to a line whose coherence point is dead is
discarded (R480). -/
def execBar2Write (fn off : Nat) (bytes : List Byte) (s : State) : Out :=
  let pa := s.windowBase fn + off
  if !s.bar2Ok fn pa bytes.length then
    .next (if s.ready && s.fnUp fn && (List.range bytes.length).any (fun i => decide (paKind (pa + i) ≠ .hbm)) then
      { s with aer := s.aer ++ [(fn, off)] } else s)
  else
    let ps := (pieces64 (bytes.length + 1) pa bytes).filter (fun (p : Nat × List Byte) => !s.pointDead p.1)
    .next (s.writeUnits (s.fnOwner fn) ps)

/-! ## SEATGO (R468) -/

/-- SEATGO. -/
def execSeatgo (value : Word) (s : State) : Out :=
  let n := bitsOf value.toNat 0 11
  .next (if s.ready ∧ value.getLsbD 31 ∧ (s.seat n).run = .halted then s.resume n else s)

/-! ## Owner keys (R477, R478) -/

/-- A KCMD write, ignored while a command runs. -/
def State.keyCommand (s : State) (id op : Nat) : State :=
  if s.keyCmd.isSome then s else { s with keyCmd := some (id % 1024, op), keyLid := id % 1024 }

/-- KEY_CREATE. -/
def execKeyCreate (id : Nat) (s : State) : Out := .next (if s.ready then s.keyCommand id 1 else s)

/-- A copy of a destroyed owner ends with CODE 0x14 after some of its bytes (R272, R478). One to another device ends with OFF 0: what
it has sent may or may not be performed there. -/
def State.revokeCopy (s : State) (c : Copy) : State :=
  let s' : State := { s with remotes := s.remotes.filter (fun (o : RemoteOp) => c.tag = none ∨ some o.tag ≠ c.tag) }
  if (s.remoteOf c.dst).isSome then s'.endCopy c (statusWord 0 0 0x14)
  else
    let r := s.copyCut c (Config.freeNat (s.pick c.handle) % (c.rows * c.len + 1))
    ({ r.1 with remotes := s'.remotes } : State).endCopy c (statusWord r.2 0 0x14)

/-- The first step of a destroy: stores in hand are performed, copies end, and every access begun later raises 0x14. -/
def State.revoke (s : State) (id : Nat) : State :=
  let s := s.allSeats.foldl (fun (s : State) n => if (s.seat n).owner = id then s.drainSeat n else s) s
  let s := (s.copies.filter (fun (c : Copy) => decide (c.owner = id) && c.status.isNone)).foldl (fun (s : State) c => s.revokeCopy c) s
  { s with keys := s.keys.filter (· ≠ id) }

/-- A tile register whose owner's key is destroyed is invalid. -/
def Tile.revoke (x : Tile) (id : Nat) : Tile :=
  if x.owner = some (BitVec.ofNat 10 id) then { x with data := 0, pending := none, poison := false, owner := none } else x

/-- A thread without the tile registers of an owner; one that waits for such a tile goes on. -/
def Thread.revoke (t : Thread) (id : Nat) : Thread :=
  let u := { t with tb0 := t.tb0.revoke id, tb1 := t.tb1.revoke id }
  match t.run with
  | .waiting (.tile tb _) => if (if tb then u.tb1 else u.tb0).pending.isNone then { u with run := .running } else u
  | _ => u

/-- What is tagged with an owner is invalid (R478): its HBM lines decode no more, its VSP blocks read as zeros, its cached lines,
tiles and images are gone. -/
def State.invalidateOwner (s : State) (id : Nat) : State :=
  let vsp (line : Nat) : Bool := decide (paKind (128 * line) = .vsp)
  let block (pa : Nat) : Bool := decide (Map.get none s.vspTags (s.memKey pa / 4096) = some id)
  let hit (line : Nat) : Bool :=
    if vsp line then block (128 * line) || block (128 * line + 64)
    else decide ((Map.get LineTag.reset s.lines line).owner = some id)
  let imgs := s.images.filterMap (fun e => if (e.2.map (fun (i : Image) => i.owner)) = some id then some e.1 else none)
  let s : State := { s with
    lines := s.lines.filter (fun e => vsp e.1 || decide (e.2.owner ≠ some id))
    vspTags := s.vspTags.filter (fun e => e.2 ≠ some id)
    l1 := s.l1.filter (fun e => !hit e.1)
    slice := s.slice.filter (fun e => !hit e.1)
    loads := s.loads.filter (fun e => !hit e.2)
    fetches := s.fetches.filter (fun e => !hit e.2)
    saved := s.saved.map (fun (x : Saved) => { x with th := x.th.revoke id })
    cores := (Map.keys s.cores).foldl (fun (m : List (Nat × Core)) c =>
      let k := Map.get Core.reset m c
      Map.put Core.reset m c { k with icache := k.icache.filter (fun (e : Nat × Nat × List Byte) => e.2.1 ≠ id) }) s.cores }
  let s := s.allSeats.foldl (fun (s : State) n => s.setSeat n ((s.seat n).revoke id)) s
  imgs.foldl (fun (s : State) cid => s.dropImage cid) s

/-- KEY_DESTROY: the first step of R478. -/
def execKeyDestroy (id : Nat) (s : State) : Out :=
  if !s.ready ∨ s.keyCmd.isSome then .next s
  else
    let s := s.keyCommand id 2
    .next (if s.keys.contains (id % 1024) then s.revoke (id % 1024) else { s with keyCmd := some (id % 1024, 3) })

/-- KEY_COMMAND_DONE (R477, R478): the result is set and BUSY clears. Operation 3 stands for a destroy that found no key. -/
def execKeyCommandDone (s : State) : Out :=
  match s.keyCmd with
  | none => .next s
  | some (id, op) =>
    let s : State := { s with keyCmd := none }
    .next (if op = 1 then
        if s.keys.contains id then { s with keyRes := 1 } else { s with keys := s.keys ++ [id], keyRes := 0 }
      else if op = 2 then { s.invalidateOwner id with keyRes := 0 }
      else { s with keyRes := 2 })

/-! ## Reset of a virtual function (spec/24_startup.md R481) -/

/-- The threads of an owner end without exit routines, and count as removed. -/
def State.removeOwner (s : State) (id : Nat) : State :=
  let ns := s.allSeats.filter (fun n => !supervisorSeat n && decide ((s.seat n).owner = id) &&
    ((s.seat n).onSeat || decide ((s.seat n).run = .halted)))
  let s := ns.foldl (fun (s : State) n =>
    let s := (s.dropFx n).drainSeat n
    (s.setSeat n { s.seat n with removed := true }).endThread n) s
  (s.saved.filter (fun (x : Saved) => decide (x.th.owner = id))).foldl (fun (s : State) (x : Saved) =>
    s.endSaved { x with th := { x.th with removed := true } }) s

/-- VF_FUNCTION_RESET. -/
def execVfFunctionReset (vf : Nat) (s : State) : Out :=
  if !s.ready ∨ 16 ≤ vf then .next s
  else
    let id := s.fnOwner (vf + 1)
    let s := (List.range 64).foldl (fun (s : State) q =>
      let x := s.queue q
      if x.owner = id then s.setQueue q { x with ctl := x.ctl &&& ~~~1#64 } else s) s
    let s := ((s.removeOwner id).revoke id).invalidateOwner id
    .next { s with keys := s.keys ++ [id] }

end Sys2Proof.Machine
end

