-- ==== Sys2Proof/Machine/Links.lean ====
section
/-! DEFINITION. Feryan links (spec/23_host_and_links.md R470 to R476): ports, flits received, what a destination does with them,
and what a source does with their answers; the domain-scope exchange (spec/16_lattice_regions.md R396). -/

namespace Sys2Proof.Machine

/-! ## Ports -/

/-- A port. -/
def State.port (s : State) (p : Nat) : Port := Map.get Port.reset s.ports p

/-- The state with a port replaced. -/
def State.setPort (s : State) (p : Nat) (x : Port) : State := { s with ports := Map.put Port.reset s.ports p x }

/-- PORT_TRAINING (R474; spec/24_startup.md R481): a session secret is agreed, and the port is fenced no more. -/
def execPortTraining (port : Nat) (s : State) : Out :=
  if 12 ≤ port ∨ !s.ready then .next s
  else
    .next (s.setPort port { s.port port with
      trained := true, fenced := false, session := Config.freeNat (s.pick port), txSeq := 0 })

/-- A port's error counter (R473; spec/25_fleet_operation.md R493). -/
def State.portErr (s : State) (p : Nat) : State := s.count (0x1440 + 8 * p) 1

/-- A unit record is well formed (R472). -/
def unitOk (u : UnitRec) : Bool :=
  decide (u.addr < 2 ^ 57) && decide (u.width ≤ 3) && decide (u.data.toNat < 2 ^ (8 * 2 ^ u.width))

/-- A flit is well formed (R472, R473): its payload is what its length, LINE and type say. A load request carries no data, and under
LINE none at all. -/
def flitOk (f : Flit) : Bool :=
  decide (f.src < 128) && decide (f.dst < 128) && decide (f.owner < 1024) && f.recs.all (fun (u : UnitRec) => unitOk u) &&
  decide (f.recs.length ≤ 13) && decide (f.aux < 2 ^ 64) &&
  (match f.type with
   | 0x07 => !f.line && f.recs.isEmpty && decide (f.bytes.length = f.len) && decide (f.len % 64 = 0) && decide (f.len ≤ 192)
   | 0x05 | 0x06 | 0x08 =>
     !f.line && f.recs.isEmpty && f.bytes.isEmpty && decide (f.len = 0 ∧ f.addr = 0) &&
     decide ((f.type = 0x05 → f.aux < 2 ^ 32) ∧ (f.type = 0x08 → f.aux = 0))
   | 0x01 | 0x02 | 0x03 =>
     decide (f.type = 0x02 ∨ f.aux = 0) &&
     (if f.line then
       f.recs.isEmpty && decide (f.addr % 128 = 0) && decide (f.bytes.length = f.len) && decide (f.len = if f.type = 0x01 then 0 else 128)
      else f.bytes.isEmpty && decide (f.len = 16 * f.recs.length) && decide (f.addr = 0) &&
        (decide (f.type ≠ 0x01) || f.recs.all (fun (u : UnitRec) => decide (u.data = 0))))
   | 0x04 => !f.line && f.bytes.isEmpty && decide (f.len = 16 * f.recs.length) && decide (f.addr = 0) && decide (f.aux < 2 ^ 32)
   | _ => false)

/-- A flit of type `ty` that arrives on a port: counted, dropped when malformed, sent on when it is for another device, else
given to `k` (R470 to R474). -/
def State.receive (s : State) (port : Nat) (f : Flit) (ty : Nat) (k : State → State) : Out :=
  let p := s.port port
  if !p.trained ∨ p.fenced then .next s
  else
    let s := s.count (0x1208 + 16 * port) 1
    if f.type ≠ ty ∨ !flitOk f then .next (s.portErr port)
    else if f.dst = s.devnum then .next (k s)
    else if s.member f.dst then .next (s.emit (s.portOf f.dst) f)
    else .next (s.portErr port)

/-! ## The destination (R475) -/

/-- Whose tables translate an owner's accesses from another device: those of an enabled queue of the owner, freely one of them, on
a free die (log 18). -/
def State.remoteCtx (s : State) (owner : Nat) : Option Ctx :=
  let qs := (List.range 64).filter (fun q => (s.queue q).en && decide ((s.queue q).owner = owner))
  (qs[Config.freeNat (s.pick owner) % Nat.max 1 qs.length]?).map (fun q =>
    let x := s.queue q
    let d := Config.freeNat (s.pick (owner + 2 ^ 32)) % 6
    ⟨32 * d, dieTlb d, owner, x.asid, x.pt.toNat, x.lrt.toNat, false⟩)

/-- The sub-cause of an access that checks 1 to 4 refuse at the destination (R234): whatever fails its translation, a malformed entry
among it, is 0x01. The manual names none for a record misaligned there: the model answers 0x02 (log 57). -/
def State.refusal (s : State) (c : Ctx) (k : Acc) (va n : Nat) : Nat :=
  if va % n ≠ 0 ∨ va / 2 ^ 57 ≠ 0 then 0x02
  else match s.translate c k va with | .error _ => 0x01 | .ok _ => 0x02

/-- An access of an owner from another device is translated (spec/22_translation_faults_preemption.md R446). -/
def State.remoteWalk (s : State) (owner addr n : Nat) : State :=
  if !s.keys.contains owner then s
  else match s.remoteCtx owner with | none => s | some c => s.reach c n [BitVec.ofNat 64 addr]

/-- A unit stored at the destination (R233, R475): the state, or the sub-cause. -/
def State.remoteStore (s : State) (owner : Nat) (u : UnitRec) : Except Nat State :=
  if !s.keys.contains owner then .error 0x02
  else
    match s.remoteCtx owner with
    | none => .error 0x01
    | some c =>
      let n := 2 ^ u.width
      match s.access c .store false (BitVec.ofNat 64 u.addr) n 0 with
      | .error _ => .error (s.refusal c .store u.addr n)
      | .ok l =>
        match l.region with
        | none => .ok (s.writePhys owner l.pa (natLe n u.data.toNat))
        | some r =>
          if r.width = n ∨ (r.typ = 5 ∧ 16 ≤ r.width ∧ n = 8) then .ok (s.joinCell owner r (dieOf c.core) l.pa u.data.toNat)
          else .error 0x03

/-- A line stored at the destination. -/
def State.remoteStoreLine (s : State) (owner addr : Nat) (bs : List Byte) : Except Nat State :=
  if !s.keys.contains owner then .error 0x02
  else
    match s.remoteCtx owner with
    | none => .error 0x01
    | some c =>
      match s.access c .store false (BitVec.ofNat 64 addr) 128 0 with
      | .error _ => .error (s.refusal c .store addr 128)
      | .ok l => if l.region.isSome then .error 0x03 else .ok (s.writePhys owner l.pa bs)

/-- The coherence point of a line that a load from another device reaches serves it: a dirty copy is recalled, and a line absent from its
slice is fetched (spec/13_memory_hierarchy.md R332, R333). -/
def State.remoteServe (s : State) (owner addr n : Nat) : State :=
  let s := s.remoteWalk owner addr n
  if !s.keys.contains owner then s
  else
    match (s.remoteCtx owner).map (fun c => s.access c .load false (BitVec.ofNat 64 addr) n 0) with
    | some (.ok l) => if l.psn || s.pointDead l.pa then s else s.serveLines owner [l.pa / 128]
    | _ => s

/-- `n` bytes loaded at the destination, once their line is served: the state with what the read poisons, and the bytes. -/
def State.remoteLoad (s : State) (owner addr n : Nat) : Except (State × Nat) (List Byte) :=
  if !s.keys.contains owner then .error (s, 0x02)
  else
    match s.remoteCtx owner with
    | none => .error (s, 0x01)
    | some c =>
      match s.access c .load false (BitVec.ofNat 64 addr) n 0 with
      | .error _ => .error (s, s.refusal c .load addr n)
      | .ok l =>
        if s.poisoned owner l then .error (if l.psn then s else s.poisonLine l.pa, 0x04)
        else .ok (s.readAt owner [] l.pa n)

/-- AUX of an answer: records, first failing position, sub-cause (R473). -/
def answerAux (n : Nat) (fail : Option (Nat × Nat)) : Nat :=
  n % 2 ^ 32 + (match fail with | some (p, sub) => p % 2 ^ 24 * 2 ^ 32 + sub % 256 * 2 ^ 56 | none => 0)

/-- The answer to a flit. -/
def State.reply (s : State) (f : Flit) (ty n : Nat) (fail : Option (Nat × Nat)) (recs : List UnitRec) (bytes : List Byte) : State :=
  let line := !bytes.isEmpty
  s.emit (s.portOf f.src)
    { type := ty, line := line, len := if line then bytes.length else 16 * recs.length, src := s.devnum, dst := f.src
      owner := f.owner, tag := f.tag, seq := 0, addr := if line then f.addr else 0, aux := answerAux n fail
      recs := recs, bytes := bytes }

/-- The records of a load request up to the first that fails, with the state and the failure. -/
def State.loadRecs (s : State) (owner : Nat) : Nat → List UnitRec → State × List UnitRec × Option (Nat × Nat)
  | _, [] => (s, [], none)
  | p, u :: us =>
    let s := s.remoteServe owner u.addr (2 ^ u.width)
    match s.remoteLoad owner u.addr (2 ^ u.width) with
    | .error (t, sub) => (t, [], some (p, sub))
    | .ok bs =>
      let r := s.loadRecs owner (p + 1) us
      (r.1, { u with data := BitVec.ofNat 64 (leNat bs) } :: r.2.1, r.2.2)

/-- LOAD_REQUEST (R473, R475). -/
def execLoadRequest (port : Nat) (flit : Flit) (s : State) : Out :=
  s.receive port flit 0x01 (fun s =>
    if flit.line then
      let s := s.remoteServe flit.owner flit.addr 128
      (match s.remoteLoad flit.owner flit.addr 128 with
       | .error (t, sub) => t.reply flit 0x02 0 (some (0, sub)) [] []
       | .ok bs => s.reply flit 0x02 1 none [] bs)
    else
      let r := s.loadRecs flit.owner 0 flit.recs
      r.1.reply flit 0x02 r.2.1.length r.2.2 r.2.1 [])

/-- Records performed in order: the state, how many failed, and the first of them from position `p`. -/
def State.storeRecs (s : State) (owner : Nat) : Nat → List UnitRec → State × Nat × Option (Nat × Nat)
  | _, [] => (s, 0, none)
  | p, u :: us =>
    let s := s.remoteWalk owner u.addr (2 ^ u.width)
    match s.remoteStore owner u with
    | .ok t => t.storeRecs owner (p + 1) us
    | .error sub =>
      let r := s.storeRecs owner (p + 1) us
      (r.1, r.2.1 + 1, some (p, sub))

/-- STORE (R473, R475): performed and acknowledged. -/
def execStore (port : Nat) (flit : Flit) (s : State) : Out :=
  s.receive port flit 0x03 (fun s =>
    if flit.line then
      let s := s.remoteWalk flit.owner flit.addr 128
      (match s.remoteStoreLine flit.owner flit.addr flit.bytes with
       | .error sub => s.reply flit 0x06 0 (some (0, sub)) [] []
       | .ok t => t.reply flit 0x06 1 none [] [])
    else
      let r := s.storeRecs flit.owner 0 flit.recs
      r.1.reply flit 0x06 (flit.recs.length - r.2.1) r.2.2 [] [])

/-- TRAIN_UNITS (R475): performed in order, and remembered until the tail. -/
def execTrainUnits (port : Nat) (flit : Flit) (s : State) : Out :=
  s.receive port flit 0x04 (fun s =>
    let me (i : Inbound) : Bool := decide (i.src = flit.src ∧ i.tag = flit.tag)
    let i := (s.inbound.find? me).getD ⟨flit.src, flit.tag, 0, 0, none⟩
    let r := s.storeRecs flit.owner flit.aux flit.recs
    let i : Inbound := { i with
      got := i.got + flit.recs.length, bad := i.bad + r.2.1, failAt := (match i.failAt with | some e => some e | none => r.2.2) }
    { r.1 with inbound := r.1.inbound.filter (fun (x : Inbound) => !me x) ++ [i] })

/-- TRAIN_TAIL (R475, R234): one acknowledgement; sub-cause 0x06 where the count differs. -/
def execTrainTail (port : Nat) (flit : Flit) (s : State) : Out :=
  s.receive port flit 0x05 (fun s =>
    let me (i : Inbound) : Bool := decide (i.src = flit.src ∧ i.tag = flit.tag)
    let i := (s.inbound.find? me).getD ⟨flit.src, flit.tag, 0, 0, none⟩
    let s : State := { s with inbound := s.inbound.filter (fun (x : Inbound) => !me x) }
    let fail := if i.got ≠ flit.aux % 2 ^ 32 then some (0, 0x06) else i.failAt
    s.reply flit 0x06 (i.got - i.bad) fail [] [])

/-! ## The source (R475, R476) -/

/-- A request is over: the seat that waits for it goes on. -/
def State.wakeRemote (s : State) (r : RemoteOp) : State :=
  if r.seat = engineSeat then s
  else
    let t := s.seat r.seat
    match t.run with
    | .waiting (.remote _ _) =>
      if s.remotes.all (fun (x : RemoteOp) => decide (x.seat ≠ r.seat) || x.done) then s.setSeat r.seat { t with run := .running } else s
    | _ => s

/-- The request a tag names takes an answer. -/
def State.answerRemote (s : State) (tag : Nat) (f : RemoteOp → RemoteOp) : State :=
  match s.remotes.find? (fun (r : RemoteOp) => decide (r.tag = tag) && !r.done) with
  | none => s
  | some r =>
    let r := f r
    let s : State := { s with remotes := s.remotes.map (fun (x : RemoteOp) => if x.tag = tag then r else x) }
    if r.done then s.wakeRemote r else s

/-- The failure an answer reports (R473). -/
def flitFailure (f : Flit) (got : Nat) : Option (Nat × Nat) :=
  if bitsOf f.aux 56 8 = 0 then none else some (got + bitsOf f.aux 32 24, bitsOf f.aux 56 8)

/-- A line as sixteen records. -/
def lineRecs (addr : Nat) (bs : List Byte) : List UnitRec :=
  (List.range 16).map (fun k => ⟨addr + 8 * k, 3, BitVec.ofNat 64 (leNat ((bs.drop (8 * k)).take 8))⟩)

/-- LOAD_RESPONSE (R473, R475). -/
def execLoadResponse (port : Nat) (flit : Flit) (s : State) : Out :=
  s.receive port flit 0x02 (fun s => s.answerRemote flit.tag (fun r =>
    if r.dev ≠ flit.src ∨ !r.load then r
    else
      let fail := flitFailure flit r.got
      let got := r.got + (if flit.line then 1 else flit.recs.length)
      { r with
        got := got, fail := fail, done := fail.isSome || decide (r.count ≤ got)
        recs := r.recs ++ (if flit.line then lineRecs flit.addr flit.bytes else flit.recs) }))

/-- ACKNOWLEDGEMENT (R473, R475). -/
def execAcknowledgement (port : Nat) (flit : Flit) (s : State) : Out :=
  s.receive port flit 0x06 (fun s => s.answerRemote flit.tag (fun r =>
    if r.dev ≠ flit.src ∨ r.load then r
    else
      let fail := flitFailure flit r.got
      let got := r.got + bitsOf flit.aux 0 32
      { r with got := got, fail := fail, done := fail.isSome || decide (r.count ≤ got) }))

/-- A request ends without an answer (R234 sub-cause 0x05). -/
def State.giveUp (s : State) (tag : Nat) : State :=
  s.answerRemote tag (fun r => { r with fail := some (r.got, 0x05), done := true })

/-- LINK_TIMEOUT (R476): LTO µs without an answer. -/
def execLinkTimeout (tag : Nat) (s : State) : Out :=
  match s.remotes.find? (fun (r : RemoteOp) => decide (r.tag = tag) && !r.done) with
  | none => .next s
  | some r => .next (if s.lto * 1800 ≤ s.cycle - r.sent then s.giveUp tag else s)

/-! ## Exchange and heartbeats -/

/-- The domain-scope region an exchange flit names, by the tables of an enabled queue of its owner (log 34). -/
def State.exchangeRegion (s : State) (f : Flit) : Option Region :=
  (s.remoteCtx f.owner).bind (fun c =>
    (s.regionAt c.lrtbase (bitsOf f.aux 0 12)).bind (fun r => if r.domain ∧ r.aux = f.aux then some r else none))

/-- LATTICE_EXCHANGE (R396, R390): the blocks are joined into the replica and go on round the ring; a flit that disagrees with the
descriptor is dropped and counted, on CD0 where no die is named. -/
def execLatticeExchange (port : Nat) (flit : Flit) (s : State) : Out :=
  s.receive port flit 0x07 (fun s =>
    let n := flit.bytes.length / 64
    match s.exchangeRegion flit with
    | none =>
      let home := ((s.remoteCtx flit.owner).bind (fun c => s.regionAt c.lrtbase (bitsOf flit.aux 0 12))).map (fun r => r.home)
      s.dropped (home.getD 0) n
    | some r =>
      if !s.settles r.home then s
      else if !s.keys.contains flit.owner ∨ flit.addr < r.vbase ∨ r.pages * 4096 < flit.addr - r.vbase + flit.bytes.length ∨
          flit.addr % 64 ≠ 0 then s.dropped r.home n
      else
        let from? := if s.ringNext = some flit.src then some 6 else none
        (List.range n).foldl (fun (s : State) k =>
          s.joinBlock r r.home from? ((flit.addr - r.vbase) / 64 + k) ((flit.bytes.drop (64 * k)).take 64)) s)

/-- The place of an agent in the table of heartbeats. -/
def agentKey : AgentId → Nat
  | .core n => n
  | .die n => 192 + n
  | .peer n => 198 + n

/-- An agent has been declared dead (R479). -/
def State.agentDead (s : State) : AgentId → Bool
  | .core n => s.fleet.deadCores.contains n
  | .die n => s.fleet.deadDies.contains n
  | .peer n => s.fleet.deadPeers.contains n

/-- A heartbeat arrives: one from a dead agent is ignored and counted (R479). -/
def State.beat (s : State) (a : AgentId) : State :=
  if s.agentDead a then s.count 0x14A0 1
  else { s with fleet := { s.fleet with beats := Map.put 0 s.fleet.beats (agentKey a) s.cycle } }

/-- PEER_HEARTBEAT (R473, R479): it shows which device the port is linked to. One of a dead peer is counted, on its fenced port too. -/
def execPeerHeartbeat (port : Nat) (flit : Flit) (s : State) : Out :=
  if (s.port port).trained ∧ (s.port port).fenced ∧ flit.type = 0x08 ∧ flitOk flit ∧ s.fleet.deadPeers.contains flit.src then
    .next (s.count 0x14A0 1)
  else
    s.receive port flit 0x08 (fun s => (s.setPort port { s.port port with peer := some flit.src }).beat (.peer flit.src))

end Sys2Proof.Machine
end

