-- ==== Sys2Proof/Machine/Fleet.lean ====
section
/-! DEFINITION. Heartbeats, deaths and the scrub engine (spec/23_host_and_links.md R479, R480), power and temperature
(spec/25_fleet_operation.md R488 to R496), and cold and warm start (spec/24_startup.md R481 to R487). -/

namespace Sys2Proof.Machine

/-! ## Heartbeats (R479) -/

/-- What a port's flits have come to since its last heartbeat (R474): the resends after a failed CRC are counted, and eight failures of
one flit, which only eight or more failures can hold, fence the port (log 54). -/
def State.linkErrors (s : State) (p : Nat) : State :=
  if !(s.port p).up then s
  else
    let n := Config.crcFailures (s.pick p)
    let t := s.count (0x1440 + 8 * p) n
    if 8 ≤ n ∧ Config.crcFence (s.pick p) then t.fencePort p else t

/-- HEARTBEAT_SEND: a core or die reports to its manager; this device sends a flit on each port that is up, whose destination number
the model leaves free (log 38). -/
def execHeartbeatSend (agent : AgentId) (s : State) : Out :=
  match agent with
  | .peer n =>
    if n ≠ s.devnum then .next s
    else
      .next ((List.range 12).foldl (fun (s : State) p =>
        (s.linkErrors p).emit p { type := 0x08, line := false, len := 0, src := s.devnum, dst := Config.freeNat (s.pick p) % 128, owner := 0
                                  tag := 0, seq := 0, addr := 0, aux := 0, recs := [], bytes := [] }) s)
  | a => .next (s.beat a)

/-! ## Deaths (R479, R480) -/

/-- The stream buffers between core `c` and its neighbours are emptied and closed (spec/13_memory_hierarchy.md R339). -/
def State.closeBuffers (s : State) (c : Nat) : State :=
  let shut (s : State) (d : Nat) (fromNext : Bool) : State :=
    let s := s.setCore d ((s.core d).setBuf fromNext ⟨[], [], true⟩)
    (seatsOf d).foldl (fun (s : State) n =>
      if (s.seat n).run = .waiting (.message fromNext) then s.resume n else s) s
  let s := if c = 0 then s else (shut s c false) |> (shut · (c - 1) true)
  if c = 191 then s else (shut s c true) |> (shut · (c + 1) false)

/-- The threads of a core end without exit routines, and its seats hold none again (R479). -/
def State.endCore (s : State) (c : Nat) : State :=
  let s := (seatsOf c).foldl (fun (s : State) n =>
    let s := s.dropFx n
    let s := if (s.seat n).onSeat ∨ (s.seat n).run = .halted then (s.setSeat n { s.seat n with removed := true }).endThread n else s
    s.setSeat n { Thread.free with run := .dead }) s
  (s.saved.filter (fun (x : Saved) => decide (coreOf x.seat = c))).foldl (fun (s : State) (x : Saved) =>
    (s.endSaved { x with kept := false, th := { x.th with removed := true } })) s

/-- The scrub of a core's L1 (R480): a line whose only valid copy it may have held is poisoned where it held it, which the
model leaves free for a copy it marked dirty (log 4). -/
def State.scrub (s : State) (c : Nat) : State :=
  let mine := s.l1.filter (fun e => decide (e.2.1 = c))
  let s : State := { s with l1 := s.l1.filter (fun e => e.2.1 ≠ c), loads := s.loads.filter (fun e => e.1 ≠ c) }
  mine.foldl (fun (s : State) e => if e.2.2 && decide (Config.freeNat (s.pick e.1) % 2 = 0) then s.poisonLine (128 * e.1) else s) s

/-- A core dies. -/
def State.killCore (s : State) (c : Nat) : State := ((s.endCore c).closeBuffers c).scrub c

/-- The ports linked to a device (R479): those its heartbeats came over last (log 54). -/
def State.portsTo (s : State) (dev : Nat) : List Nat := (List.range 12).filter (fun p => decide ((s.port p).peer = some dev))

/-- The ports linked to a device are fenced, and requests to it end (R479). -/
def State.fencePeer (s : State) (dev : Nat) : State :=
  let s := (s.portsTo dev).foldl (fun (s : State) p => s.fencePort p) s
  (s.remotes.filter (fun (r : RemoteOp) => decide (r.dev = dev) && !r.done)).foldl (fun (s : State) (r : RemoteOp) => s.giveUp r.tag) s

/-- Core cycles in 60 µs (R9). -/
def deathCycles : Nat := 108000

/-- HBCFG allows the declaration (spec/25_fleet_operation.md R494); of other devices only those linked to this one are looked after
(R479). -/
def State.canDeclare (s : State) : AgentId → Bool
  | .core n => s.fleet.hbcfg.getLsbD 0 && decide (n < 192)
  | .die n => s.fleet.hbcfg.getLsbD 1 && decide (n < 6)
  | .peer n => s.fleet.hbcfg.getLsbD 2 && decide (n < 128) && !(s.portsTo n).isEmpty && decide (n ≠ s.devnum)

/-- AGENT_DEATH (R479, R480; spec/16_lattice_regions.md R398; spec/25_fleet_operation.md R495, R496). The links of a die are fenced while
it is dead; its two Feryan ports stay up, and chain traffic still crosses it (log 48). -/
def execAgentDeath (agent : AgentId) (s : State) : Out :=
  let late := decide (deathCycles ≤ s.cycle - Map.get 0 s.fleet.beats (agentKey agent))
  if !late ∨ s.agentDead agent ∨ !s.canDeclare agent then .next s
  else
    match agent with
    | .core n =>
      let s : State := { s with fleet := { s.fleet with deadCores := s.fleet.deadCores ++ [n] } }
      .next ((s.killCore n).indicate 1 n)
    | .die n =>
      let s : State := { s with
        fleet := { s.fleet with deadDies := s.fleet.deadDies ++ [n] }
        changes := s.changes.filter (fun (c : Change) => c.die ≠ n)
        settleMsgs := s.settleMsgs.filter (fun (m : SettleMsg) => m.src ≠ n ∧ m.dst ≠ n) }
      .next (((List.range 32).foldl (fun (s : State) k => s.killCore (32 * n + k)) s).indicate 1 (0xC0 + n))
    | .peer n =>
      let s : State := { s with fleet := { s.fleet with deadPeers := s.fleet.deadPeers ++ [n] } }
      .next (s.fencePeer n)

/-! ## Power and temperature (spec/25_fleet_operation.md R488 to R492) -/

/-- POWER_SAMPLE (R489, R492). -/
def execPowerSample (watts : Nat) (s : State) : Out :=
  let cap := 25 * s.fleet.pcap
  let w := watts % 65536
  let thr := if cap < w then Nat.min (s.fleet.thr + 1) 15 else if w + 50 < cap then s.fleet.thr - 1 else s.fleet.thr
  let thr := if s.fleet.thermHold then Nat.max 8 thr else thr
  .next { s with fleet := { s.fleet with power := w, thr := thr } }

/-- The hottest reading of all dies. -/
def State.hottest (s : State) : Nat := (List.range 6).foldl (fun a d => Nat.max a (s.die d).temp) 0

/-- The whole device stops (spec/24_startup.md R481): every seat, and all that is in flight; its queues hold nothing more, as at the
release that follows. -/
def State.stopDevice (s : State) : State :=
  { s with
    th := { Thread.free with run := .dead }, seats := [], cores := [], copies := [], groups := [], gangResv := none
    saved := [], remotes := [], inbound := [], settleMsgs := [], changes := [], rounds := [], queues := [], fqs := [], images := [], keyCmd := none, l1 := [], slice := [], loads := []
    tlb := [], descs := []
    ports := (Map.keys s.ports).foldl (fun (m : List (Nat × Port)) p =>
      Map.put Port.reset m p { Map.get Port.reset m p with trained := false, fenced := false }) s.ports }

/-- A trip (R492), at a temperature that holds THR too. -/
def State.trip (s : State) : State :=
  let s := (s.stopDevice.count 0x14A8 1).indicate 3 0
  { s with
    start := { s.start with tripped := true }, fleet := { s.fleet with thermHold := true, thr := Nat.max 8 s.fleet.thr } }

/-- TEMPERATURE_SAMPLE (R492). -/
def execTemperatureSample (temps : List Nat) (s : State) : Out :=
  let s := (List.range 6).foldl (fun (s : State) d =>
    s.setDie d { s.die d with temp := (temps.getD d (s.die d).temp) % 256 }) s
  let t := s.hottest
  let hold : State := { s with fleet := { s.fleet with thermHold := true, thr := Nat.max 8 s.fleet.thr } }
  if 110 ≤ t then .next (if s.start.tripped then hold else s.trip)
  else if 100 ≤ t then .next hold
  else if t < 95 then .next { s with fleet := { s.fleet with thermHold := false } }
  else .next s

/-! ## Starts (spec/24_startup.md R481 to R487) -/

/-- A failure that a step of a start can have (R482). -/
def failPossible (cold : Bool) : StartFail → Bool
  | .ok => true
  | .fail step code det =>
    (match step with
     | 1 => decide (code = 1 ∨ code = 2 ∨ code = 8) && decide (det = 0)
     | 2 => (decide (code = 8) && decide (det = 0)) || (decide (code = 3 ∨ (code = 7 ∧ !cold)) && decide (det < 12))
     | 3 => cold && ((decide (code = 8) && decide (det = 0)) || (decide (code = 4) && decide (det < 192 ∨ (0xC0 ≤ det ∧ det < 0xC6))))
     | 4 => !cold && decide (code = 5 ∨ code = 8) && decide (det = 0)
     | 5 => !cold && decide (code = 8) && decide (det = 0)
     | 6 => decide (code = 6 ∨ code = 8) && decide (det = 0)
     | 7 => decide (code = 8) && decide (det = 0)
     | _ => false)

/-- An attempt begins: STARTS counts it (R486). -/
def State.beginAttempt (s : State) (cold : Bool) : State :=
  let s := s.stopDevice
  { s with start := { s.start with kind := if cold then 1 else 2, state := 1, starts := (s.start.starts + 1) % 2 ^ 32, tripped := false } }

/-- What a cold start that comes to a step has cleared: from STEP 2 on the latched failure (R485), from STEP 4 on the log with its
counters, indicators and row repairs (R482, R483; spec/25_fleet_operation.md R493, R496). -/
def State.coldClears (s : State) (step : Nat) : State :=
  let s : State := if 2 ≤ step then { s with start := { s.start with fcode := 0, fdet := 0 } } else s
  if step < 4 then s
  else
    { s with
      ports := []
      fleet := { s.fleet with
        cnt := Map.filter (fun k (_ : Nat) => !(decide (0x1300 ≤ k ∧ k < 0x14A8))) s.fleet.cnt, replBits := 0, replUnit := []
        eccTotal := [], spares := [] } }

/-- An attempt has come to a step, with a detail; a latched failure keeps both (R485). -/
def StartSt.came (x : StartSt) (step det : Nat) : StartSt := if x.fcode = 0 then { x with step := step, fdet := det } else x

/-- The device at release (R484): memory keeps its bits, no line has an owner, and what the log keeps across a start stays, the row
repairs among it. -/
def State.release (s : State) (cold : Bool) : State :=
  let r := State.reset
  let keptCnt := Map.filter (fun k (_ : Nat) => decide (0x1300 ≤ k)) s.fleet.cnt
  { r with
    mem := s.mem
    dies := (List.range 6).foldl (fun (m : List (Nat × Die)) d => Map.put Die.reset m d { Die.reset with temp := (s.die d).temp }) []
    ports := (Map.keys s.ports).foldl (fun (m : List (Nat × Port)) p =>
      Map.put Port.reset m p { Port.reset with fences := (s.port p).fences }) []
    fleet := { r.fleet with
      cnt := keptCnt, replBits := s.fleet.replBits, replUnit := s.fleet.replUnit, eccTotal := s.fleet.eccTotal, spares := s.fleet.spares
      thermHold := s.fleet.thermHold, thr := if s.fleet.thermHold then 8 else 0 }
    start := { s.start.came 7 s.start.fdet with state := 2, wfail := if cold then s.start.wfail else 0 }
    msi := s.msi, hostOut := s.hostOut, aer := s.aer, outbox := s.outbox, sched := s.sched, free := s.free }

/-- A cold attempt (R485). One that fails before STEP 2 leaves an older failure latched. -/
def State.coldStart (s : State) (o : StartFail) : State :=
  let s := s.beginAttempt true
  match o with
  | .ok => (s.coldClears 7).release true
  | .fail step code det =>
    let s := s.coldClears step
    let x := s.start
    let x := if x.fcode = 0 then { x with fcode := code, fdet := det, step := step } else x
    ({ s with start := { x with state := 3 } } : State).indicate 4 0

/-- Warm attempts, at most `k` more before the cold start, with their outcomes; an attempt without one succeeds (R485). -/
def State.warmStart (s : State) : Nat → List StartFail → State
  | 0, os => s.coldStart (os.headD .ok)
  | k + 1, os =>
    let s := s.beginAttempt false
    match os with
    | .fail step code det :: rest =>
      let n := s.start.wfail + 1
      let s : State := { s with start := { s.start.came step det with wcode := code, wfail := if 3 ≤ n then 0 else n } }
      s.warmStart k rest
    | _ => s.release false

/-- The outcomes are those of steps that can fail so: up to three of warm attempts, then one of a cold start. -/
def outcomesOk (warm : Nat) (os : List StartFail) : Bool :=
  (os.take warm).all (fun o => failPossible false o) && (os.drop warm).all (fun o => failPossible true o)

/-- Warm attempts left before a cold start. -/
def State.warmLeft (s : State) : Nat := 3 - s.start.wfail

/-- A warm start, with its attempts (R485). -/
def State.runWarm (s : State) (os : List StartFail) : State := if outcomesOk s.warmLeft os then s.warmStart s.warmLeft os else s

/-- A cold start. -/
def State.runCold (s : State) (os : List StartFail) : State := if outcomesOk 0 os then s.coldStart (os.headD .ok) else s

/-- STCMD is accepted (R487). -/
def State.stcmdOk (s : State) (guard : Nat) : Bool :=
  decide (guard = 0x5354) && decide (s.start.state ≠ 1) && !s.start.tripped && !s.fleet.deadDies.contains 0

/-- STCMD_WARM. -/
def execStcmdWarm (guard : Nat) (outcome : List StartFail) (s : State) : Out :=
  .next (if s.stcmdOk guard then s.runWarm outcome else s)

/-- STCMD_COLD. -/
def execStcmdCold (guard : Nat) (outcome : List StartFail) (s : State) : Out :=
  .next (if s.stcmdOk guard then s.runCold outcome else s)

/-- WARM_RESET (R481): not after a failed cold start, nor during a trip (R485, R492). -/
def execWarmReset (outcome : List StartFail) (s : State) : Out :=
  .next (if s.start.state ≠ 3 ∧ !s.start.tripped then s.runWarm outcome else s)

/-- POWER_APPLIED (R481): what power kept is lost; memory's bits are the model's reset contents (log 2). -/
def execPowerApplied (outcome : List StartFail) (s : State) : Out :=
  let r := State.reset
  let s : State := { r with
    start := ⟨0, 0, 0, 0, 0, 0, 1, 0, false⟩, msi := s.msi, hostOut := s.hostOut, aer := s.aer, outbox := s.outbox, sched := s.sched, free := s.free }
  .next (s.runCold outcome)

/-- TRIP_RECOVERY_START (R492). -/
def execTripRecoveryStart (outcome : List StartFail) (s : State) : Out :=
  .next (if s.start.tripped ∧ s.hottest < 85 then s.runCold outcome else s)

end Sys2Proof.Machine
end

