-- ==== Sys2Proof/Machine/E8.lean ====
section
/-! DEFINITION. The E8 lattice formats (spec/02_number_formats.md R60 to R69): the codebook and its ranking, the value of
an element, scaled operands, and the quantiser. Points are written in doubled coordinates y = 2x. -/

namespace Sys2Proof.Machine

/-! ## The codebook -/

/-- ShellBase (R61). -/
def shellBase (k : Nat) : Nat := [0, 1, 241, 2401, 9121, 26641].getD k 0

/-- The last codeword (R60). -/
def lastCode : Nat := 56880

/-- Values(c): the coordinates of parity `c`, ascending (R61). -/
def e8Values (odd : Bool) : List Int := if odd then [-5, -3, -1, 1, 3, 5] else [-6, -4, -2, 0, 2, 4, 6]

/-- Values(both) (R61). -/
def e8All : List Int := [-6, -5, -4, -3, -2, -1, 0, 1, 2, 3, 4, 5, 6]

/-- Cls (R61). -/
def e8Cls (v : Int) : Bool := decide (v % 2 = 1)

/-- The square of a coordinate. -/
def sq (v : Int) : Nat := (v * v).toNat

/-- Completions (R61): ways to fill `n` coordinates of one parity with squares summing to `q` and sum ≡ `s` mod 4. -/
def completions : Nat → Nat → Int → Bool → Nat
  | 0, q, s, _ => if q = 0 ∧ s = 0 then 1 else 0
  | n + 1, q, s, c =>
    (e8Values c).foldl (fun t v => if sq v ≤ q then t + completions n (q - sq v) ((s - v) % 4) c else t) 0

/-- The coordinates that position `j` may take after a first coordinate of parity `c` (R61). -/
def e8Choices (j : Nat) (c : Bool) : List Int := if j = 0 then e8All else e8Values c

/-- Rank from position 8 − `n` on (R61): `left` is the sum of squares still to place, `ps` the sum placed. -/
def rankFrom : Nat → List Int → Bool → Nat → Int → Nat
  | 0, _, _, _, _ => 0
  | _ + 1, [], _, _, _ => 0
  | n + 1, y :: ys, c, left, ps =>
    ((e8Choices (7 - n) c).filter (fun v => decide (v < y) && decide (sq v ≤ left))).foldl
      (fun t v => t + completions n (left - sq v) ((-(ps + v)) % 4) (e8Cls v)) 0
    + rankFrom n ys c (left - sq y) (ps + y)

/-- Rank: the codeword of a point (R61). -/
def rank (y : List Int) : Nat :=
  let q := y.foldl (fun t v => t + sq v) 0
  shellBase (q / 8) + rankFrom 8 y (e8Cls (y.getD 0 0)) q 0

/-- The inner loop of Unrank (R61): the coordinate reached and what is left of the index. -/
def unrankPick (n left : Nat) (ps : Int) : List Int → Nat → Int × Nat
  | [], r => (0, r)
  | v :: vs, r =>
    if sq v ≤ left then
      let k := completions n (left - sq v) ((-(ps + v)) % 4) (e8Cls v)
      if r < k then (v, r) else unrankPick n left ps vs (r - k)
    else unrankPick n left ps vs r

/-- Unrank from position 8 − `n` on (R61). -/
def unrankFrom : Nat → Bool → Nat → Int → Nat → List Int
  | 0, _, _, _, _ => []
  | n + 1, c, left, ps, r =>
    let p := unrankPick n left ps (e8Choices (7 - n) c) r
    p.1 :: unrankFrom n (if n = 7 then e8Cls p.1 else c) (left - sq p.1) (ps + p.1) p.2

/-- Unrank: the point of a codeword (R61). -/
def unrank (code : Nat) : List Int :=
  let k := ((List.range 6).filter (fun k => decide (shellBase k ≤ code))).length - 1
  unrankFrom 8 false (8 * k) 0 (code - shellBase k)

/-- The fillings that Completions counts, in ascending lexicographic order (R61). -/
def fillings : Nat → Nat → Int → Bool → List (List Int)
  | 0, q, s, _ => if q = 0 ∧ s = 0 then [[]] else []
  | n + 1, q, s, c =>
    (e8Values c).flatMap (fun v =>
      if sq v ≤ q then (fillings n (q - sq v) ((s - v) % 4) c).map (fun ys => v :: ys) else [])

/-- The points of a shell in codeword order (R61). -/
def shellPoints (k : Nat) : List (List Int) :=
  e8All.flatMap (fun v =>
    if sq v ≤ 8 * k then (fillings 7 (8 * k - sq v) ((-v) % 4) (e8Cls v)).map (fun ys => v :: ys) else [])

/-- Every point, in codeword order (R61). -/
def codebook : List (List Int) := (List.range 6).flatMap shellPoints

/-! ## Decoding -/

/-- A reserved codeword (R62, R63). -/
def e8Reserved (wide : Bool) (code : Nat) : Bool :=
  let bad : Nat → Bool := fun c => decide (lastCode < c) && decide (c ≠ 0xFFFF)
  if wide then decide (code / 65536 ≠ 0xFFFF) && decide (code % 65536 ≠ 0xFFFF) &&
    (bad (code / 65536) || bad (code % 65536))
  else bad code

/-- The NaN octet (R62, R63). -/
def e8Nan (wide : Bool) (code : Nat) : Bool :=
  if wide then decide (code / 65536 = 0xFFFF) || decide (code % 65536 = 0xFFFF) else decide (code = 0xFFFF)

/-- The unscaled value of element `j` of a codeword (R62, R63). -/
def e8Elem (wide : Bool) (code j : Nat) : FVal :=
  if e8Nan wide code then .nan false
  else if e8Reserved wide code then .fin false 0 0
  else
    let v : Int :=
      if wide then 4 * (unrank (code / 65536)).getD j 0 + (unrank (code % 65536)).getD j 0
      else 4 * (unrank code).getD j 0
    .fin (decide (v < 0)) v.natAbs (-3)

/-- s · e delivered as BF16 (R65), and what it raises; `res` says that the codeword is reserved (R62). -/
def scaledBf16 (fz scale : Nat) (e : FVal) (res : Bool) : FVal × BitVec 5 :=
  let o := fMul bf16 ⟨0, fz, false⟩ (bf16.read fz scale) e
  (bf16.read 0 o.bits, o.fl ||| (if res then flNV else 0))

/-! ## Quantising -/

/-- Exact coordinates are integers in units of 2^−160 (an FP32 value is a multiple of 2^−149). -/
def e8One : Int := 2 ^ 160

/-- A coordinate rounded to the nearest integer, ties to even (R66). -/
def nearEven (w : Int) : Int :=
  let n := w / e8One
  let r := w % e8One
  if e8One < 2 * r ∨ (2 * r = e8One ∧ n % 2 = 1) then n + 1 else n

/-- The index of the largest entry, the lowest on a tie. -/
def argMax (l : List Nat) : Nat :=
  l.findIdx (fun x => l.all (fun y => decide (y ≤ x)))

/-- NearestD8 (R66). -/
def nearestD8 (w : List Int) : List Int :=
  let n := w.map nearEven
  if (n.foldl (· + ·) 0) % 2 = 0 then n
  else
    let err := List.zipWith (fun x k => x - k * e8One) w n
    let k := argMax (err.map Int.natAbs)
    n.set k (if 0 ≤ err.getD k 0 then n.getD k 0 + 1 else n.getD k 0 - 1)

/-- 4 · Dist of exact coordinates and a point, in units of 2^−320 (R66). -/
def e8Dist (u y : List Int) : Nat :=
  (List.zipWith (fun a b => ((2 * a - b * e8One) * (2 * a - b * e8One)).toNat) u y).foldl (· + ·) 0

/-- The codeword of the nearest point of the codebook, the smallest on a tie (R66). -/
def nearestCode (u : List Int) : Nat :=
  (codebook.foldl (fun (b : Option Nat × Nat × Nat) y =>
    let d := e8Dist u y
    let better := match b.1 with | none => true | some m => decide (d < m)
    if better then (some d, b.2.2, b.2.2 + 1) else (b.1, b.2.1, b.2.2 + 1)) (none, 0, 0)).2.1

/-- Steps 2 and 3 of Quantise on exact coordinates (R66): the codeword, and whether the shell overflowed. -/
def quantPoint (u : List Int) : Nat × Bool :=
  let ya := (nearestD8 u).map (2 * ·)
  let yb := (nearestD8 (u.map (fun x => x - e8One / 2))).map (fun n => 2 * n + 1)
  let y := if e8Dist u ya ≤ e8Dist u yb then ya else yb
  if y.foldl (fun t v => t + sq v) 0 ≤ 40 then (rank y, false) else (nearestCode u, true)

/-- A quotient as an exact coordinate, ±∞ replaced by ±4 (R66). -/
def quotCoord (q : FVal) : Int :=
  match q with
  | .nan _ => 0
  | .inf n => if n then -4 * e8One else 4 * e8One
  | .fin n m e =>
    let x : Int := (m * 2 ^ (e + 160).toNat : Nat)
    if n then -x else x

/-- A quantised octet: the codeword, the flags of its division, and whether a shell overflowed. -/
structure Quant where
  code : Nat
  fl : BitVec 5
  lov : Bool
  deriving DecidableEq, Repr

/-- Quantise (R66) and its two-stage form (R67): `s` and the inputs after input flushing. -/
def quantise (wide : Bool) (s : FVal) (t : List FVal) : Quant :=
  let qs := t.map (fun x => fDiv fp32 ⟨0, 0, false⟩ x s)
  let fl := qs.foldl (fun a (o : FOut) => a ||| o.fl) 0
  let vs := qs.map (fun (o : FOut) => fp32.read 0 o.bits)
  if vs.any FVal.isNan then ⟨if wide then 0xFFFFFFFF else 0xFFFF, fl, false⟩
  else
    let u := vs.map quotCoord
    let p := quantPoint u
    if wide then
      let r := List.zipWith (fun a y => 4 * a - 2 * y * e8One) u (unrank p.1)
      let q := quantPoint r
      ⟨p.1 * 65536 + q.1, fl, p.2 || q.2⟩
    else ⟨p.1, fl, p.2⟩

/-- The value of an old or source EL element as FP32, rounded to nearest even without a flush (R69, R251). -/
def e8Fp32 (wide : Bool) (s : FVal) (code j : Nat) : FOut :=
  (fMul fp32 ⟨0, 0, false⟩ s (e8Elem wide code j)).raise (if e8Reserved wide code then flNV else 0)

end Sys2Proof.Machine
end

