-- ==== Sys2Proof/Machine/VFloat.lean ====
section
/-! DEFINITION. Vector floating-point arithmetic and compares (spec/07_vector_float_instructions.md R194 to R204): majors
0x20 and 0x21, with the coset-decoding port of operand b (R195; spec/02_number_formats.md R64, R65). -/

namespace Sys2Proof.Machine

/-! ## Operands -/

/-- VTYPE's rounding, flushing and saturation (R49, R51, R53). -/
def vfenv (vt : Word) : FEnv := ⟨vtRm vt, vtFz vt, vtSat vt⟩

/-- The format of FMT. -/
def vfmtOf (vt : Word) : FFmt := (fltFmt (vtFmt vt)).getD fp32

/-- The port format: SFMT where it is not 0, else FMT (R195). -/
def portFmt (vt : Word) : Nat := if vtSfmt vt = 0 then vtFmt vt else vtSfmt vt

/-- Bits per element of a format, EL16 counted as 2 and EL32 as 4 (R195). -/
def fmtBits (fmt : Nat) : Nat :=
  match fmt with
  | 2 => 64
  | 3 => 32
  | 4 | 5 => 16
  | 9 => 2
  | 8 | 10 => 4
  | _ => 8

/-- SFMT and SCL are legal on an instruction with a port (R98, R195). With k = 1 an FMT of E4M3 or E5M2 does not make SCL legal: R98
asks k = 0 for SFMT and does not repeat it for SCL, which the model takes to name the port's format (DEDUCED; log 56). -/
def portOk (vt : Word) (b : VSrc) : Bool :=
  portClear vt ||
  (match b with
   | .reg _ =>
     decide (fmtBits (portFmt vt) ≤ fmtBits (vtFmt vt)) && (!vtScl vt || decide (portFmt vt ∈ [6, 7, 9, 10]))
   | .scalar _ => false)

/-- Operand b at element `i` through the port, and the flags of RoundBF16 (R195). -/
def Thread.portVal (t : Thread) (v : VReg) (i : Nat) : FVal × BitVec 5 :=
  let vt := t.vt
  let fz := vtFz vt
  let pf := portFmt vt
  if pf = 9 ∨ pf = 10 then
    let wide := decide (pf = 10)
    let code := t.elem v.toNat (if wide then 32 else 16) (i / 8)
    scaledBf16 fz (t.scaleAt i) (e8Elem wide code (i % 8)) (e8Reserved wide code)
  else
    let f := (fltFmt pf).getD fp32
    let e := f.read fz (t.elem v.toNat f.bits i)
    if vtScl vt then scaledBf16 fz (t.scaleAt i) e false else (e, 0)

/-- The scalar operand in a format: the f register, converted for the formats narrower than FP32 (R194). -/
def Thread.fscalar (t : Thread) (fmt : Nat) (v : FEnv) (r : SReg) : FOut :=
  match fmt with
  | 2 => { bits := (t.fr r).toNat }
  | 3 => { bits := (t.fs r).toNat }
  | _ => ((fltFmt fmt).getD fp32).convert v (fp32.read v.fz (t.fs r).toNat)

/-- What the conversion of a scalar operand raises (R194). -/
def Thread.srcPre (t : Thread) (b : VSrc) : FOut :=
  match b with
  | .reg _ => { bits := 0 }
  | .scalar r => t.fscalar (vtFmt t.vt) (vfenv t.vt) r

/-- Operand b at element `i`, given the converted scalar (R194, R195). -/
def Thread.srcFlt (t : Thread) (b : VSrc) (pre : FOut) (i : Nat) : FVal × BitVec 5 :=
  match b with
  | .reg v => t.portVal v i
  | .scalar _ => ((vfmtOf t.vt).read (vtFz t.vt) pre.bits, 0)

/-- The sign of operand b for sign injection: no conversion (R194, R203). -/
def Thread.srcSign (t : Thread) (b : VSrc) (w i : Nat) : Bool :=
  match b with
  | .reg v => decide (t.elem v.toNat w i / 2 ^ (w - 1) % 2 = 1)
  | .scalar r => if vtFmt t.vt = 2 then (t.fr r).getLsbD 63 else (t.fs r).getLsbD 31

/-! ## Operations -/

/-- Bits with another sign (R203). -/
def withSign (w v : Nat) (neg : Bool) : Nat := v % 2 ^ (w - 1) + (if neg then 2 ^ (w - 1) else 0)

/-- The operation on values a, b and c (R199 to R202). -/
def fltOp (o : FltOp) (f : FFmt) (v : FEnv) (a b c : FVal) : FOut :=
  match o with
  | .add => fAdd f v a b
  | .sub => fSub f v a b
  | .mul => fMul f v a b
  | .div => fDiv f v a b
  | .sqrt => fSqrt f v a
  | .rsqe => fRsqe f a
  | .rece => fRece f a
  | .exp2 => fExp2 f v a
  | .macc => fFma f v false false a b c
  | .nmacc => fFma f v true true a b c
  | .msac => fFma f v false true a b c
  | .nmsac => fFma f v true false a b c
  | .min => fMinMax f v false a b
  | .max => fMinMax f v true a b
  | .cls | .sgnj | .sgnjn | .sgnjx => { bits := 0 }

/-- The operation takes operand b through the port (R98). -/
def fltPort : FltOp → Bool
  | .add | .sub | .mul | .macc | .nmacc | .msac | .nmsac | .min | .max => true
  | _ => false

/-- The operation has a second source. -/
def fltBinary : FltOp → Bool
  | .sqrt | .rsqe | .rece | .exp2 | .cls => false
  | _ => true

/-- The operation injects a sign. -/
def fltSgnj : FltOp → Bool
  | .sgnj | .sgnjn | .sgnjx => true
  | _ => false

/-- Sign injection and class of element bits (R203). -/
def bitsOp (o : FltOp) (f : FFmt) (fz a : Nat) (sb : Bool) : Nat :=
  let sa := decide (a / 2 ^ (f.bits - 1) % 2 = 1)
  match o with
  | .sgnj => withSign f.bits a sb
  | .sgnjn => withSign f.bits a (!sb)
  | .sgnjx => withSign f.bits a (sa != sb)
  | _ => f.classOf fz a

/-- An operation of major 0x20 as an element-wise computation (R196, R199 to R203). -/
def State.fltHalf (s : State) (o : FltOp) (vd va : VReg) (b : VSrc) (md : VMod) : Half :=
  let t := s.th
  let f := vfmtOf t.vt
  let v := vfenv t.vt
  let w := f.bits
  let pre : FOut := if fltBinary o && !fltSgnj o then t.srcPre b else { bits := 0 }
  { md := md, vd := vd.toNat, w := w, pre := pre
    f := fun i =>
      let a := t.elem va.toNat w i
      if fltSgnj o || decide (o = .cls) then
        { bits := bitsOp o f v.fz a (if fltSgnj o then t.srcSign b w i else false) }
      else
        let y : FVal × BitVec 5 := if fltBinary o then t.srcFlt b pre i else (.nan false, 0)
        (fltOp o f v (f.read v.fz a) y.1 (f.read v.fz (t.elem vd.toNat w i))).raise y.2 }

/-- FMT 2 to 5 (R98). -/
def fltFmtOk (vt : Word) : Bool := decide (2 ≤ vtFmt vt) && decide (vtFmt vt ≤ 5)

/-- `.x` names no register of the destination group (R198). -/
def xClear (md : VMod) (vd r : Nat) : Bool := (xRegs md).all (fun x => decide (x < vd) || decide (vd + r ≤ x))

/-- The VTYPE conditions of an operation of major 0x20 (R98, R195, R198). -/
def fltOk (o : FltOp) (vt : Word) (vd : VReg) (b : VSrc) (md : VMod) : Bool :=
  fltFmtOk vt && (if fltPort o then portOk vt b else portClear vt) && xClear md vd.toNat 1

/-- The registers of an operation of major 0x20. -/
def fltRegs (o : FltOp) (vd va : VReg) (b : VSrc) (md : VMod) : List Nat :=
  vd.toNat :: va.toNat :: (if fltBinary o then srcRegs b else []) ++ xRegs md

/-- An instruction of major 0x20. -/
def State.vFlt (s : State) (o : FltOp) (vd va : VReg) (b : VSrc) (md : VMod) : Out :=
  (s.guardTrap (s.vCheck md true (fltRegs o vd va b md) (fltOk o s.th.vt vd b md)) fun _ =>
    s.elementwise (s.fltHalf o vd va b md) s.th.vl (modWords md)).out

/-- `vfadd` (R199). -/
def execVfadd (vd va : VReg) (b : VSrc) (md : VMod) (s : State) : Out := s.vFlt .add vd va b md

/-- `vfsub` (R199). -/
def execVfsub (vd va : VReg) (b : VSrc) (md : VMod) (s : State) : Out := s.vFlt .sub vd va b md

/-- `vfmul` (R199). -/
def execVfmul (vd va : VReg) (b : VSrc) (md : VMod) (s : State) : Out := s.vFlt .mul vd va b md

/-- `vfdiv` (R199). -/
def execVfdiv (vd va : VReg) (b : VSrc) (md : VMod) (s : State) : Out := s.vFlt .div vd va b md

/-- `vfmacc` (R199). -/
def execVfmacc (vd va : VReg) (b : VSrc) (md : VMod) (s : State) : Out := s.vFlt .macc vd va b md

/-- `vfnmacc` (R199). -/
def execVfnmacc (vd va : VReg) (b : VSrc) (md : VMod) (s : State) : Out := s.vFlt .nmacc vd va b md

/-- `vfmsac` (R199). -/
def execVfmsac (vd va : VReg) (b : VSrc) (md : VMod) (s : State) : Out := s.vFlt .msac vd va b md

/-- `vfnmsac` (R199). -/
def execVfnmsac (vd va : VReg) (b : VSrc) (md : VMod) (s : State) : Out := s.vFlt .nmsac vd va b md

/-- `vfmin` (R199). -/
def execVfmin (vd va : VReg) (b : VSrc) (md : VMod) (s : State) : Out := s.vFlt .min vd va b md

/-- `vfmax` (R199). -/
def execVfmax (vd va : VReg) (b : VSrc) (md : VMod) (s : State) : Out := s.vFlt .max vd va b md

/-- `vfsgnj` (R203). -/
def execVfsgnj (vd va : VReg) (b : VSrc) (md : VMod) (s : State) : Out := s.vFlt .sgnj vd va b md

/-- `vfsgnj.n` (R203). -/
def execVfsgnjN (vd va : VReg) (b : VSrc) (md : VMod) (s : State) : Out := s.vFlt .sgnjn vd va b md

/-- `vfsgnj.x` (R203). -/
def execVfsgnjX (vd va : VReg) (b : VSrc) (md : VMod) (s : State) : Out := s.vFlt .sgnjx vd va b md

/-- `vfsqrt` (R199). -/
def execVfsqrt (vd va : VReg) (md : VMod) (s : State) : Out := s.vFlt .sqrt vd va (.reg va) md

/-- `vfrsqe` (R201). -/
def execVfrsqe (vd va : VReg) (md : VMod) (s : State) : Out := s.vFlt .rsqe vd va (.reg va) md

/-- `vfrece` (R200). -/
def execVfrece (vd va : VReg) (md : VMod) (s : State) : Out := s.vFlt .rece vd va (.reg va) md

/-- `vfexp2` (R202). -/
def execVfexp2 (vd va : VReg) (md : VMod) (s : State) : Out := s.vFlt .exp2 vd va (.reg va) md

/-- `vfclass` (R203). -/
def execVfclass (vd va : VReg) (md : VMod) (s : State) : Out := s.vFlt .cls vd va (.reg va) md

/-- `vfcmp` (R204): mask bits of the active elements, through the port of R195. -/
def execVfcmp (cc : FltCmp) (vd va : VReg) (b : VSrc) (md : VMod) (s : State) : Out :=
  let t := s.th
  let f := vfmtOf t.vt
  let pre := t.srcPre b
  (s.guardTrap (s.vCheck md true (vregs vd va b ++ xRegs md) (fltFmtOk t.vt && portOk t.vt b && xClear md vd.toNat 1)) fun _ =>
    s.elementwise
      { md := md, vd := vd.toNat, w := 1, pre := pre
        f := fun i =>
          let y := t.srcFlt b pre i
          let r := fCmp cc (f.read (vtFz t.vt) (t.elem va.toNat f.bits i)) y.1
          { bits := bit r.1, fl := r.2 ||| y.2 } }
      t.vl (modWords md)).out

end Sys2Proof.Machine
end

