-- ==== Sys2Proof/Machine/VWide.lean ====
section
/-! DEFINITION. Widening and narrowing integer forms (spec/06_vector_integer_instructions.md R173, R174): major 0x19. A
register pair is one portion of twice the words, laid out at twice the width; the layout of R19 makes it contiguous. -/

namespace Sys2Proof.Machine

/-- The registers of the pair that starts at `v`. -/
def pairRegs (v : VReg) : List Nat := [v.toNat, v.toNat + 1]

/-- A register number is even (R173). -/
def evenReg (v : VReg) : Bool := decide (v.toNat % 2 = 0)

/-- FMT 0 or 1 with EW 8, 16 or 32 (R98). -/
def wideFmt (vt : Word) : Bool := intFmt vt && decide (vtEwc vt ≤ 2)

/-- A widening form (R173): `sa` and `sb` say which source is signed; `f` takes the extended a and b and the old pair
element. -/
def State.vWiden (s : State) (sa sb : Bool) (f : Int → Int → Int → Int) (vd va : VReg) (b : VSrc) (md : VMod) : Out :=
  let t := s.th
  let w := t.ew
  (s.guardTrap (evenFirst (evenReg vd) (s.vCheck md true (pairRegs vd ++ va.toNat :: srcRegs b) (wideFmt t.vt))) fun _ =>
    let ext (sg : Bool) (v : Nat) : Int := if sg then toS w v else v
    s.elementwise
      { md := md, vd := vd.toNat, w := 2 * w
        f := fun i =>
          let r := f (ext sa (t.elem va.toNat w i)) (ext sb (t.srcInt w b i)) (t.elem vd.toNat (2 * w) i)
          { bits := ofS (2 * w) r } }
      t.vlc (modWords md)).out

/-- `vnsrl` and `vnsra` (R174): a is the pair element at twice the width, shifted by b mod 2EW. -/
def State.vNarrow (s : State) (arith : Bool) (vd va : VReg) (b : VSrc) (md : VMod) : Out :=
  let t := s.th
  let w := t.ew
  (s.guardTrap (evenFirst (evenReg va) (s.vCheck md true (vd.toNat :: pairRegs va ++ srcRegs b) (wideFmt t.vt))) fun _ =>
    s.elementwise
      { md := md, vd := vd.toNat, w := w
        f := fun i =>
          let a := t.elem va.toNat (2 * w) i
          let d := t.srcInt w b i % (2 * w)
          { bits := if arith then ofS w (toS (2 * w) a / (2 ^ d : Nat)) else a / 2 ^ d } }
      t.vlc (modWords md)).out

/-- `vwadd` (R173). -/
def execVwadd (vd va : VReg) (b : VSrc) (md : VMod) (s : State) : Out :=
  s.vWiden true true (fun a b _ => a + b) vd va b md

/-- `vwadd.u` (R173). -/
def execVwaddU (vd va : VReg) (b : VSrc) (md : VMod) (s : State) : Out :=
  s.vWiden false false (fun a b _ => a + b) vd va b md

/-- `vwsub` (R173). -/
def execVwsub (vd va : VReg) (b : VSrc) (md : VMod) (s : State) : Out :=
  s.vWiden true true (fun a b _ => a - b) vd va b md

/-- `vwsub.u` (R173). -/
def execVwsubU (vd va : VReg) (b : VSrc) (md : VMod) (s : State) : Out :=
  s.vWiden false false (fun a b _ => a - b) vd va b md

/-- `vwmul` (R173). -/
def execVwmul (vd va : VReg) (b : VSrc) (md : VMod) (s : State) : Out :=
  s.vWiden true true (fun a b _ => a * b) vd va b md

/-- `vwmul.u` (R173). -/
def execVwmulU (vd va : VReg) (b : VSrc) (md : VMod) (s : State) : Out :=
  s.vWiden false false (fun a b _ => a * b) vd va b md

/-- `vwmul.su` (R173). -/
def execVwmulSu (vd va : VReg) (b : VSrc) (md : VMod) (s : State) : Out :=
  s.vWiden true false (fun a b _ => a * b) vd va b md

/-- `vwmacc` (R173). -/
def execVwmacc (vd va : VReg) (b : VSrc) (md : VMod) (s : State) : Out :=
  s.vWiden true true (fun a b c => c + a * b) vd va b md

/-- `vwmacc.u` (R173). -/
def execVwmaccU (vd va : VReg) (b : VSrc) (md : VMod) (s : State) : Out :=
  s.vWiden false false (fun a b c => c + a * b) vd va b md

/-- `vwmacc.su` (R173). -/
def execVwmaccSu (vd va : VReg) (b : VSrc) (md : VMod) (s : State) : Out :=
  s.vWiden true false (fun a b c => c + a * b) vd va b md

/-- `vnsrl` (R174). -/
def execVnsrl (vd va : VReg) (b : VSrc) (md : VMod) (s : State) : Out := s.vNarrow false vd va b md

/-- `vnsra` (R174). -/
def execVnsra (vd va : VReg) (b : VSrc) (md : VMod) (s : State) : Out := s.vNarrow true vd va b md

end Sys2Proof.Machine
end

