-- ==== Sys2Proof/Machine/VFCvt.lean ====
section
/-! DEFINITION. Format conversions and widening floating point (spec/03_encoding.md R97, R98;
spec/07_vector_float_instructions.md R205 to R207; spec/02_number_formats.md R53, R54): major 0x22. -/

namespace Sys2Proof.Machine

/-- The FMT code of a source format (R97). -/
def srcCode : SrcFmt → Nat
  | .int8 | .int16 | .int32 | .int64 => 0
  | .uint8 | .uint16 | .uint32 | .uint64 => 1
  | .fp64 => 2
  | .fp32 => 3
  | .bf16 => 4
  | .fp16 => 5
  | .e4m3 => 6
  | .e5m2 => 7
  | .int4 => 8
  | .el16 => 9
  | .el32 => 10

/-- Bits of an element of a source format, INT4 counted as 4 (R205). -/
def srcBits : SrcFmt → Nat
  | .int8 | .uint8 | .e4m3 | .e5m2 => 8
  | .int16 | .uint16 | .bf16 | .fp16 | .el16 => 16
  | .int32 | .uint32 | .fp32 | .el32 => 32
  | .int64 | .uint64 | .fp64 => 64
  | .int4 => 4

/-- Bits of an element of the VTYPE format, INT4 counted as 4 (R205). -/
def Thread.wd (t : Thread) : Nat := if vtFmt t.vt = 8 then 4 else t.ew

/-- One element converted from a source format of `ws` bits to FMT `fmt` of `wd` bits (R206). -/
def cvtElem (v : FEnv) (sf ws fmt wd a : Nat) : FOut :=
  match fltFmt sf, fltFmt fmt with
  | some f, some g => g.convert v (f.read v.fz a)
  | some f, none => toInt wd (decide (fmt ≠ 1)) v.rm (f.read v.fz a)
  | none, some g => g.ofInt v (if sf = 1 then a else toS ws a)
  | none, none => { bits := a }

/-- The format pair is one that `vfcvt` or `vfncvt` converts (R98). -/
def cvtOk (sf fmt : Nat) : Bool :=
  decide (sf ≠ 9) && decide (sf ≠ 10) && decide (fmt ≠ 9) && decide (fmt ≠ 10) &&
  ((fltFmt sf).isSome || (fltFmt fmt).isSome)

/-- The registers of the group of `r` that starts at `v`. -/
def groupRegs (v : VReg) (r : Nat) : List Nat := (List.range r).map (fun k => v.toNat + k)

/-- A conversion (R205, R206): `narrow` for `vfncvt`. Outside R98's pairs, where r is not defined, EL16 and EL32 count as 16 and 32
bits, so that a misaligned `va` is found (0x01) before the pair (0x05) (DESIGN CHOICE; log 56). -/
def State.vCvt (s : State) (narrow : Bool) (vd va : VReg) (src : SrcFmt) (md : VMod) : Out :=
  let t := s.th
  let ws := srcBits src
  let wd := t.wd
  let r := if narrow && decide (wd < ws) then ws / wd else 1
  let ok := cvtOk (srcCode src) (vtFmt t.vt) && portClear t.vt && xClear md vd.toNat 1 &&
    (if narrow then decide (wd < ws) else decide (ws ≤ wd))
  (s.guardTrap (s.vCheck md (decide (va.toNat % r = 0)) (vd.toNat :: groupRegs va r ++ xRegs md) ok) fun _ =>
    s.elementwise
      { md := md, vd := vd.toNat, w := wd
        f := fun i => cvtElem (vfenv t.vt) (srcCode src) ws (vtFmt t.vt) wd (t.getAt va.toNat ws i) }
      t.vl (modWords md)).out

/-- `vfcvt` (R205, R206). -/
def execVfcvt (vd va : VReg) (src : SrcFmt) (md : VMod) (s : State) : Out := s.vCvt false vd va src md

/-- `vfncvt` (R205, R206). -/
def execVfncvt (vd va : VReg) (src : SrcFmt) (md : VMod) (s : State) : Out := s.vCvt true vd va src md

/-- The destination format of a widening form (R207). -/
def widenFmt (fmt : Nat) : FFmt := if fmt = 3 then fp64 else fp32

/-- The registers of its destination group (R207). An FMT outside R207's table has no such group; the model takes 2, so that an odd
`vd` is found (0x01) before the FMT (0x05) (DESIGN CHOICE; log 56). -/
def widenRegs (fmt : Nat) : Nat := if fmt = 6 ∨ fmt = 7 then 4 else 2

/-- A widening form (R207): computed exactly, rounded once to the destination format. -/
def State.vfWiden (s : State) (o : FltOp) (vd va : VReg) (b : VSrc) (md : VMod) : Out :=
  let t := s.th
  let f := vfmtOf t.vt
  let g := widenFmt (vtFmt t.vt)
  let r := widenRegs (vtFmt t.vt)
  let v := vfenv t.vt
  let pre := t.srcPre b
  let ok := decide (3 ≤ vtFmt t.vt) && decide (vtFmt t.vt ≤ 7) && portOk t.vt b && xClear md vd.toNat r
  let regs := groupRegs vd r ++ va.toNat :: srcRegs b ++ xRegs md
  (s.guardTrap (s.vCheck md (decide (vd.toNat % r = 0)) regs ok) fun _ =>
    s.elementwise
      { md := md, vd := vd.toNat, w := g.bits, pre := pre
        f := fun i =>
          let y := t.srcFlt b pre i
          (fltOp o g v (f.read v.fz (t.elem va.toNat f.bits i)) y.1
            (g.read v.fz (t.elem vd.toNat g.bits i))).raise y.2 }
      t.vl (modWords md)).out

/-- `vfwadd` (R207). -/
def execVfwadd (vd va : VReg) (b : VSrc) (md : VMod) (s : State) : Out := s.vfWiden .add vd va b md

/-- `vfwmul` (R207). -/
def execVfwmul (vd va : VReg) (b : VSrc) (md : VMod) (s : State) : Out := s.vfWiden .mul vd va b md

/-- `vfwmacc` (R207). -/
def execVfwmacc (vd va : VReg) (b : VSrc) (md : VMod) (s : State) : Out := s.vfWiden .macc vd va b md

end Sys2Proof.Machine
end

