-- ==== Sys2Proof/Machine/Matrix.lean ====
section
/-! DEFINITION. The tile registers and the row instructions (spec/09_matrix_lattice_format_instructions.md R237 to R248;
spec/02_number_formats.md R65, R76; spec/03_encoding.md R103): majors 0x2E and 0x2F. -/

namespace Sys2Proof.Machine

/-! ## Tiles -/

/-- The shape of a tile format: rows, columns, bits per element (R237). -/
structure TileShape where
  k : Nat
  n : Nat
  bits : Nat
  deriving DecidableEq, Repr

/-- R237, by tag; `none` for a tag that no format has. -/
def tileShape : Nat → Option TileShape
  | 0 => some ⟨256, 256, 8⟩
  | 2 => some ⟨64, 128, 64⟩
  | 3 => some ⟨128, 128, 32⟩
  | 4 => some ⟨256, 128, 16⟩
  | 5 => some ⟨256, 128, 16⟩
  | 6 => some ⟨256, 256, 8⟩
  | 7 => some ⟨256, 256, 8⟩
  | 8 => some ⟨512, 256, 4⟩
  | 9 => some ⟨256, 256, 2⟩
  | 10 => some ⟨256, 256, 4⟩
  | _ => none

/-- The tag of an assembly format (R237). -/
def tileTag : TileFmt → Nat
  | .int8 => 0
  | .fp64 => 2
  | .fp32 => 3
  | .bf16 => 4
  | .fp16 => 5
  | .e4m3 => 6
  | .e5m2 => 7
  | .int4 => 8
  | .el16 => 9
  | .el32 => 10

/-- The bytes of one row (R237). -/
def TileShape.rowBytes (h : TileShape) : Nat := h.n * h.bits / 8

/-- The VTYPE formats legal for a tag (R237). -/
def tagFmtOk (tag fmt ewc : Nat) : Bool :=
  match tag with
  | 0 => decide (fmt ≤ 1) && decide (ewc = 0)
  | 2 => decide (fmt = 2)
  | 3 => decide (fmt = 3)
  | 4 | 5 => decide (fmt = 4 ∨ fmt = 5)
  | 6 | 7 => decide (fmt = 6 ∨ fmt = 7)
  | 8 => decide (fmt = 8)
  | 9 | 10 => decide (4 ≤ fmt ∧ fmt ≤ 7)
  | _ => false

/-- The accumulator format of a tag (R237). -/
def tagAcc (tag : Nat) : FFmt := if tag = 2 then fp64 else fp32

/-- A tile register of the thread. -/
def Thread.tile (t : Thread) (tb : Bool) : Tile := if tb then t.tb1 else t.tb0

/-- The thread with a tile register replaced. -/
def Thread.setTile (t : Thread) (tb : Bool) (x : Tile) : Thread := if tb then { t with tb1 := x } else { t with tb0 := x }

/-- One piece of row `row`, checked under R144 orders 1 to 4, orders 3 and 4 of another device's piece being made there; what has been sent
to a device was checked then (R239; log 18). -/
def State.tilePiece (s : State) (row : Nat) (va : Word) : Except Trap TilePiece :=
  match s.remoteOf va with
  | some dev =>
    match (if s.myRemotes.any (fun o => decide (o.dev = dev)) then none else s.remoteCheck dev va 64 row) with
    | some x => .error (x.by .load)
    | none => .ok ⟨0, va, row, false, some dev, []⟩
  | none =>
    match s.access s.vctx .load false va 64 row with
    | .error x => .error x
    | .ok l => .ok ⟨l.pa, va, row, l.psn, none, []⟩

/-- The pieces at some rows and addresses up to the first that fails, and its trap (R239). -/
def State.tilePieces (s : State) : List (Nat × Word) → List TilePiece × Option Trap
  | [] => ([], none)
  | a :: as =>
    match s.tilePiece a.1 a.2 with
    | .error x => ([], some x)
    | .ok p =>
      let r := s.tilePieces as
      (p :: r.1, r.2)

/-- The rows and addresses of the 64-byte pieces of a tile, in the order of its bytes (R239). -/
def TileShape.pieces (h : TileShape) (a stride : Word) : List (Nat × Word) :=
  (List.range h.k).flatMap (fun k => (List.range (h.rowBytes / 64)).map (fun m =>
    (k, a + BitVec.ofNat 64 k * stride + BitVec.ofNat 64 (64 * m))))

/-- The records of pieces on another device: eight of 8 bytes each (R472). -/
def pieceRecs (ps : List TilePiece) : List UnitRec :=
  ps.flatMap (fun p => (List.range 8).map (fun i => ⟨p.va.toNat % 2 ^ 57 + 8 * i, 3, 0⟩))

/-- The pieces on device `dev`. -/
def piecesOn (dev : Nat) (ps : List TilePiece) : List TilePiece := ps.filter (fun p => decide (p.dev = some dev))

/-- The bytes of the `i`-th piece that an access asked for. -/
def RemoteOp.piece (o : RemoteOp) (i : Nat) : List Byte :=
  ((o.recs.drop (8 * i)).take 8).flatMap (fun u => natLe 8 u.data.toNat)

/-- The pieces with what the access to their device has answered; a failure with sub-cause 0x04 is poison (R234, R239). -/
def RemoteOp.fill (o : RemoteOp) (ps : List TilePiece) : List TilePiece :=
  let mine := piecesOn o.dev ps
  ps.map (fun p => if p.dev = some o.dev then
    { p with
      got := o.piece (mine.idxOf p)
      psn := (o.fail.map (fun e => decide (e.1 / 8 = mine.idxOf p ∧ e.2 = 0x04))).getD false } else p)

/-- The first failure that is no poison among the accesses of a `tld`, by piece (R234; log 18). -/
def State.tileFailure (s : State) (ps : List TilePiece) : Option Trap :=
  let bad := s.myRemotes.filterMap (fun (o : RemoteOp) => match o.fail with
    | some (p, sub) => if sub = 0x04 then none else ((piecesOn o.dev ps)[p / 8]?).map (fun q =>
        (ps.idxOf q, ({ cause := 0x12, sub := BitVec.ofNat 8 sub, eval := q.va + BitVec.ofNat 64 (8 * (p % 8)), elem := q.row, kind := 0 } : Trap)))
    | none => none)
  (bad.foldl (fun b e => match b with | none => some e | some x => if e.1 < x.1 then some e else some x) none).map Prod.snd

/-- The requests of a `tld` for pieces on other devices leave, one access for each device. -/
def State.sendPieces (s : State) (ps : List TilePiece) (devs : List Nat) : State :=
  devs.foldl (fun s dev => s.sendRemote dev s.th.owner 0x01 (pieceRecs (piecesOn dev ps))) s

/-- `tld` (R239, R240, R242): the checks, with the pieces of other devices fetched; the transfer goes on without the seat. -/
def execTld (tb : Bool) (a b : SReg) (fmt : TileFmt) (s : State) : Out :=
  (s.guardTrap (s.qCheck true [] true) fun _ =>
    if (s.th.tile tb).pending.isSome then .ok (s.waitOn (.tile tb false))
    else
      let h := (tileShape (tileTag fmt)).getD ⟨0, 0, 0⟩
      let ps := h.pieces (s.x a) (if b = 0 then BitVec.ofNat 64 h.rowBytes else s.x b)
      let s := s.drain.reach s.vctx 64 (ps.map Prod.snd)
      let r := s.tilePieces ps
      let devs := (r.1.filterMap (fun p => p.dev)).eraseDups
      if !devs.isEmpty && s.myRemotes.isEmpty then .ok ((s.sendPieces r.1 devs).waitOn (.remote s.nextTag false))
      else
        match (s.tileFailure r.1).orElse (fun _ => r.2) with
        | some x => .trap (s.dropRemotes.setCsr .vstart 0) x
        | none =>
          let x := s.th.tile tb
          let x := { x with
            tag := BitVec.ofNat 4 (tileTag fmt), poison := false, owner := some (BitVec.ofNat 10 s.th.owner)
            pending := some (s.myRemotes.foldl (fun ps o => o.fill ps) r.1) }
          .ok (s.dropRemotes.finish (s.th.setTile tb x).pushVq 1)).out

/-- *Poison consumed* by a reader of a tile (R241, R243). -/
def Tile.poisonTrap (x : Tile) : Trap := { cause := 0x0D, eval := x.paddr, elem := x.prow.toNat, kind := 0 }

/-- `twait` (R241). -/
def execTwait (tb : Bool) (s : State) : Out :=
  (s.guardTrap (s.qCheck true [] true) fun _ =>
    let x := s.th.tile tb
    if x.pending.isSome then .ok (s.waitOn (.tile tb true))
    else if x.poison then .trap s x.poisonTrap
    else .ok (s.finish s.th.pushVq 1)).out

/-- `tzero` (R242; the owner tag is the writer's, spec/13_memory_hierarchy.md R340). -/
def execTzero (tb : Bool) (s : State) : Out :=
  (s.guardTrap (s.qCheck true [] true) fun _ =>
    if (s.th.tile tb).pending.isSome then .ok (s.waitOn (.tile tb false))
    else
      let x := s.th.tile tb
      let x := { x with data := 0, tag := 0, pending := none, poison := false, owner := some (BitVec.ofNat 10 s.th.owner) }
      .ok (s.finish (s.th.setTile tb x).pushVq 1)).out

/-- The thread waits for a tile register. -/
def Thread.awaitsTile (t : Thread) (tb : Bool) : Bool := match t.run with | .waiting (.tile b _) => b == tb | _ => false

/-- TILE_LOAD_COMPLETE (R239): the transfer ends, and a thread that waits for the tile goes on. -/
def execTileLoadComplete (seat : Nat) (tb : Bool) (s : State) : Out :=
  let s := if ((s.seat seat).tile tb).pending.isSome then s.readTiles seat else s
  let t := s.seat seat
  if (t.tile tb).pending.isNone then .next s
  else
    let t := t.setTile tb { t.tile tb with pending := none }
    .next (s.setSeat seat (if t.awaitsTile tb then { t with run := .running } else t))

/-! ## Operands -/

/-- Element `i` of a tile's data before scaling, and whether its codeword is reserved (R237, R238). -/
def tileElem (tag fz : Nat) (data : BitVec 524288) (i : Nat) : FVal × Bool :=
  match tag with
  | 0 => (FVal.ofInt (toS 8 (data.extractLsb' (8 * i) 8).toNat), false)
  | 8 => (FVal.ofInt (toS 4 (data.extractLsb' (4 * i) 4).toNat), false)
  | 9 =>
    let c := (data.extractLsb' (16 * (i / 8)) 16).toNat
    (e8Elem false c (i % 8), e8Reserved false c)
  | 10 =>
    let c := (data.extractLsb' (32 * (i / 8)) 32).toNat
    (e8Elem true c (i % 8), e8Reserved true c)
  | g =>
    let f := (fltFmt g).getD fp32
    (f.read fz (data.extractLsb' (f.bits * i) f.bits).toNat, false)

/-- The value of T[k][n] as an operand, and what reading it raises (R238). -/
def Thread.tileVal (t : Thread) (tag : Nat) (n : Nat) (data : BitVec 524288) (row col : Nat) : FVal × BitVec 5 :=
  let e := tileElem tag (vtFz t.vt) data (row * n + col)
  if 9 ≤ tag ∨ vtScl t.vt then scaledBf16 (vtFz t.vt) (t.elem 1 16 (row / 32 * n + col)) e.1 e.2 else (e.1, 0)

/-- Element `k` of the vector operand (R245). -/
def Thread.rowVal (t : Thread) (vs : VReg) (k : Nat) : FVal :=
  match vtFmt t.vt with
  | 0 => FVal.ofInt (toS 8 (t.elem vs.toNat 8 k))
  | 1 => FVal.ofInt (t.elem vs.toNat 8 k : Nat)
  | 8 => FVal.ofInt (toS 4 (t.nibble vs.toNat k))
  | g =>
    let f := (fltFmt g).getD fp32
    f.read (vtFz t.vt) (t.elem vs.toNat f.bits k)

/-! ## Sums -/

/-- A finite value as an integer in units of 2^e. -/
def FVal.units (e : Int) : FVal → Int
  | .fin n m x => let v : Int := (m * 2 ^ (x - e).toNat : Nat); if n then -v else v
  | _ => 0

/-- Its exponent. -/
def FVal.exp : FVal → Int
  | .fin _ _ e => e
  | _ => 0

/-- The exact sum of a chunk's products, and what it raises (R76). A chunk with fewer than 32 terms holds +0 terms; the products
of an integer tile (`int`) are exact integers, whose zero is +0. -/
def chunkSum (int : Bool) (ts : List (FVal × FVal)) : FVal × BitVec 5 :=
  let ps := ts.filterMap (fun t => exactMul t.1 t.2)
  let bad := ts.any (fun t => mulInvalid t.1 t.2) || (ps.any (· == .inf false) && ps.any (· == .inf true))
  let nv := bad || ts.any (fun t => t.1.isSig || t.2.isSig)
  if bad || ts.any (fun t => t.1.isNan || t.2.isNan) then (.nan false, if nv then flNV else 0)
  else if ps.any (· == .inf false) then (.inf false, 0)
  else if ps.any (· == .inf true) then (.inf true, 0)
  else
    let e : Int := ps.foldl (fun (a : Int) (p : FVal) => min a p.exp) 0
    let v : Int := ps.foldl (fun (a : Int) (p : FVal) => a + p.units e) 0
    if v = 0 then (.fin (!int && decide (ps.length = 32) && ps.all (fun p => p.isZero && p.neg)) 0 e, 0)
    else (.fin (decide (v < 0)) v.natAbs e, 0)

/-- The accumulator after the chunks, and what they raise (R76, R247). The accumulator itself is no input that FZ flushes: the old
vd element enters as it is (log 46). -/
def chunkFold (f : FFmt) (fz : Nat) (int : Bool) (acc : FOut) (cs : List (List (FVal × FVal))) : FOut :=
  cs.foldl (fun a ts =>
    let c := chunkSum int ts
    (fAdd f ⟨0, fz, false⟩ (f.read 0 a.bits) c.1).raise (a.fl ||| c.2)) acc

/-! ## Row instructions -/

/-- A row instruction on a tile: `outs` outputs, the summation limit, and for output `o` and index `j` below VL the place
of its tile element, if it has one (R244). -/
structure RowOp where
  outs : Nat
  limit : Nat
  place : Nat → Nat → Option (Nat × Nat)

/-- One output of a row instruction (R76, R244). -/
def Thread.rowOut (t : Thread) (r : RowOp) (tag n : Nat) (data : BitVec 524288) (vd vs : VReg) (o : Nat) : FOut :=
  let f := tagAcc tag
  let terms (c : Nat) : List (FVal × (FVal × BitVec 5)) :=
    ((List.range 32).filter (fun j => decide (32 * c + j < t.vl))).filterMap (fun j =>
      (r.place o (32 * c + j)).map (fun p => (t.rowVal vs (32 * c + j), t.tileVal tag n data p.1 p.2)))
  let cs := (List.range (r.limit / 32)).map terms
  let fl : BitVec 5 := cs.foldl (fun a ts => ts.foldl (fun a x => a ||| x.2.2) a) 0
  (chunkFold f (vtFz t.vt) (decide (tag = 0) || (decide (tag = 8) && !vtScl t.vt)) { bits := t.elem vd.toNat f.bits o } (cs.map (fun ts => ts.map (fun x => (x.1, x.2.1))))).raise fl

/-- Registers of the destination group (R245); without lanes the group is one register. -/
def Thread.accRegs (t : Thread) (outs bits : Nat) : Nat :=
  (((List.range 16).map (fun k => 2 ^ k)).find? (fun r => decide (outs * bits ≤ r * t.portion * t.lanes * 32))).getD 1

/-- A row instruction (R243 to R247): `scales` is the number of scales it needs, `ok` what else R246 asks. An illegal VTYPE (0x07) is
found before a misaligned group of `vd` (0x01), whose size hangs on the tag and the grant: R113 does not order the two
(DESIGN CHOICE; log 56). Under VL = 0 the instruction writes nothing and raises no flag (R244), and it still waits for a pending tile
and takes 0x0D on a poisoned one (R243): whether it reads the tile then the spec does not say (DESIGN CHOICE; log 57). -/
def State.rowInstr (s : State) (vd vs : VReg) (extra : List VReg) (tb : Bool) (r : RowOp) (n scales : Nat) (ok : Bool) :
    Out :=
  let t := s.th
  let x := t.tile tb
  let tag := x.tag.toNat
  let acc := tagAcc tag
  let g := t.accRegs r.outs acc.bits
  let scaled := decide (9 ≤ tag) || vtScl t.vt
  let ok := ok && decide (t.vstart = 0) && tagFmtOk tag (vtFmt t.vt) (vtEwc t.vt) && decide (t.vl ≤ r.limit) &&
    decide (vtSfmt t.vt = 0) && (!vtScl t.vt || decide (6 ≤ tag)) &&
    (!scaled || decide (scales ≤ t.portion * t.lanes * 2))
  let regs := vs.toNat :: extra.map (fun v => v.toNat) ++ groupRegs vd g
  (s.guardTrap (s.qCheck (decide (vd.toNat % g = 0)) regs ok) fun _ =>
    if x.pending.isSome then .ok (s.waitOn (.tile tb false))
    else if x.poison then .trap s x.poisonTrap
    else if t.vl = 0 then Res.ok (s.finish t.pushVq 1)
    else
      let data := if x.owner = some (BitVec.ofNat 10 t.owner) then x.data else 0
      let rs := (List.range r.outs).map (fun o => t.rowOut r tag n data vd vs o)
      let fl := rs.foldl (fun a o => a ||| o.fl) 0
      s.wholeFlags ⟨false, none⟩ fl (t.setElems vd.toNat acc.bits (rs.zipIdx.map (fun e => (e.2, e.1.bits))))).out

/-- The shape of the tile's format; the INT8 shape for a tag without one, which R246 refuses. -/
def Thread.tileDims (t : Thread) (tb : Bool) : TileShape := (tileShape (t.tile tb).tag.toNat).getD ⟨256, 256, 8⟩

/-- `mxr` (R244). -/
def execMxr (vd vs : VReg) (tb : Bool) (s : State) : Out :=
  let h := s.th.tileDims tb
  s.rowInstr vd vs [] tb ⟨h.n, h.k, fun o j => some (j, o)⟩ h.n ((s.th.vl + 31) / 32 * h.n) true

/-- `mxri` (R244, R246). -/
def execMxri (vd vs vi : VReg) (tb : Bool) (s : State) : Out :=
  let h := s.th.tileDims tb
  let tag := (s.th.tile tb).tag.toNat
  let row (j : Nat) : Nat := s.th.elem vi.toNat s.th.ew j
  s.rowInstr vd vs [vi] tb ⟨h.n, h.k, fun o j => if row j < h.k then some (row j, o) else none⟩ h.n (h.k / 32 * h.n)
    (decide (tag ≠ 2) && decide (tag ≠ 3) && decide (tag ≠ 8))

/-- `mxrt` (R244). -/
def execMxrt (vd vs : VReg) (tb : Bool) (s : State) : Out :=
  let h := s.th.tileDims tb
  s.rowInstr vd vs [] tb ⟨h.k, h.n, fun o j => some (o, j)⟩ h.n (h.k / 32 * h.n) true

end Sys2Proof.Machine
end

