-- ==== Sys2Proof/Machine/ScalarFloat.lean ====
section
/-! DEFINITION. Scalar floating point (spec/05_scalar_instructions.md R152 to R157): majors 0x10 to 0x13. It rounds under
FRM, never flushes, and ORs its flags into FFLAGS. -/

namespace Sys2Proof.Machine

/-- FRM, never a flush (R49, R51). -/
def State.fenv (s : State) : FEnv := ⟨(s.th.get .frm).toNat, 0, false⟩

/-- The format of `.s` or `.d`. -/
def sfmt (dbl : Bool) : FFmt := if dbl then fp64 else fp32

/-- The bits of an f register as `.s` or `.d` (R16). -/
def State.fraw (s : State) (dbl : Bool) (r : SReg) : Nat := if dbl then (s.th.fr r).toNat else (s.th.fs r).toNat

/-- Its value. -/
def State.fval (s : State) (dbl : Bool) (r : SReg) : FVal := (sfmt dbl).read 0 (s.fraw dbl r)

/-- A result as the 64 bits of an f register, a `.s` value boxed (R16). -/
def boxed (dbl : Bool) (v : Nat) : Word := if dbl then BitVec.ofNat 64 v else boxS (BitVec.ofNat 32 v)

/-- A result into fd (R152, R157). -/
def State.toF (s : State) (d : SReg) (dbl : Bool) (o : FOut) : Out :=
  (s.scalarFlags o.fl (fun s => s.finish (s.th.setFr d (boxed dbl o.bits)) 1)).out

/-- A result into sd (R153, R155, R157). -/
def State.toX (s : State) (d : SReg) (v : Word) (fl : BitVec 5) : Out :=
  (s.scalarFlags fl (fun s => s.finish (s.th.setX d v) 1)).out

/-- `fadd` (R152). -/
def execFadd (d a b : SReg) (dbl : Bool) (s : State) : Out :=
  s.toF d dbl (fAdd (sfmt dbl) s.fenv (s.fval dbl a) (s.fval dbl b))

/-- `fsub` (R152). -/
def execFsub (d a b : SReg) (dbl : Bool) (s : State) : Out :=
  s.toF d dbl (fSub (sfmt dbl) s.fenv (s.fval dbl a) (s.fval dbl b))

/-- `fmul` (R152). -/
def execFmul (d a b : SReg) (dbl : Bool) (s : State) : Out :=
  s.toF d dbl (fMul (sfmt dbl) s.fenv (s.fval dbl a) (s.fval dbl b))

/-- `fdiv` (R152). -/
def execFdiv (d a b : SReg) (dbl : Bool) (s : State) : Out :=
  s.toF d dbl (fDiv (sfmt dbl) s.fenv (s.fval dbl a) (s.fval dbl b))

/-- `fsqrt` (R152). -/
def execFsqrt (d a : SReg) (dbl : Bool) (s : State) : Out :=
  s.toF d dbl (fSqrt (sfmt dbl) s.fenv (s.fval dbl a))

/-- `fmin` (R52, R152). -/
def execFmin (d a b : SReg) (dbl : Bool) (s : State) : Out :=
  s.toF d dbl (fMinMax (sfmt dbl) s.fenv false (s.fval dbl a) (s.fval dbl b))

/-- `fmax` (R52, R152). -/
def execFmax (d a b : SReg) (dbl : Bool) (s : State) : Out :=
  s.toF d dbl (fMinMax (sfmt dbl) s.fenv true (s.fval dbl a) (s.fval dbl b))

/-- `fcmp.eq` (R153). -/
def execFcmpEq (d a b : SReg) (dbl : Bool) (s : State) : Out :=
  let r := fCmp .eq (s.fval dbl a) (s.fval dbl b)
  s.toX d (flagWord r.1) r.2

/-- `fcmp.lt` (R153). -/
def execFcmpLt (d a b : SReg) (dbl : Bool) (s : State) : Out :=
  let r := fCmp .lt (s.fval dbl a) (s.fval dbl b)
  s.toX d (flagWord r.1) r.2

/-- `fcmp.le` (R153). -/
def execFcmpLe (d a b : SReg) (dbl : Bool) (s : State) : Out :=
  let r := fCmp .le (s.fval dbl a) (s.fval dbl b)
  s.toX d (flagWord r.1) r.2

/-- `fcmp.uo` (R153). -/
def execFcmpUo (d a b : SReg) (dbl : Bool) (s : State) : Out :=
  let r := fCmp .uo (s.fval dbl a) (s.fval dbl b)
  s.toX d (flagWord r.1) r.2

/-- `fclass` (R154). -/
def execFclass (d a : SReg) (dbl : Bool) (s : State) : Out :=
  s.put d (BitVec.ofNat 64 ((sfmt dbl).classOf 0 (s.fraw dbl a))) 1

/-- `fmadd` (R77, R152). -/
def execFmadd (d a b c : SReg) (dbl : Bool) (s : State) : Out :=
  s.toF d dbl (fFma (sfmt dbl) s.fenv false false (s.fval dbl a) (s.fval dbl b) (s.fval dbl c))

/-- `fmsub` (R77, R152). -/
def execFmsub (d a b c : SReg) (dbl : Bool) (s : State) : Out :=
  s.toF d dbl (fFma (sfmt dbl) s.fenv false true (s.fval dbl a) (s.fval dbl b) (s.fval dbl c))

/-- `fnmadd` (R77, R152). -/
def execFnmadd (d a b c : SReg) (dbl : Bool) (s : State) : Out :=
  s.toF d dbl (fFma (sfmt dbl) s.fenv true true (s.fval dbl a) (s.fval dbl b) (s.fval dbl c))

/-- The integer a source type reads (R155). -/
def State.cvtInt (s : State) (a : SReg) : FcvtTy → Int
  | .l => (s.x a).toInt
  | .lu => (s.x a).toNat
  | .w => ((s.x a).extractLsb' 0 32).toInt
  | _ => ((s.x a).extractLsb' 0 32).toNat

/-- An integer result as a register value: 64 bits, or 32 bits sign- or zero-extended (R155). -/
def cvtWord (ty : FcvtTy) (v : Nat) : Word :=
  match ty with
  | .w => (BitVec.ofNat 32 v).signExtend 64
  | _ => BitVec.ofNat 64 v

/-- Is the type floating point? -/
def fltTy : FcvtTy → Bool | .s | .d => true | _ => false

/-- `fcvt` (R54, R155). -/
def execFcvt (d a : SReg) (conv : FcvtPair) (s : State) : Out :=
  let dblT := decide (conv.dst = FcvtTy.d)
  let dblF := decide (conv.src = FcvtTy.d)
  if fltTy conv.dst then
    if fltTy conv.src then s.toF d dblT ((sfmt dblT).convert s.fenv (s.fval dblF a))
    else s.toF d dblT ((sfmt dblT).ofInt s.fenv (s.cvtInt a conv.src))
  else
    let n := if conv.dst = FcvtTy.l ∨ conv.dst = FcvtTy.lu then 64 else 32
    let signed := decide (conv.dst = FcvtTy.l ∨ conv.dst = FcvtTy.w)
    let o := toInt n signed s.fenv.rm (s.fval dblF a)
    s.toX d (cvtWord conv.dst o.bits) o.fl

/-- `fmv.s` (R156). -/
def execFmvS (d a : SReg) (s : State) : Out := .next (s.finish (s.th.setFr d (boxS (s.th.fs a))) 1)

/-- `fmv.d` (R156). -/
def execFmvD (d a : SReg) (s : State) : Out := .next (s.finish (s.th.setFr d (s.th.fr a)) 1)

/-- `fmv.x` (R156). -/
def execFmvX (d a : SReg) (s : State) : Out := s.put d (s.th.fr a) 1

/-- `fmv.f` (R156). -/
def execFmvF (d a : SReg) (s : State) : Out := .next (s.finish (s.th.setFr d (s.x a)) 1)

end Sys2Proof.Machine
end

