-- ==== Sys2Proof/Machine/System.lean ====
section
/-! DEFINITION. System instructions and control-register access (spec/03_encoding.md R89, R90;
spec/10_fabric_region_sync_system_instructions.md R276 to R282): majors 0x14 and 0x15. -/

namespace Sys2Proof.Machine

/-- A privileged instruction runs under STATUS.PRIV = 1 and raises 0x02 otherwise (spec/01_state.md R14). -/
def State.privileged (s : State) (k : Unit → Res) : Res := if s.th.priv then k () else .trap s { cause := 0x02 }

/-- `trap` (R276): supervisor call. The handler reads the code from the word at EPC. -/
def execTrap (_code : BitVec 12) (s : State) : Out := (Res.trap s { cause := 0x10 }).out

/-- `brk` (R276): breakpoint. -/
def execBrk (_code : BitVec 12) (s : State) : Out := (Res.trap s { cause := 0x0F }).out

/-- `eret` (R43, R276). -/
def execEret (s : State) : Out :=
  if s.th.priv then .next ((s.withTh s.th.eretSuper).retired s.cur 1)
  else if s.th.uact then .next ((s.withTh s.th.eretUser).retired s.cur 1)
  else (Res.trap s { cause := 0x02 }).out

/-- The oldest copy of a seat that still runs (R271). -/
def State.runningCopy (s : State) (n : Nat) : Option Copy :=
  s.copies.find? (fun c => decide (c.seat = n) && c.status.isNone)

/-- `fence` (R278, spec/14_memory_ordering.md R349, R350). A write of the seat is performed towards its own thread once it
is in the load-store queue, and towards every wider scope at its coherence point. Loads and joins are performed at their
turn, and the reads of the seat's tile loads, which are kind r, at the fence, whatever its scope. A fence that names `a` waits for
the seat's copies. -/
def execFence (scope : FenceScope) (kinds : FenceKinds) (s : State) : Out :=
  let s := if kinds.r || kinds.w || kinds.l then s.readTiles s.cur else s
  let s := if scope = .seat ∨ !(kinds.w || kinds.l) then s else s.drain
  match s.runningCopy s.cur with
  | some c => if kinds.a then .next (s.waitOn (.copy c.handle)) else .next (s.adv 1)
  | none => .next (s.adv 1)

/-- `fencei` (R279). -/
def execFencei (s : State) : Out :=
  let s := s.drain
  .next ((s.setCore (coreOf s.cur) { s.core (coreOf s.cur) with icache := [] }).adv 1)

/-- A cached translation that a `tlbi` drops (R280). -/
def TlbEntry.dropped (e : TlbEntry) (v : TlbiKind) (va asid : Nat) : Bool :=
  let glob := e.leaf.getLsbD 6
  match v with
  | .all => true
  | .asid => !glob && decide (e.asid = asid)
  | .addr => decide (va / 2 ^ e.size = e.vpn) && (glob || decide (e.asid = asid))

/-- A `tlbi` covers the page that a copy waits for: it drops any translation of it. -/
def State.tlbiCovers (s : State) (c : Copy) (v : TlbiKind) (va asid : Nat) : Bool :=
  let x : Xlat := match s.walk c.ptbase c.faultVa with | .ok x => x | .error _ => ⟨0, 12, 0⟩
  TlbEntry.dropped ⟨0, c.asid, c.faultVa / 2 ^ x.size, x.size, x.base, BitVec.ofNat 64 x.leaf⟩ v va asid

/-- A copy that waits for a page whose entry has changed retries it after a `tlbi` that covers it
(spec/22_translation_faults_preemption.md R454). -/
def State.tlbiCopy (s : State) (v : TlbiKind) (va asid : Nat) (c : Copy) : Copy :=
  if c.fault.isSome ∧ s.tlbiCovers c v va asid ∧ s.pathFrom c.faultVa [4, 3, 2, 1, 0] c.ptbase ≠ c.faultPath then { c with retry := true } else c

/-- `tlbi` (R280; spec/16_lattice_regions.md R384: every cached descriptor goes too): it completes once every access translated with a dropped entry has been performed
(spec/22_translation_faults_preemption.md R447). -/
def execTlbi (v : TlbiKind) (a b : SReg) (s : State) : Out :=
  (s.privileged fun _ =>
    let va := (s.x a).toNat % 2 ^ 57
    let asid := (s.x b).toNat % 2 ^ 16
    let s := s.allSeats.foldl (fun s n => s.drainSeat n) s
    .ok (({ s with
      tlb := s.tlb.filter (fun e => !e.dropped v va asid), descs := [], copies := s.copies.map (s.tlbiCopy v va asid) } : State).adv 1)).out

/-- `ctxsv` (R281; spec/22_translation_faults_preemption.md R455 to R457). It waits for pending tile loads. -/
def execCtxsv (a : SReg) (s : State) : Out :=
  (s.privileged fun _ =>
    if (s.x a).toNat % 4096 ≠ 0 then .trap s { cause := 0x03, eval := s.x a, kind := 1 }
    else if s.th.tb0.pending.isSome then .ok (s.waitOn (.tile false false))
    else if s.th.tb1.pending.isSome then .ok (s.waitOn (.tile true false))
    else
      let s := s.drain
      let s := s.walked s.ctx (piecePages (s.x a) s.areaPieces)
      match s.pieceUnits (s.x a) s.areaPieces with
      | .error t => .trap s t
      | .ok us => .ok ((s.writeUnits s.th.owner us).adv 1)).out

/-- `ctxld` (R281, R303; spec/22_translation_faults_preemption.md R455 to R457): the seat is short until it holds the saved
number of octets; then the saved thread runs on. The area has no field for a priority: a seat that is short here stands at the priority
at which its own thread was placed (DESIGN CHOICE; log 57). -/
def execCtxld (a : SReg) (s : State) : Out :=
  (s.privileged fun _ =>
    if (s.x a).toNat % 4096 ≠ 0 then .trap s { cause := 0x03, eval := s.x a, kind := 0 }
    else
      let s := s.drain.areaServe (s.x a) 0x840
      match s.areaRead (s.x a) 0x840 with
      | .error t => .trap s t
      | .ok bs =>
        let owner := areaNat bs (0x248 + 8 * 37) 8
        if areaNat bs 0 4 ≠ 0x43585653 ∨ areaNat bs 4 2 ≠ 1 ∨ owner % 1024 ≠ s.th.owner then
          .trap s { cause := 0x07, eval := s.x a, kind := 0 }
        else
          let q := areaNat bs 6 1
          let shape := areaNat bs (0x248 + 16) 8
          let portion := 256 / nregOf shape
          let valid := (List.range (nregOf shape)).filter (fun n => areaNat bs 16 8 / 2 ^ n % 2 = 1)
          let s := s.areaRegsServe (s.x a) (4 * portion * 8 * q) valid
          match s.areaRegs (s.x a) (4 * portion * 8 * q) valid with
          | .error t => .trap s t
          | .ok regs =>
            match s.benchGrant s.cur q 8 with
            | none => .ok (((s.becomeShort s.cur).demand s.cur 0 q).waitOn (.restoreLanes q))
            | some os =>
              if os.length ≠ q then
                .ok (((s.becomeShort s.cur).demand s.cur s.th.octets q).waitOn (.restoreLanes q))
              else
                let s := (s.benchTake s.cur os).demand s.cur q q
                .ok ((s.withTh (restored s.th os bs regs)).retired s.cur 1)).out

/-- `halt` (R282). -/
def execHalt (s : State) : Out :=
  (s.privileged fun _ =>
    let s := s.drain.adv 1
    .ok (s.withTh { s.th with run := .halted })).out

/-- `xrd` (R32, R277). -/
def execXrd (d : SReg) (n : BitVec 12) (s : State) : Out := (csrRead d n s).out

/-- `xwr` (R32, R277). -/
def execXwr (n : BitVec 12) (a : SReg) (s : State) : Out := (csrWrite 0 n (fun _ => s.x a) s).out

/-- `xset` (R32, R277). -/
def execXset (d : SReg) (n : BitVec 12) (a : SReg) (s : State) : Out := (csrWrite d n (fun v => v ||| s.x a) s).out

/-- `xclr` (R32, R277). -/
def execXclr (d : SReg) (n : BitVec 12) (a : SReg) (s : State) : Out := (csrWrite d n (fun v => v &&& ~~~ s.x a) s).out

end Sys2Proof.Machine
end

