-- ==== Sys2Proof/Machine/VConfig.lean ====
section
/-! DEFINITION. Vector configuration (spec/03_encoding.md R91; spec/06_vector_integer_instructions.md R164 to R171): majors
0x16 and 0x17. -/

namespace Sys2Proof.Machine

/-- `setvl` (R164). -/
def execSetvl (d a b : SReg) (lanes : LaneReq) (s : State) : Out :=
  if !vtypeLegal (s.x b) then (Res.trap s (.illegal 0x07)).out
  else
    (s.setvl d (s.x b) (s.x a) (match lanes with | .octets n => n.toNat | .cur => s.th.octets)).out

/-- `setvli` (R169). -/
def execSetvli (d a : SReg) (imm : BitVec 14) (s : State) : Out :=
  if !vtypeLegal (imm.setWidth 64) then (Res.trap s (.illegal 0x07)).out
  else (s.setvl d (imm.setWidth 64) (s.x a) s.th.octets).out

/-- `vcfg` (R170). -/
def execVcfg (a : SReg) (s : State) : Out :=
  if !vtypeLegal (s.x a) then (Res.trap s (.illegal 0x07)).out
  else .next (s.finish ((s.th.set .vtype (s.x a)).capVl.set .vstart 0).pushVq 1)

/-- `vshape` (R171). -/
def execVshape (n : BitVec 2) (s : State) : Out := .next (s.finish (s.th.setShape (n.setWidth 64)).pushVq 1)

end Sys2Proof.Machine
end

