-- ==== Sys2Proof/Machine/VFRed.lean ====
section
/-! DEFINITION. Floating-point reductions, scans and the linear recurrence (spec/02_number_formats.md R73 to R75;
spec/07_vector_float_instructions.md R208 to R211): major 0x23. -/

namespace Sys2Proof.Machine

/-- A value in a reduction: its bits, or absent; and the flags of the steps so far, with the flags counted at this
place (R73, R211). -/
structure RedVal where
  v : Option Nat
  fl : BitVec 5
  deriving DecidableEq, Repr

/-- Combine (R73): absent operands pass through; a step is flushed and rounded once. A partial result is an input of the
next step, and is flushed as one (log 46). -/
def combine (op : FRedOp) (f : FFmt) (e : FEnv) (a b : Option Nat) : Option Nat × BitVec 5 :=
  match a, b with
  | none, b => (b, 0)
  | a, none => (a, 0)
  | some x, some y =>
    let p := f.read e.fz x
    let q := f.read e.fz y
    let o := match op with
      | .sum => fAdd f e p q
      | .min => fMinMax f e false p q
      | .max => fMinMax f e true p q
    (some o.bits, o.fl)

/-- One level of TreeSum: neighbours combined (R73). -/
def treeLevel (op : FRedOp) (f : FFmt) (e : FEnv) : List RedVal → List RedVal
  | a :: b :: l =>
    let r := combine op f e a.v b.v
    ⟨r.1, a.fl ||| b.fl ||| r.2⟩ :: treeLevel op f e l
  | l => l

/-- TreeSum by levels (R73). -/
def treeSum (op : FRedOp) (f : FFmt) (e : FEnv) : Nat → List RedVal → RedVal
  | 0, l => l.headD ⟨none, 0⟩
  | n + 1, l => treeSum op f e n (treeLevel op f e l)

/-- Levels of TreeSum for `n` elements: log2 of the smallest power of two not below it (R73). -/
def treeLevels (n : Nat) : Nat := if n ≤ 1 then 0 else (n - 1).log2 + 1

/-- The elements of a register as reduction values, absent where inactive. -/
def State.redVals (s : State) (va : VReg) (md : VMod) : List RedVal :=
  (List.range s.th.vl).map (fun i =>
    ⟨if s.th.active md i then some (s.th.elem va.toNat (vfmtOf s.th.vt).bits i) else none, 0⟩)

/-- Some element of [0, VL) is active. -/
def State.anyActive (s : State) (md : VMod) : Bool := (List.range s.th.vl).any (fun i => s.th.active md i)

/-- A reduction's result as the 64 bits of an f register (R208). -/
def redWord (fmt v : Nat) : Word :=
  match fmt with
  | 2 => BitVec.ofNat 64 v
  | 3 => boxS (BitVec.ofNat 32 v)
  | _ => boxS (BitVec.ofNat 32 (fp32.convert ⟨0, 0, false⟩ (((fltFmt fmt).getD fp32).read 0 v)).bits)

/-- The `.x` mask of an instruction on the whole vector: bit `i` from the flags counted there (R198, R211). -/
def State.wholeX (s : State) (t : Thread) (md : VMod) (fl : Nat → BitVec 5) : Thread :=
  match modX md with
  | none => t
  | some x =>
    (List.range s.th.vl).foldl (fun t i => t.setElem x.toNat 1 i (bit (decide (fl i &&& vtXm s.th.vt ≠ 0)))) t

/-- The conditions of this major (R98, R211). -/
def State.redOk (s : State) : Bool := fltFmtOk s.th.vt && portClear s.th.vt && s.th.whole

/-- `vfred` (R208): every step counts at bit 0. Under `.x` the bit does not ask whether element 0 is active: R211 counts there what the
instruction raises as a whole, where R198 speaks of active elements (DESIGN CHOICE; log 57). -/
def execVfred (op : FRedOp) (d : SReg) (va : VReg) (b : SReg) (md : VMod) (s : State) : Out :=
  (s.guardTrap (s.vCheck md true (va.toNat :: xRegs md) s.redOk) fun _ =>
    let t := s.th
    let f := vfmtOf t.vt
    let e := vfenv t.vt
    if s.anyActive md then
      let sc := t.fscalar (vtFmt t.vt) e b
      let tree := treeSum op f e (treeLevels t.vl) (s.redVals va md)
      let r := combine op f e (some sc.bits) tree.v
      let fl := tree.fl ||| r.2
      let u := s.wholeX (t.setFr d (redWord (vtFmt t.vt) (r.1.getD 0))) md (fun i => if i = 0 then fl else 0)
      s.wholeFlags md (fl ||| sc.fl) u
    else s.wholeFlags md 0 (s.wholeX (t.setFr d (t.fr b)) md (fun _ => 0))).out

/-- The sequential sum (R73): the accumulator and the flags of the step at each element. -/
def State.redOrdered (s : State) (va : VReg) (md : VMod) (start : Nat) : Nat × List (BitVec 5) :=
  (s.redVals va md).foldl (fun (a : Nat × List (BitVec 5)) (x : RedVal) =>
    let r := combine .sum (vfmtOf s.th.vt) (vfenv s.th.vt) (some a.1) x.v
    (r.1.getD 0, a.2 ++ [r.2])) (start, [])

/-- `vfredo.sum` (R208). -/
def execVfredoSum (d : SReg) (va : VReg) (b : SReg) (md : VMod) (s : State) : Out :=
  (s.guardTrap (s.vCheck md true (va.toNat :: xRegs md) s.redOk) fun _ =>
    let t := s.th
    if s.anyActive md then
      let sc := t.fscalar (vtFmt t.vt) (vfenv t.vt) b
      let r := s.redOrdered va md sc.bits
      let u := s.wholeX (t.setFr d (redWord (vtFmt t.vt) r.1)) md (fun i => r.2.getD i 0)
      s.wholeFlags md (r.2.foldl (· ||| ·) sc.fl) u
    else s.wholeFlags md 0 (s.wholeX (t.setFr d (t.fr b)) md (fun _ => 0))).out

/-- One level of `vfscan` at distance `dist` (R74). -/
def scanLevel (op : FRedOp) (f : FFmt) (e : FEnv) (dist : Nat) (p : List RedVal) : List RedVal :=
  p.take dist ++ List.zipWith (fun (a b : RedVal) =>
    let r := combine op f e a.v b.v
    (⟨r.1, b.fl ||| r.2⟩ : RedVal)) p (p.drop dist)

/-- The levels of `vfscan` (R74). -/
def scanLevels (op : FRedOp) (f : FFmt) (e : FEnv) : Nat → Nat → List RedVal → List RedVal
  | 0, _, p => p
  | n + 1, dist, p => scanLevels op f e n (2 * dist) (scanLevel op f e dist p)

/-- `vfscan` (R74, R209): the carry-in is combined last. -/
def execVfscan (op : FRedOp) (vd va : VReg) (c : SReg) (md : VMod) (s : State) : Out :=
  (s.guardTrap (s.vCheck md true (vd.toNat :: va.toNat :: xRegs md) (s.redOk && xClear md vd.toNat 1)) fun _ =>
    let t := s.th
    let f := vfmtOf t.vt
    let e := vfenv t.vt
    let sc : FOut := if s.anyActive md then t.fscalar (vtFmt t.vt) e c else { bits := 0 }
    let start : Option Nat := if s.anyActive md then some sc.bits else none
    let out := (scanLevels op f e (treeLevels t.vl) 1 (s.redVals va md)).map (fun (p : RedVal) =>
      let r := combine op f e start p.v
      (⟨r.1, p.fl ||| r.2⟩ : RedVal))
    let get (i : Nat) : RedVal := out.getD i ⟨none, 0⟩
    let u := s.loop md vd.toNat f.bits 0 t.vl (fun i => (get i).v.getD 0)
    let u := s.wholeX u md (fun i => if t.active md i then (get i).fl else 0)
    s.wholeFlags md (out.foldl (fun a (p : RedVal) => a ||| p.fl) sc.fl) u).out

/-- The states of `vlrec` (R75): h after each element and the flags of its step. The state is an input of each step, flushed as one
(log 46). -/
def State.recurrence (s : State) (va : VReg) (md : VMod) (h : Nat) : List (Nat × BitVec 5) × Nat :=
  let t := s.th
  let f := vfmtOf t.vt
  let e := vfenv t.vt
  (List.range t.vl).foldl (fun (a : List (Nat × BitVec 5) × Nat) i =>
    if t.active md i then
      let o := fFma fp32 e false false (f.read e.fz (t.elem va.toNat f.bits i)) (fp32.read e.fz a.2)
        (f.read e.fz (t.elem (va.toNat + 1) f.bits i))
      (a.1 ++ [(o.bits, o.fl)], o.bits)
    else (a.1 ++ [(a.2, 0)], a.2)) ([], h)

/-- `vlrec` (R75, R210): every element is written, and the final state goes to fc. -/
def execVlrec (vd va : VReg) (c : SReg) (md : VMod) (s : State) : Out :=
  let t := s.th
  let r := if vtFmt t.vt = 4 then 2 else 1
  let ok := decide (vtFmt t.vt = 3 ∨ vtFmt t.vt = 4) && portClear t.vt && t.whole && xClear md vd.toNat r
  let regs := groupRegs vd r ++ pairRegs va ++ xRegs md
  (s.guardTrap (s.vCheck md (decide (vd.toNat % r = 0)) regs ok) fun _ =>
    if t.vl = 0 then s.wholeFlags md 0 t
    else
      let out := s.recurrence va md (t.fs c).toNat
      let u := t.setElems vd.toNat 32 (out.1.zipIdx.map (fun (x : (Nat × BitVec 5) × Nat) => (x.2, x.1.1)))
      let u := u.setFr c (boxS (BitVec.ofNat 32 out.2))
      let u := s.wholeX u md (fun i => (out.1.getD i (0, 0)).2)
      s.wholeFlags md (out.1.foldl (fun a (x : Nat × BitVec 5) => a ||| x.2) 0) u).out

end Sys2Proof.Machine
end

