-- ==== Sys2Proof/Machine/VFix.lean ====
section
/-! DEFINITION. Fixed point (spec/02_number_formats.md R58, R59; spec/06_vector_integer_instructions.md R175): major 0x1A. -/

namespace Sys2Proof.Machine

/-- RoundShift under VXRM (R58). -/
def roundShift (rm : Nat) (v : Int) (d : Nat) : Int :=
  if d = 0 then v
  else
    let q := v / (2 ^ d : Nat)
    let r := v % (2 ^ d : Nat)
    let h : Int := (2 ^ (d - 1) : Nat)
    match rm with
    | 0 => if h ≤ r then q + 1 else q
    | 1 => if h < r ∨ (r = h ∧ q % 2 = 1) then q + 1 else q
    | 2 => q
    | _ => if r ≠ 0 ∧ q % 2 = 0 then q + 1 else q

/-- Saturate to `w` bits, signed or unsigned, with VXSAT.SAT when the value changes (R59). -/
def saturate (w : Nat) (signed : Bool) (v : Int) : FOut :=
  let hi : Int := if signed then (2 ^ (w - 1) : Nat) - 1 else (2 ^ w : Nat) - 1
  let lo : Int := if signed then -(2 ^ (w - 1) : Nat) else 0
  if hi < v then { bits := ofS w hi, sat := 1 }
  else if v < lo then { bits := ofS w lo, sat := 1 }
  else { bits := ofS w v }

/-- R59, R175: the operation on `w`-bit elements under VXRM. -/
def fixOp (o : FixOp) (rm w a b : Nat) : FOut :=
  let sa := toS w a
  let sb := toS w b
  let plain (v : Int) : FOut := { bits := ofS w v }
  match o with
  | .sadd => saturate w true (sa + sb)
  | .saddU => saturate w false ((a : Int) + b)
  | .ssub => saturate w true (sa - sb)
  | .ssubU => saturate w false ((a : Int) - b)
  | .aadd => plain (roundShift rm (sa + sb) 1)
  | .aaddU => plain (roundShift rm ((a : Int) + b) 1)
  | .smul => saturate w true (roundShift rm (sa * sb) (w - 1))
  | .ssrl => plain (roundShift rm a (b % w))
  | .ssra => plain (roundShift rm sa (b % w))

/-- VXRM. -/
def Thread.vxrm (t : Thread) : Nat := (t.get .vxrm).toNat

/-- An operation of major 0x1A as an element-wise computation (R175). -/
def State.fixHalf (s : State) (o : FixOp) (vd va : VReg) (b : VSrc) (md : VMod) : Half :=
  let t := s.th
  let w := t.ew
  { md := md, vd := vd.toNat, w := w
    f := fun i => fixOp o t.vxrm w (t.elem va.toNat w i) (t.srcInt w b i) }

/-- An instruction of major 0x1A other than the clips (R175). -/
def State.vFix (s : State) (o : FixOp) (vd va : VReg) (b : VSrc) (md : VMod) : Out :=
  (s.guardTrap (s.vCheck md true (vregs vd va b) (intFmt s.th.vt)) fun _ =>
    s.elementwise (s.fixHalf o vd va b md) s.th.vlc (modWords md)).out

/-- `vnclip` and `vnclip.u` (R59, R174, R175): the pair element is read as signed for one and unsigned for the other. -/
def State.vClip (s : State) (signed : Bool) (vd va : VReg) (b : VSrc) (md : VMod) : Out :=
  let t := s.th
  let w := t.ew
  (s.guardTrap (evenFirst (evenReg va) (s.vCheck md true (vd.toNat :: pairRegs va ++ srcRegs b) (wideFmt t.vt))) fun _ =>
    s.elementwise
      { md := md, vd := vd.toNat, w := w
        f := fun i =>
          let a := t.elem va.toNat (2 * w) i
          let v : Int := if signed then toS (2 * w) a else a
          saturate w signed (roundShift t.vxrm v (t.srcInt w b i % (2 * w))) }
      t.vlc (modWords md)).out

/-- `vsadd` (R175). -/
def execVsadd (vd va : VReg) (b : VSrc) (md : VMod) (s : State) : Out := s.vFix .sadd vd va b md

/-- `vsadd.u` (R175). -/
def execVsaddU (vd va : VReg) (b : VSrc) (md : VMod) (s : State) : Out := s.vFix .saddU vd va b md

/-- `vssub` (R175). -/
def execVssub (vd va : VReg) (b : VSrc) (md : VMod) (s : State) : Out := s.vFix .ssub vd va b md

/-- `vssub.u` (R175). -/
def execVssubU (vd va : VReg) (b : VSrc) (md : VMod) (s : State) : Out := s.vFix .ssubU vd va b md

/-- `vaadd` (R175). -/
def execVaadd (vd va : VReg) (b : VSrc) (md : VMod) (s : State) : Out := s.vFix .aadd vd va b md

/-- `vaadd.u` (R175). -/
def execVaaddU (vd va : VReg) (b : VSrc) (md : VMod) (s : State) : Out := s.vFix .aaddU vd va b md

/-- `vsmul` (R175). -/
def execVsmul (vd va : VReg) (b : VSrc) (md : VMod) (s : State) : Out := s.vFix .smul vd va b md

/-- `vssrl` (R175). -/
def execVssrl (vd va : VReg) (b : VSrc) (md : VMod) (s : State) : Out := s.vFix .ssrl vd va b md

/-- `vssra` (R175). -/
def execVssra (vd va : VReg) (b : VSrc) (md : VMod) (s : State) : Out := s.vFix .ssra vd va b md

/-- `vnclip` (R175). -/
def execVnclip (vd va : VReg) (b : VSrc) (md : VMod) (s : State) : Out := s.vClip true vd va b md

/-- `vnclip.u` (R175). -/
def execVnclipU (vd va : VReg) (b : VSrc) (md : VMod) (s : State) : Out := s.vClip false vd va b md

end Sys2Proof.Machine
end

