-- ==== Sys2Proof/Machine/VLattice.lean ====
section
/-! DEFINITION. Lattice-format conversions (spec/09_matrix_lattice_format_instructions.md R250 to R253;
spec/02_number_formats.md R62 to R69): major 0x24. -/

namespace Sys2Proof.Machine

/-- Bits per element of a source format, EL16 counted as 2 and EL32 as 4 (R250). -/
def elBits (src : SrcFmt) : Nat :=
  match src with
  | .el16 => 2
  | .el32 => 4
  | s => srcBits s

/-- Bits of a destination element: of an integer format, the width EW. -/
def elWidth (vt : Word) : Nat := if vtFmt vt ≤ 1 then ewBits (vtEwc vt) else fmtBits (vtFmt vt)

/-- Registers of the source group under a VTYPE (R250). -/
def elGroup (src : SrcFmt) (vt : Word) : Nat := if elWidth vt < elBits src then elBits src / elWidth vt else 1

/-- FMT is EL16 or EL32. -/
def isEl (fmt : Nat) : Bool := decide (fmt = 9 ∨ fmt = 10)

/-- The check of this major (R98, R250, R253). The group is found, and 0x01 and 0x11 are raised for it, before 0x05 for a pair of formats
that R98 refuses: R114 and R113 put these checks so, and R250 does not say what the group of such a pair is (DESIGN CHOICE; log 57). -/
def State.elCheck (s : State) (md : VMod) (vd va : VReg) (src : SrcFmt) (ok : Bool) : Option Trap :=
  let r := elGroup src s.th.vt
  s.vCheck md (decide (va.toNat % r = 0)) (vd.toNat :: groupRegs va r)
    (ok && portClear s.th.vt && decide (s.th.vstart % 8 = 0) && (modX md).isNone)

/-- The scale of element `i`, flushed (R64). -/
def Thread.elScale (t : Thread) (i : Nat) : FVal := bf16.read (vtFz t.vt) (t.scaleAt i)

/-- Input `j` of codeword `m`: zero at or above VL (R68), the old value where inactive (R69), else what `src` gives. Under FZ 2 or 3
the old value, and the RoundFP32 value that `src` gives of `vlrq`, enter R66's division as they are, subnormal or not: R66 flushes
inputs, R69 and R251 say only that the rounding does not flush (DEDUCED; log 56). -/
def State.quantInput (s : State) (md : VMod) (vd : VReg) (wide : Bool) (src : Nat → FVal × BitVec 5) (m j : Nat) :
    FVal × BitVec 5 :=
  let t := s.th
  let i := 8 * m + j
  if t.vl ≤ i then (.fin false 0 0, 0)
  else if t.active md i then src i
  else
    let o := e8Fp32 wide (t.elScale i) (t.elem vd.toNat (if wide then 32 else 16) m) j
    (fp32.read 0 o.bits, o.fl)

/-- Codeword `m` quantised; `none` when none of its positions is active (R69, R251). -/
def State.quantWord (s : State) (md : VMod) (vd : VReg) (wide : Bool) (src : Nat → FVal × BitVec 5) (m : Nat) :
    Option FOut :=
  let t := s.th
  if (List.range 8).any (fun j => decide (8 * m + j < t.vl) && t.active md (8 * m + j)) then
    let ts := (List.range 8).map (fun j => s.quantInput md vd wide src m j)
    let q := quantise wide (t.elScale (8 * m)) (ts.map Prod.fst)
    some { bits := q.code, fl := ts.foldl (fun a x => a ||| x.2) q.fl, sat := if q.lov then 2 else 0 }
  else none

/-- A quantising instruction (R251, R253). -/
def State.vQuant (s : State) (vd va : VReg) (src : SrcFmt) (md : VMod) (ok : Bool)
    (input : Nat → FVal × BitVec 5) : Out :=
  (s.guardTrap (s.elCheck md vd va src ok) fun _ =>
    let t := s.th
    let wide := decide (vtFmt t.vt = 10)
    let lo := t.vstart / 8
    let n := (t.vl + 7) / 8 - lo
    let rs := (List.range n).map (fun k => s.quantWord md vd wide input (lo + k))
    let h : Half := { md := md, vd := vd.toNat, w := if wide then 32 else 16, f := fun _ => { bits := 0 } }
    match firstTrap t.ften rs lo with
    | some m =>
      let u := s.writeHalf t h (vtMd t.vt) lo (m - lo) rs
      let fl := h.flags rs (m - lo + 1)
      let u := (u.orFlags fl).orSat (h.sats (rs.take (m - lo + 1)))
      .trap (s.withTh (u.set .vstart (BitVec.ofNat 64 (8 * m)))) (fpTrap (8 * m) fl)
    | none =>
      let u := s.writeHalf t h (vtMd t.vt) lo n rs
      s.vDone md ((u.orFlags (h.flags rs n)).orSat (h.sats rs))).out

/-- `vlq` (R66, R67, R251). -/
def execVlq (vd va : VReg) (src : SrcFmt) (md : VMod) (s : State) : Out :=
  let f := (fltFmt (srcCode src)).getD fp32
  s.vQuant vd va src md (isEl (vtFmt s.th.vt) && decide (2 ≤ srcCode src) && decide (srcCode src ≤ 5))
    (fun i => (f.read (vtFz s.th.vt) (s.th.elem va.toNat f.bits i), 0))

/-- `vlrq` (R251). -/
def execVlrq (vd va : VReg) (src : SrcFmt) (md : VMod) (s : State) : Out :=
  let wide := decide (src = .el32)
  s.vQuant vd va src md (isEl (vtFmt s.th.vt) && isEl (srcCode src))
    (fun i =>
      let o := e8Fp32 wide (s.th.elScale i) (s.th.elem va.toNat (if wide then 32 else 16) (i / 8)) (i % 8)
      (fp32.read 0 o.bits, o.fl))

/-- `vlx` (R64, R252, R253). The zeros of a reserved codeword are multiplied by the scale as other elements are, so that one that is
infinite, a NaN or negative gives a NaN or −0: R252 says zeros and a product of R64 (DESIGN CHOICE; log 57). -/
def execVlx (vd va : VReg) (src : SrcFmt) (md : VMod) (s : State) : Out :=
  let t := s.th
  let wide := decide (src = .el32)
  let f := vfmtOf t.vt
  (s.guardTrap (s.elCheck md vd va src (fltFmtOk t.vt && isEl (srcCode src))) fun _ =>
    let lo := t.vstart
    let h : Half :=
      { md := md, vd := vd.toNat, w := f.bits
        f := fun i =>
          let code := t.elem va.toNat (if wide then 32 else 16) (i / 8)
          (fMul f (vfenv t.vt) (t.elScale i) (e8Elem wide code (i % 8))).raise (if e8Reserved wide code then flNV else 0) }
    let rs := s.results h lo t.vl
    match firstTrap t.ften rs lo with
    | some i =>
      let m := i / 8
      let u := s.writeHalf t h (vtMd t.vt) lo (8 * m - lo) rs
      let fl := h.flags rs (8 * m + 8 - lo)
      .trap (s.withTh ((u.orFlags fl).set .vstart (BitVec.ofNat 64 (8 * m)))) (fpTrap (8 * m) fl)
    | none =>
      let u := s.writeHalf t h (vtMd t.vt) lo (t.vl - lo) rs
      s.vDone md (u.orFlags (h.flags rs (t.vl - lo)))).out

end Sys2Proof.Machine
end

