-- ==== Sys2Proof/Machine/VMem.lean ====
section
/-! DEFINITION. Vector memory instructions (spec/08_memory_instructions.md R214 to R234; spec/03_encoding.md R99 to R102):
majors 0x28 to 0x2C. -/

namespace Sys2Proof.Machine

/-! ## Loads -/

/-- `vld` (R217). -/
def execVld (vd : VReg) (a : SReg) (wid : MWidth) (md : VMod) (mo : MOrd) (s : State) : Out :=
  (s.guardTrap (s.memCheck md [vd.toNat] (widMatches wid s.th.vt)) fun _ =>
    s.vload md mo [vd.toNat] s.th.z id (fun i => [s.unitAddr a i])).out

/-- `vlds` (R217). -/
def execVlds (vd : VReg) (a b : SReg) (wid : MWidth) (md : VMod) (mo : MOrd) (s : State) : Out :=
  (s.guardTrap (s.memCheck md [vd.toNat] (widMatches wid s.th.vt)) fun _ =>
    s.vload md mo [vd.toNat] s.th.z id (fun i => [s.strideAddr a b i])).out

/-- `vldx` (R217): every index is read before a unit is written. -/
def execVldx (vd : VReg) (a : SReg) (vi : VReg) (wid : MWidth) (md : VMod) (mo : MOrd) (s : State) : Out :=
  (s.guardTrap (s.memCheck md [vd.toNat, vi.toNat] (widMatches wid s.th.vt)) fun _ =>
    s.vload md mo [vd.toNat] s.th.z id (fun i => [s.indexAddr a vi i])).out

/-- A field of `f` bytes read into an element of `w` bits (R224). -/
def segLoad (fmt f w v : Nat) : Nat := if 8 * f < w ∧ fmt = 0 then ofS w (toS (8 * f) v) else v % 2 ^ w

/-- An element of `w` bits written to a field of `f` bytes (R224). -/
def segStore (fmt f w v : Nat) : Nat := if w < 8 * f ∧ fmt = 0 then ofS (8 * f) (toS w v) else v % 2 ^ (8 * f)

/-- The registers of a segment form (R100). -/
def segRegs (v : VReg) (nf : Nat) : List Nat := (List.range nf).map (fun j => v.toNat + j)

/-- `vlseg` (R224). -/
def execVlseg (vd : VReg) (a : SReg) (nf : BitVec 3) (wid : MWidth) (md : VMod) (mo : MOrd) (s : State) : Out :=
  let k := nf.toNat + 1
  let f := widBytes wid
  (s.guardTrap (s.memCheck md (segRegs vd k) (segMatches wid s.th.vt)) fun _ =>
    s.vload md mo (segRegs vd k) f (segLoad (vtFmt s.th.vt) f s.th.ew) (fun i => s.segAddrs a k f i)).out

/-! ## Stores -/

/-- `vst` (R217). -/
def execVst (vs : VReg) (a : SReg) (wid : MWidth) (md : VMod) (mo : MOrd) (s : State) : Out :=
  (s.guardTrap (s.memCheck md [vs.toNat] (widMatches wid s.th.vt)) fun _ =>
    s.vstore md mo s.th.z (fun i => [(s.unitAddr a i, s.th.unit vs i)])).out

/-- `vsts` (R217). -/
def execVsts (vs : VReg) (a b : SReg) (wid : MWidth) (md : VMod) (mo : MOrd) (s : State) : Out :=
  (s.guardTrap (s.memCheck md [vs.toNat] (widMatches wid s.th.vt)) fun _ =>
    s.vstore md mo s.th.z (fun i => [(s.strideAddr a b i, s.th.unit vs i)])).out

/-- `vstx` (R217). -/
def execVstx (vs : VReg) (a : SReg) (vi : VReg) (wid : MWidth) (md : VMod) (mo : MOrd) (s : State) : Out :=
  (s.guardTrap (s.memCheck md [vs.toNat, vi.toNat] (widMatches wid s.th.vt)) fun _ =>
    s.vstore md mo s.th.z (fun i => [(s.indexAddr a vi i, s.th.unit vs i)])).out

/-- `vsseg` (R224). -/
def execVsseg (vs : VReg) (a : SReg) (nf : BitVec 3) (wid : MWidth) (md : VMod) (mo : MOrd) (s : State) : Out :=
  let k := nf.toNat + 1
  let f := widBytes wid
  (s.guardTrap (s.memCheck md (segRegs vs k) (segMatches wid s.th.vt)) fun _ =>
    s.vstore md mo f (fun i =>
      (s.segAddrs a k f i).zip
        ((segRegs vs k).map (fun r => segStore (vtFmt s.th.vt) f s.th.ew (s.th.elem r s.th.ew i))))).out

/-! ## Sparse lines (spec/02_number_formats.md R71, R72) -/

/-- The layout of a sparse line: kept values N and dense elements M of a group, groups, bytes of a value. -/
structure Sparse where
  n : Nat
  m : Nat
  groups : Nat
  bytes : Nat
  deriving DecidableEq, Repr

/-- R71. -/
def sparseOf : SparsePat → Sparse
  | .p24h => ⟨2, 4, 28, 2⟩
  | .p24b => ⟨2, 4, 51, 1⟩
  | .p48h => ⟨4, 8, 14, 2⟩
  | .p48b => ⟨4, 8, 25, 1⟩

/-- Dense elements of a line, D. -/
def Sparse.dense (p : Sparse) : Nat := p.groups * p.m

/-- Metadata bits of a group. -/
def Sparse.metaBits (p : Sparse) : Nat := if p.m = 4 then 4 else 8

/-- Metadata bytes of a line. -/
def Sparse.metaBytes (p : Sparse) : Nat := (p.groups * p.metaBits + 7) / 8

/-- The kept positions that metadata gives, ascending; none for metadata that breaks R72. -/
def Sparse.kept (p : Sparse) (b : Nat) : List Nat :=
  if p.m = 4 then (if b % 4 < b / 4 % 4 then [b % 4, b / 4 % 4] else [])
  else
    let ps := (List.range 8).filter (fun j => b.testBit j)
    if ps.length = 4 then ps else []

/-- The metadata of kept positions. -/
def Sparse.metaOf (p : Sparse) (ps : List Nat) : Nat :=
  if p.m = 4 then ps.getD 0 0 + 4 * ps.getD 1 0 else ps.foldl (fun a j => a + 2 ^ j) 0

/-- Dense position `k` of a line's bytes (R72). -/
def Sparse.decode (p : Sparse) (line : List Byte) (k : Nat) : Nat :=
  let g := k / p.m
  let field := leNat (line.drop (128 - p.metaBytes))
  let ps := p.kept (field / 2 ^ (g * p.metaBits) % 2 ^ p.metaBits)
  match ps.findIdx? (fun j => decide (j = k % p.m)) with
  | none => 0
  | some r => leNat ((line.drop ((g * p.n + r) * p.bytes)).take p.bytes)

/-- The positions a group keeps: the N largest ranks, the lower index on a tie (R72). -/
def Sparse.prune (p : Sparse) (ranks : List Nat) : List Nat :=
  (List.range p.m).filter (fun i =>
    decide ((List.range p.m).countP (fun j =>
      decide (ranks.getD i 0 < ranks.getD j 0) || (decide (ranks.getD j 0 = ranks.getD i 0) && decide (j < i))) < p.n))

/-- A line of dense values with their ranks (R71, R72). -/
def Sparse.encode (p : Sparse) (val rank : Nat → Nat) : List Byte :=
  let groups := (List.range p.groups).map (fun g => (g, p.prune ((List.range p.m).map (fun j => rank (g * p.m + j)))))
  let values := groups.flatMap (fun e => e.2.flatMap (fun j => natLe p.bytes (val (e.1 * p.m + j))))
  let field := groups.foldl (fun a e => a + p.metaOf e.2 * 2 ^ (e.1 * p.metaBits)) 0
  values ++ List.replicate (128 - p.metaBytes - values.length) 0 ++ natLe p.metaBytes field

/-- The pattern suits VTYPE (R216). -/
def sparseOk (p : SparsePat) (vt : Word) : Bool :=
  let fmt := vtFmt vt
  match p with
  | .p24h | .p48h => decide (fmt = 4 ∨ fmt = 5)
  | .p24b | .p48b => decide (fmt = 6 ∨ fmt = 7) || (decide (fmt ≤ 1) && decide (vtEwc vt = 0))

/-- A checked line read as bytes (R228). -/
def State.readLine (s : State) (c : Ctx) (va : Word) (elem : Nat) : Except Trap (List Byte) :=
  match s.access c .load false va 128 elem with
  | .error x => .error x
  | .ok l =>
    if s.poisoned c.owner l then
      .error { cause := 0x0D, eval := va, elem := elem, poisons := if l.psn then none else some l.pa, kind := 0 }
    else .ok (s.readAt c.owner s.th.lsq l.pa 128)

/-- The lines `js` read in ascending order, up to the first that fails: the number of that line with its trap at the line's first
unit from VSTART on (R228). -/
def State.readLines (s : State) (a : SReg) (d : Nat) : List Nat → List (Nat × List Byte) × Option (Nat × Trap)
  | [] => ([], none)
  | j :: js =>
    match s.readLine s.vctx (s.x a + BitVec.ofNat 64 (128 * j)) (Nat.max s.th.vstart (j * d)) with
    | .error x => ([], some (j, x))
    | .ok b =>
      let r := s.readLines a d js
      ((j, b) :: r.1, r.2)

/-- `vldsl` (R222, R228): lines without an active unit are skipped, a line below VSTART that holds one is read. A failing line j stops
the load at unit max(VSTART, jD); under `.ff`, one after the line of the first active unit truncates VL to jD. -/
def execVldsl (vd : VReg) (a : SReg) (p : SparsePat) (md : VMod) (mo : MOrd) (s : State) : Out :=
  let sp := sparseOf p
  let d := sp.dense
  (s.guardTrap (s.memCheck md [vd.toNat] (sparseOk p s.th.vt)) fun _ =>
    let acts := s.actives md s.th.vstart s.th.vlc
    let all := s.actives md 0 s.th.vlc
    let js := (List.range ((s.th.vlc + d - 1) / d)).filter (fun j => all.any (fun i => decide (i / d = j)))
    let s := s.serveAt s.vctx ((js.map (fun j => s.x a + BitVec.ofNat 64 (128 * j))).filter (fun a => decide (a.toNat % 128 = 0)))
    let r := s.readLines a d js
    let vals := acts.filterMap (fun i =>
      (r.1.find? (fun e => decide (e.1 = i / d))).map (fun e => [sp.decode e.2 (i % d)]))
    match r.2 with
    | none => s.loadDone md mo [vd.toNat] none vals none
    | some (j, x) =>
      let later : Bool := match acts.head? with | some f => decide (f / d < j) | none => false
      if mo = .ff ∧ later then s.loadDone md .ff [vd.toNat] none vals (some (j * d, x))
      else s.loadDone md .unord [vd.toNat] none vals (some (Nat.max s.th.vstart (j * d), x))).out

/-- One line of a sparse store: checked, then written whole (R229). -/
def lineUnit : UnitOp (Word × List Byte) (List (Nat × List Byte)) := fun s elem l =>
  match s.storeCheck s.vctx l.1 128 0 elem with
  | .error x => .error x
  | .ok p => .ok (s.writePhys s.th.owner p.pa l.2, [])

/-- `vstp` (R229): lines from VSTART on, up to the limit in sl; none when every unit is inactive (R223). -/
def execVstp (vs : VReg) (a sl : SReg) (p : SparsePat) (md : VMod) (mo : MOrd) (s : State) : Out :=
  let sp := sparseOf p
  let d := sp.dense
  (s.guardTrap (s.memCheck md [vs.toNat] (sparseOk p s.th.vt && decide (s.th.vstart % d = 0))) fun _ =>
    let vl := s.th.vlc
    let val (i : Nat) : Nat := if i < vl ∧ s.th.active md i then s.th.unit vs i else 0
    let total := if (s.actives md 0 vl).isEmpty then 0 else (vl + d - 1) / d
    let fit := Nat.min total ((s.x sl).toNat / 128)
    let us := ((List.range fit).filter (fun j => decide (s.th.vstart / d ≤ j))).map (fun j =>
      (j * d, (s.x a + BitVec.ofNat 64 (128 * j),
        sp.encode (fun k => val (j * d + k)) (fun k => magnitude (vtFmt s.th.vt) s.th.ew (val (j * d + k))))))
    let r := (s.drain.reach s.vctx 128 (us.map (fun u => u.2.1))).runAll lineUnit (fun _ _ => false) mo us
    r.1.storeDone r.2.2.2 (fun s =>
      s.vDone md ((s.th.setX sl (BitVec.ofNat 64 (128 * fit))).setVstat 1 (decide (fit < total))))).out

/-- `vstc` (R230): the active units go to consecutive slots, up to the limit in sl. -/
def execVstc (vs : VReg) (a sl : SReg) (wid : MWidth) (md : VMod) (mo : MOrd) (s : State) : Out :=
  (s.guardTrap (s.memCheck md [vs.toNat] (widMatches wid s.th.vt && decide (vtFmt s.th.vt ≤ 7))) fun _ =>
    let z := s.th.z
    let acts := s.actives md 0 s.th.vlc
    let fit := Nat.min acts.length ((s.x sl).toNat / z)
    let us := ((acts.take fit).zipIdx.filter (fun e => decide (s.th.vstart ≤ e.1))).map (fun e =>
      (e.1, [(s.x a + BitVec.ofNat 64 (e.2 * z), s.th.unit vs e.1)]))
    let r := s.storeSeq z (storeUnit z) mo us
    r.1.storeDone r.2 (fun s =>
      s.vDone md ((s.th.setX sl (BitVec.ofNat 64 (z * fit))).setVstat 1 (decide (fit < acts.length))))).out

/-! ## Atomics, joins and trains -/

/-- One unit of `vamo` (R227): its index and the old value. -/
def amoUnit (op : VAmoOp) (n : Nat) : UnitOp (Word × Nat) (Nat × Nat) := fun s elem u =>
  match s.atomicCheck s.vctx u.1 n elem with
  | .error x => .error x
  | .ok l =>
    let r := s.atomicAt l n (fun old => some (amoNew op (8 * n) u.2 old))
    .ok (r.1, (elem, r.2))

/-- `vamo` (R227). -/
def execVamo (op : VAmoOp) (dbl : Bool) (vd : VReg) (a : SReg) (vi : VReg) (md : VMod) (mo : MOrd) (s : State) : Out :=
  let w := if dbl then 64 else 32
  (s.guardTrap (s.memCheck md [vd.toNat, vi.toNat] (decide (vtFmt s.th.vt ≤ 1) && decide (s.th.ew = w))) fun _ =>
    let lo := s.th.vstart
    let us := (s.actives md lo s.th.vlc).map (fun i => (i, (s.indexAddr a vi i, s.th.unit vd i)))
    let u := s.drain
    let r := (u.atomicServe u.vctx (w / 8) (us.map (fun e => e.2.1))).runAll (amoUnit op (w / 8)) (fun x y => decide (x.1 = y.1)) mo us
    let hi := match r.2.2.2 with | none => s.th.vlc | some (k, _) => k
    let t := r.1.loadWrite md [vd.toNat] w lo (hi - lo) (r.2.1.map (fun e => [e.2]))
    (r.1.withTh t).storeDone r.2.2.2 (fun s => s.vDone md s.th)).out

/-- `vstj`, unit stride (R226). -/
def execVstj (vs : VReg) (a : SReg) (wid : MWidth) (md : VMod) (mo : MOrd) (s : State) : Out :=
  (s.guardTrap (s.memCheck md [vs.toNat] (widMatches wid s.th.vt)) fun _ =>
    s.vjoin md mo vs (fun i => s.unitAddr a i)).out

/-- `vstj`, indexed (R226). -/
def execVstjIndexed (vs : VReg) (a : SReg) (vi : VReg) (wid : MWidth) (md : VMod) (mo : MOrd) (s : State) : Out :=
  (s.guardTrap (s.memCheck md [vs.toNat, vi.toNat] (widMatches wid s.th.vt)) fun _ =>
    s.vjoin md mo vs (fun i => s.indexAddr a vi i)).out

/-- What is wrong with a unit of `vstxr` before anything is sent (R233): its alignment or its device. -/
def State.scatterCheck (s : State) (n elem : Nat) (va : Word) : Option Trap :=
  match s.remoteOf va with
  | some dev => s.devCheck dev va n elem
  | none => if va.toNat % n ≠ 0 then some { cause := 0x03, eval := va, elem := elem } else none

/-- The trains of `vstxr` to the other devices leave, in the order of their first units (R233). -/
def State.sendTrains (s : State) (n : Nat) (us : List (Nat × List (Word × Nat))) (devs : List Nat) : State :=
  devs.foldl (fun s dev =>
    s.sendRemote dev s.th.owner 0x04
      (unitRecs n (us.filter (fun u => u.2.any (fun f => decide (s.remoteOf f.1 = some dev)))))) s

/-- `vstxr` once every other destination has answered (R233, R234): the own train is performed, and the lowest failing unit
traps. -/
def State.scatterDone (s : State) (md : VMod) (n : Nat) (us : List (Nat × List (Word × Nat))) : Res :=
  let mine := us.filter (fun u => u.2.all (fun f => decide (s.remoteOf f.1 = none)))
  let fails := s.myRemotes.foldl (fun b (o : RemoteOp) =>
    lowerFail b (o.failure (us.filter (fun u => u.2.any (fun f => decide (s.remoteOf f.1 = some o.dev)))))) none
  let u := s.dropRemotes
  let ws := u.unitsWrite n mine
  let r := (u.slotWhole ws).trainUnits u.vctx n mine
  let s := r.1.cleanLines ws
  match lowerFail fails r.2 with
  | some (k, va, sub) => s.stopAt 0 { cause := 0x12, sub := BitVec.ofNat 8 sub, eval := va, elem := k, kind := 1 }
  | none => s.vDone md s.th

/-- `vstxr` (R233, R234): every unit is checked before anything is sent. -/
def execVstxr (vs : VReg) (a : SReg) (vi : VReg) (wid : MWidth) (md : VMod) (_mo : MOrd) (s : State) : Out :=
  (s.guardTrap (s.memCheck md [vs.toNat, vi.toNat] (widMatches wid s.th.vt && decide (s.th.vstart = 0))) fun _ =>
    let n := s.th.z
    let us := (s.actives md 0 s.th.vlc).map (fun i => (i, [(s.indexAddr a vi i, s.th.unit vs i)]))
    if !s.myRemotes.isEmpty then s.scatterDone md n us
    else
      match us.findSome? (fun u => u.2.findSome? (fun f => s.scatterCheck n u.1 f.1)) with
      | some x => s.stopAt x.elem (x.by .store)
      | none =>
        let devs := (us.filterMap (fun u => (u.2.head?).bind (fun f => s.remoteOf f.1))).eraseDups
        if devs.isEmpty then s.drain.scatterDone md n us
        else .ok ((s.drain.sendTrains n us devs).waitOn (.remote s.nextTag false))).out

end Sys2Proof.Machine
end

