-- ==== Sys2Proof/Machine/VPair.lean ====
section
/-! DEFINITION. Pairs `a.m || b.mn` (spec/03_encoding.md R109; spec/06_vector_integer_instructions.md R191;
spec/07_vector_float_instructions.md R197, R198): two element-wise operations issued as one. -/

namespace Sys2Proof.Machine

/-- The modifiers of the first half: `.m` (R109). -/
def firstMod : VMod := ⟨true, none⟩

/-- The modifiers of the second half: `.mn`, and `.x` as written (R109). -/
def secondMod (x : Option VReg) : VMod := ⟨true, some ⟨true, false, x⟩⟩

/-- One half as an element-wise computation. -/
def State.pairHalf (s : State) (h : PairHalf) (md : VMod) : Half :=
  match h.op with
  | .int o => s.intHalf o h.vd h.va h.b md
  | .fix o => s.fixHalf o h.vd h.va h.b md
  | .flt o => s.fltHalf o h.vd h.va h.b md

/-- The operation reads its second source. -/
def pairHasB : PairOp → Bool
  | .int .clz | .int .popc => false
  | .int _ | .fix _ => true
  | .flt o => fltBinary o

/-- The registers of one half. -/
def halfRegs (h : PairHalf) : List Nat :=
  h.vd.toNat :: h.va.toNat :: (if pairHasB h.op then srcRegs h.b else []) ++
    (match h.x with | some x => [x.toNat] | none => [])

/-- The VTYPE conditions of one half (R98, R195, R198). -/
def State.halfOk (s : State) (h : PairHalf) (md : VMod) : Bool :=
  match h.op with
  | .int _ | .fix _ => intFmt s.th.vt && h.x.isNone
  | .flt o => fltOk o s.th.vt h.vd h.b md

/-- A pair (R191): both halves are checked before either executes, and both read before either writes. A `.x` register
within the other half's destination is refused too (log 23). -/
def execPair (x y : PairHalf) (s : State) : Out :=
  let my := secondMod y.x
  let ok := s.halfOk x firstMod && s.halfOk y my && xClear my x.vd.toNat 1
  (s.guardTrap (s.vCheck firstMod true (halfRegs x ++ halfRegs y) ok) fun _ =>
    s.pairwise (s.pairHalf x firstMod) (s.pairHalf y my) s.th.vl).out

end Sys2Proof.Machine
end

