-- ==== Sys2Proof/Machine/VQueue.lean ====
section
/-! DEFINITION. The vector queue (spec/12_execution_model.md R305 to R313): which instructions enter it, the entry each makes, and
when an entry is dispatched, when its element groups enter their unit and when it completes; and the rows ready for the matrix
unit (spec/09_matrix_lattice_format_instructions.md R248). Results are written when the instruction runs (log 3). -/

namespace Sys2Proof.Machine

/-! ## The entries -/

/-- The `n` registers from `v` on. -/
def regsFrom (v : BitVec 6) (n : Nat) : List Nat := (List.range n).map (fun k => v.toNat + k)

/-- An entry of a unit that has entered the queue at issue. -/
def VqEntry.at (u : VUnit) : VqEntry where
  unit := u
  groups := 0
  entered := 0
  dispatched := false
  held := true
  reads := []
  needs := []
  writes := []
  byGroup := true
  setsVl := false
  tile := none
  queued := false
  inOrder := false

/-- Registers of the source group of a V-format word: a pair under a narrowing form (R173, R174), the group of R205 and R250. -/
def srcGroup (t : Thread) (mj fn : Nat) (w : IWord) : Nat :=
  if (mj = 0x19 ∧ 0x10 ≤ fn) ∨ (mj = 0x1A ∧ 0x0A ≤ fn) ∨ (mj = 0x23 ∧ fn = 0x10) then 2
  else if (mj = 0x22 ∧ fn = 1) ∨ mj = 0x24 then
    match tabSrcFmt (wA w).toNat with
    | some f => elGroup f t.vt
    | none => 1
  else 1

/-- Registers of the destination group of a V-format word (R173, R207, R210); none under a scalar destination. -/
def dstGroup (t : Thread) (mj fn : Nat) : Nat :=
  if (mj = 0x1C ∧ (fn = 8 ∨ fn = 9)) ∨ (mj = 0x1D ∧ fn = 1) ∨ (mj = 0x1E ∧ fn < 8) ∨ (mj = 0x23 ∧ fn < 8) then 0
  else if mj = 0x19 ∧ fn < 0x10 then 2
  else if mj = 0x22 ∧ 4 ≤ fn then widenRegs (vtFmt t.vt)
  else if mj = 0x23 ∧ fn = 0x10 ∧ vtFmt t.vt = 4 then 2
  else 1

/-- The second row of R310's table: these start only after every producer of their sources has completed, and write every group
at completion. -/
def wholeVector (mj fn : Nat) : Bool :=
  decide (mj = 0x1E ∨ mj = 0x23) || decide (mj = 0x1C ∧ fn = 0x0A) || decide (mj = 0x1D ∧ fn ∈ [3, 4, 5, 9])

/-- Field 19..14 of a V-format word names a vector register: k = 0, and the form has a second source there. -/
def readsA (mj fn : Nat) (w : IWord) : Bool :=
  !w.getLsbD 6 && (tabVUn mj fn).isNone && decide (mj ≠ 0x24) && !decide (mj = 0x22 ∧ fn ≤ 1) &&
  !decide (mj = 0x1C ∧ 4 ≤ fn) && !decide (mj = 0x1D ∧ fn ≤ 2)

/-- Field 13..8 of a V-format word names a vector register: not under `vindex`, nor a move from a scalar register. -/
def readsB (mj fn : Nat) (w : IWord) : Bool :=
  !decide (mj = 0x1C ∧ fn = 0x0B) && !(decide (mj = 0x1D ∧ (fn = 0 ∨ fn = 2)) && w.getLsbD 6)

/-- The old destination is a source: the multiply-adds (R93, R96). -/
def readsD (mj fn : Nat) : Bool :=
  decide (mj = 0x18 ∧ (fn = 6 ∨ fn = 7)) || decide (mj = 0x19 ∧ 0x0C ≤ fn ∧ fn < 0x10) ||
  decide (mj = 0x20 ∧ 8 ≤ fn ∧ fn < 0x0C) || decide (mj = 0x22 ∧ fn = 6)

/-- The units that a V-format instruction handles: containers under major 0x1D, `vrank` and `vindex`, else elements
(spec/06_vector_integer_instructions.md R161). -/
def vqUnits (t : Thread) (mj fn : Nat) : Nat :=
  if mj = 0x1D ∨ (mj = 0x1C ∧ (fn = 0x0A ∨ fn = 0x0B)) then t.vlc else t.vl

/-- The entry of an instruction of majors 0x18 to 0x24 (R308 to R312). One that writes a scalar register never chains (R310). -/
def vqArith (t : Thread) (w : IWord) : VqEntry :=
  let mj := (wMajor w).toNat
  let fn := (w.extractLsb' 0 6).toNat
  let dst := regsFrom (wD w) (dstGroup t mj fn)
  let src :=
    (if readsB mj fn w then regsFrom (wB w) (srcGroup t mj fn w) else []) ++
    (if readsA mj fn w then [(wA w).toNat] else []) ++
    (if readsD mj fn then dst else []) ++
    (if w.getLsbD 7 || decide (mj = 0x1D ∧ fn = 8) then [0] else []) ++
    (if vtScl t.vt || decide (mj = 0x24) then [1] else [])
  let whole := wholeVector mj fn || dst.isEmpty
  { VqEntry.at .lane with
    groups := t.groups (vqUnits t mj fn)
    reads := if whole then [] else src
    needs := if whole then src else []
    writes := dst
    byGroup := !wholeVector mj fn
    setsVl := decide (mj = 0x1D ∧ fn = 6) || decide (mj = 0x1B ∧ 0x20 ≤ fn) }

/-- The entry of an instruction of majors 0x28 to 0x2C (R308 to R312). -/
def vqMem (t : Thread) (w : IWord) : VqEntry :=
  let mj := (wMajor w).toNat
  let mode := (w.extractLsb' 3 2).toNat
  let data := regsFrom (wD w) (if mj ≤ 0x29 ∧ mode = 3 then (w.extractLsb' 8 3).toNat + 1 else 1)
  let idx := if mj = 0x2B ∨ (mj ≤ 0x29 ∧ mode = 2) ∨ (mj = 0x2C ∧ mode ≠ 1) then [(wB w).toNat] else []
  let store := decide (mj = 0x29 ∨ mj = 0x2C ∨ (mj = 0x2A ∧ mode ≠ 0))
  let slow := !idx.isEmpty || decide (mj = 0x2A ∧ mode = 1)
  let mask := if w.getLsbD 2 then [0] else []
  { VqEntry.at .memory with
    groups := t.groups t.vlc
    reads := (if store || decide (mj = 0x2B) then data else []) ++ (if slow then [] else mask)
    needs := idx ++ (if slow then mask else [])
    writes := if store then [] else data
    setsVl := decide ((w.extractLsb' 0 2).toNat = 2)
    queued := true }

/-- The entry of a row instruction (R248). -/
def vqRow (t : Thread) (w : IWord) : VqEntry :=
  let tb := w.getLsbD 6
  let h := t.tileDims tb
  let outs := if (w.extractLsb' 0 6).toNat = 2 then h.k else h.n
  let dst := regsFrom (wD w) (t.accRegs outs (tagAcc (t.tile tb).tag.toNat).bits)
  { VqEntry.at .matrix with
    needs := (wB w).toNat :: 1 :: dst ++ (if (w.extractLsb' 0 6).toNat = 1 then [(wA w).toNat] else [])
    writes := dst
    byGroup := false
    tile := some tb }

/-- The entry that the base word of an instruction makes (R307, R308); none for a word whose instruction does not enter the
queue. -/
def vqBase (t : Thread) (w : IWord) : Option VqEntry :=
  let mj := (wMajor w).toNat
  if mj = 0x16 ∨ mj = 0x17 then some (VqEntry.at .lane)
  else if 0x18 ≤ mj ∧ mj ≤ 0x24 then some (vqArith t w)
  else if 0x28 ≤ mj ∧ mj ≤ 0x2C then some (vqMem t w)
  else if mj = 0x2E then some (vqRow t w)
  else if mj = 0x2F then some (VqEntry.at (if w.extractLsb' 0 4 = 0 then .memory else .control))
  else if mj = 0x30 then
    some { VqEntry.at .fabric with
      reads := [(wB w).toNat, (wA w).toNat], writes := regsFrom (wD w) 2, setsVl := true, inOrder := true }
  else if mj = 0x31 ∨ mj = 0x35 then some { VqEntry.at .control with inOrder := true }
  else if mj = 0x34 then
    if wFn w = 0x1C then none
    else
      some { VqEntry.at .control with
        inOrder := true
        needs := if wFn w = 0x30 ∨ wFn w = 0x31 then [(wD w).toNat] else []
        writes := if wFn w = 0x32 ∨ wFn w = 0x33 then [(wD w).toNat] else [] }
  else none

/-- The vector registers a prefix names: the `.x` mask, which is written, and the third source of `fx` (R108). -/
def vqPrefix (p : IWord) (e : VqEntry) : VqEntry :=
  if wB p = 0x01 ∧ p.getLsbD 2 then { e with writes := (wD p).toNat :: e.writes }
  else if wB p = 0x03 ∧ p.extractLsb' 0 2 = 2 then { e with reads := (wD p).toNat :: e.reads }
  else e

/-- The entry of an instruction: a long form and a pair make one each (R307, R313). -/
def vqEntry (t : Thread) (i : Instr) : Option VqEntry :=
  match encode i with
  | [w] => vqBase t w
  | [p, w] => (vqBase t w).map (vqPrefix p)
  | [v, p, w] =>
    match vqBase t v, vqBase t w with
    | some a, some b => some (vqPrefix p { b with reads := a.reads ++ b.reads, writes := a.writes ++ b.writes })
    | _, _ => none
  | _ => none

/-- The instruction enters the seat's vector queue at issue; one that waited there has its entry (R307). -/
def Thread.enterVq (t : Thread) (i : Instr) : Thread :=
  match vqEntry t i with
  | none => t
  | some e => if t.vq.any (fun (x : VqEntry) => x.held) then t else { t with vq := t.vq ++ [e] }

/-- The instruction finds no free entry (R305). -/
def Thread.vqFull (t : Thread) (i : Instr) : Bool :=
  (vqEntry t i).isSome && decide (32 ≤ t.vq.length) && !t.vq.any (fun (x : VqEntry) => x.held)

/-! ## Dispatch, entry and completion -/

/-- The vector queue with entry `k` changed. -/
def Thread.setVq (t : Thread) (k : Nat) (f : VqEntry → VqEntry) : Thread :=
  { t with vq := (t.vq.zipIdx).map (fun e => if e.2 = k then f e.1 else e.1) }

/-- Two lists of registers share one. -/
def meets (a b : List Nat) : Bool := a.any (fun r => b.contains r)

/-- Group `j` of an older entry has entered, or it has no such group. -/
def VqEntry.past (p : VqEntry) (j : Nat) : Bool := decide (j < p.entered) || decide (p.groups ≤ p.entered)

/-- An older entry, not completed, lets the next group of `e` enter: it has left the unit (R309), no register that must be complete
is its (R310), the group a chained source comes from has been written, or that of a VL not yet final (R310, R312), no register is
written out of order, and a destination that overlaps sources does not chain (R311). -/
def VqEntry.lets (p e : VqEntry) : Bool :=
  (decide (p.unit ≠ e.unit) || decide (p.groups ≤ p.entered)) &&
  !meets p.writes e.needs &&
  (!meets p.writes e.reads || (p.byGroup && !meets e.writes e.reads && p.past e.entered)) &&
  (!p.setsVl || p.past e.entered) &&
  (!meets p.writes e.writes || p.past e.entered) &&
  (!meets e.writes (p.reads ++ p.needs) || decide (0 < e.entered))

/-- The next group of entry `k` can enter its unit. -/
def Thread.mayEnter (t : Thread) (k : Nat) : Bool :=
  match t.vq[k]? with
  | none => false
  | some e => e.dispatched && decide (e.entered < e.groups) && (t.vq.take k).all (fun p => p.lets e)

/-- Entry `k` can complete: every group has entered, its instruction waits for nothing, no older entry writes a register it reads or
writes (R309 to R311), and one of majors 0x30, 0x31, 0x34 and 0x35 completes in program order with the others
(spec/10_fabric_region_sync_system_instructions.md R255). -/
def Thread.mayComplete (t : Thread) (k : Nat) : Bool :=
  match t.vq[k]? with
  | none => false
  | some e =>
    e.dispatched && decide (e.groups ≤ e.entered) && !e.held &&
    (t.vq.take k).all (fun p => !(p.inOrder || e.inOrder) && !meets p.writes (e.reads ++ e.needs ++ e.writes))

/-- VECTOR_DISPATCH (R308): the oldest entry not yet dispatched goes to its unit; a row instruction waits for the matrix unit. -/
def execVectorDispatch (seat : Nat) (s : State) : Out :=
  let t := s.seat seat
  match t.vq.findIdx? (fun (e : VqEntry) => !e.dispatched) with
  | none => .next s
  | some k =>
    if (t.vq[k]?.map (fun (e : VqEntry) => decide (e.unit = .matrix))).getD false then .next s
    else .next (s.setSeat seat (t.setVq k (fun e => { e with dispatched := true })))

/-- ELEMENT_GROUP_ENTRY (R309 to R312): the next group of entry `k` enters its unit. -/
def execElementGroupEntry (seat k : Nat) (s : State) : Out :=
  let t := s.seat seat
  .next (if t.mayEnter k then s.setSeat seat (t.setVq k (fun e => { e with entered := e.entered + 1 })) else s)

/-- VECTOR_COMPLETE (R307 to R309): the oldest entry that can complete does so, on whatever unit, and is free. -/
def execVectorComplete (seat : Nat) (s : State) : Out :=
  let t := s.seat seat
  .next (match (List.range t.vq.length).find? t.mayComplete with
    | none => s
    | some k => s.setSeat seat { t with vq := t.vq.eraseIdx k })

/-- A seat's oldest entry not dispatched is a row instruction that is ready (R248): its tile is not pending, and no older
instruction that writes vs, vidx, v1 or the vd group has still to complete. -/
def Thread.rowReady (t : Thread) : Option Nat :=
  match t.vq.findIdx? (fun (e : VqEntry) => !e.dispatched) with
  | none => none
  | some k =>
    match t.vq[k]? with
    | none => none
    | some e =>
      let clear := match e.tile with | some tb => !e.held || (t.tile tb).pending.isNone | none => false
      if decide (e.unit = .matrix) && clear && (t.vq.take k).all (fun p => !meets p.writes e.needs) then some k else none

/-- The matrix unit works for a seat. -/
def Thread.rowBusy (t : Thread) : Bool := t.vq.any (fun (e : VqEntry) => decide (e.unit = .matrix) && e.dispatched)

/-- MATRIX_ROW_START (R248): the unit takes the ready seat next after the one last served. -/
def execMatrixRowStart (core : Nat) (s : State) : Out :=
  if (seatsOf core).any (fun n => (s.seat n).rowBusy) then .next s
  else
    let k := s.core core
    let order := (List.range 8).map (fun i => 8 * core + (k.matLast + 1 + i) % 8)
    .next (match order.findSome? (fun n => ((s.seat n).rowReady).map (fun j => (n, j))) with
      | none => s
      | some (n, j) =>
        (s.setCore core { k with matLast := n % 8 }).setSeat n ((s.seat n).setVq j (fun e => { e with dispatched := true })))

end Sys2Proof.Machine
end

