-- ==== Sys2Proof/Machine/VRed.lean ====
section
/-! DEFINITION. Integer reductions and scans (spec/03_encoding.md R95; spec/06_vector_integer_instructions.md R162, R163,
R189, R190): major 0x1E. -/

namespace Sys2Proof.Machine

/-- The operation that each `vred` and `vscan` combines with (R189). -/
def redOp (op : RedOp) (w a b : Nat) : Nat :=
  match op with
  | .add => (a + b) % 2 ^ w
  | .min => if toS w a ≤ toS w b then a else b
  | .max => if toS w a ≤ toS w b then b else a
  | .minu => Nat.min a b
  | .maxu => Nat.max a b
  | .and => Nat.land a b
  | .or => Nat.lor a b
  | .xor => Nat.xor a b

/-- The combination of a start value with the active elements below `n` (R189, R190). -/
def State.redTo (s : State) (op : RedOp) (va : VReg) (md : VMod) (start n : Nat) : Nat :=
  (s.actives md 0 n).foldl (fun a i => redOp op s.th.ew a (s.th.elem va.toNat s.th.ew i)) start

/-- `vred` (R189): sign-extended to 64 bits; sb unchanged when no element is active. -/
def execVred (op : RedOp) (d : SReg) (va : VReg) (b : SReg) (md : VMod) (s : State) : Out :=
  (s.guardTrap (s.vCheck md true [va.toNat] (intFmt s.th.vt && s.th.whole)) fun _ =>
    let w := s.th.ew
    let v : Word :=
      if (s.actives md 0 s.th.vl).isEmpty then s.x b
      else BitVec.ofInt 64 (toS w (s.redTo op va md ((s.x b).toNat % 2 ^ w) s.th.vl))
    s.vDone md (s.th.setX d v)).out

/-- `vscan` (R190). -/
def execVscan (op : RedOp) (vd va : VReg) (b : SReg) (md : VMod) (s : State) : Out :=
  (s.guardTrap (s.vCheck md true [vd.toNat, va.toNat] (intFmt s.th.vt && s.th.whole)) fun _ =>
    s.vDone md (s.loop md vd.toNat s.th.ew 0 s.th.vl
      (fun i => s.redTo op va md ((s.x b).toNat % 2 ^ s.th.ew) (i + 1)))).out

end Sys2Proof.Machine
end

