-- ==== Sys2Proof/Machine/Dispatch.lean ====
section
/-! DEFINITION. What each instruction and event does: one meaning for each row of spec/opcode_table.json. -/

namespace Sys2Proof.Machine

/-- The effect of an instruction, or of an event of the device. -/
def exec (i : Instr) (s : State) : Host.Outcome State Fault Refusal :=
  match i with
  | .add d a b => Sys2Proof.Machine.execAdd d a b s
  | .sub d a b => Sys2Proof.Machine.execSub d a b s
  | .and d a b => Sys2Proof.Machine.execAnd d a b s
  | .or d a b => Sys2Proof.Machine.execOr d a b s
  | .xor d a b => Sys2Proof.Machine.execXor d a b s
  | .andn d a b => Sys2Proof.Machine.execAndn d a b s
  | .sll d a b => Sys2Proof.Machine.execSll d a b s
  | .srl d a b => Sys2Proof.Machine.execSrl d a b s
  | .sra d a b => Sys2Proof.Machine.execSra d a b s
  | .slt d a b => Sys2Proof.Machine.execSlt d a b s
  | .sltu d a b => Sys2Proof.Machine.execSltu d a b s
  | .min d a b => Sys2Proof.Machine.execMin d a b s
  | .max d a b => Sys2Proof.Machine.execMax d a b s
  | .minu d a b => Sys2Proof.Machine.execMinu d a b s
  | .maxu d a b => Sys2Proof.Machine.execMaxu d a b s
  | .mul d a b => Sys2Proof.Machine.execMul d a b s
  | .mulh d a b => Sys2Proof.Machine.execMulh d a b s
  | .mulhu d a b => Sys2Proof.Machine.execMulhu d a b s
  | .div d a b => Sys2Proof.Machine.execDiv d a b s
  | .divu d a b => Sys2Proof.Machine.execDivu d a b s
  | .rem d a b => Sys2Proof.Machine.execRem d a b s
  | .remu d a b => Sys2Proof.Machine.execRemu d a b s
  | .clz d a => Sys2Proof.Machine.execClz d a s
  | .ctz d a => Sys2Proof.Machine.execCtz d a s
  | .popc d a => Sys2Proof.Machine.execPopc d a s
  | .sext d a wid => Sys2Proof.Machine.execSext d a wid s
  | .zext d a wid => Sys2Proof.Machine.execZext d a wid s
  | .addi d a imm => Sys2Proof.Machine.execAddi d a imm s
  | .addiWide d a imm => Sys2Proof.Machine.execAddiWide d a imm s
  | .andi d a imm => Sys2Proof.Machine.execAndi d a imm s
  | .ori d a imm => Sys2Proof.Machine.execOri d a imm s
  | .xori d a imm => Sys2Proof.Machine.execXori d a imm s
  | .slli d a sh => Sys2Proof.Machine.execSlli d a sh s
  | .srli d a sh => Sys2Proof.Machine.execSrli d a sh s
  | .srai d a sh => Sys2Proof.Machine.execSrai d a sh s
  | .slti d a imm => Sys2Proof.Machine.execSlti d a imm s
  | .sltiu d a imm => Sys2Proof.Machine.execSltiu d a imm s
  | .lhi d imm => Sys2Proof.Machine.execLhi d imm s
  | .lhiWide d imm => Sys2Proof.Machine.execLhiWide d imm s
  | .lpc d imm => Sys2Proof.Machine.execLpc d imm s
  | .lpcWide d imm => Sys2Proof.Machine.execLpcWide d imm s
  | .beq a b off => Sys2Proof.Machine.execBeq a b off s
  | .bne a b off => Sys2Proof.Machine.execBne a b off s
  | .blt a b off => Sys2Proof.Machine.execBlt a b off s
  | .bge a b off => Sys2Proof.Machine.execBge a b off s
  | .bltu a b off => Sys2Proof.Machine.execBltu a b off s
  | .bgeu a b off => Sys2Proof.Machine.execBgeu a b off s
  | .jlr d a off => Sys2Proof.Machine.execJlr d a off s
  | .j off => Sys2Proof.Machine.execJ off s
  | .jl off => Sys2Proof.Machine.execJl off s
  | .ldB d a acq imm => Sys2Proof.Machine.execLdB d a acq imm s
  | .ldH d a acq imm => Sys2Proof.Machine.execLdH d a acq imm s
  | .ldW d a acq imm => Sys2Proof.Machine.execLdW d a acq imm s
  | .ldD d a acq imm => Sys2Proof.Machine.execLdD d a acq imm s
  | .ldBu d a acq imm => Sys2Proof.Machine.execLdBu d a acq imm s
  | .ldHu d a acq imm => Sys2Proof.Machine.execLdHu d a acq imm s
  | .ldWu d a acq imm => Sys2Proof.Machine.execLdWu d a acq imm s
  | .stB d a rel imm => Sys2Proof.Machine.execStB d a rel imm s
  | .stH d a rel imm => Sys2Proof.Machine.execStH d a rel imm s
  | .stW d a rel imm => Sys2Proof.Machine.execStW d a rel imm s
  | .stD d a rel imm => Sys2Proof.Machine.execStD d a rel imm s
  | .ldBIndexed d a b acq => Sys2Proof.Machine.execLdBIndexed d a b acq s
  | .ldHIndexed d a b acq => Sys2Proof.Machine.execLdHIndexed d a b acq s
  | .ldWIndexed d a b acq => Sys2Proof.Machine.execLdWIndexed d a b acq s
  | .ldDIndexed d a b acq => Sys2Proof.Machine.execLdDIndexed d a b acq s
  | .ldBuIndexed d a b acq => Sys2Proof.Machine.execLdBuIndexed d a b acq s
  | .ldHuIndexed d a b acq => Sys2Proof.Machine.execLdHuIndexed d a b acq s
  | .ldWuIndexed d a b acq => Sys2Proof.Machine.execLdWuIndexed d a b acq s
  | .stBIndexed d a b rel => Sys2Proof.Machine.execStBIndexed d a b rel s
  | .stHIndexed d a b rel => Sys2Proof.Machine.execStHIndexed d a b rel s
  | .stWIndexed d a b rel => Sys2Proof.Machine.execStWIndexed d a b rel s
  | .stDIndexed d a b rel => Sys2Proof.Machine.execStDIndexed d a b rel s
  | .amoAdd d a b dbl rel acq => Sys2Proof.Machine.execAmoAdd d a b dbl rel acq s
  | .amoAnd d a b dbl rel acq => Sys2Proof.Machine.execAmoAnd d a b dbl rel acq s
  | .amoOr d a b dbl rel acq => Sys2Proof.Machine.execAmoOr d a b dbl rel acq s
  | .amoXor d a b dbl rel acq => Sys2Proof.Machine.execAmoXor d a b dbl rel acq s
  | .amoMin d a b dbl rel acq => Sys2Proof.Machine.execAmoMin d a b dbl rel acq s
  | .amoMax d a b dbl rel acq => Sys2Proof.Machine.execAmoMax d a b dbl rel acq s
  | .amoMinu d a b dbl rel acq => Sys2Proof.Machine.execAmoMinu d a b dbl rel acq s
  | .amoMaxu d a b dbl rel acq => Sys2Proof.Machine.execAmoMaxu d a b dbl rel acq s
  | .amoSwap d a b dbl rel acq => Sys2Proof.Machine.execAmoSwap d a b dbl rel acq s
  | .cas d a b dbl rel acq => Sys2Proof.Machine.execCas d a b dbl rel acq s
  | .fadd d a b dbl => Sys2Proof.Machine.execFadd d a b dbl s
  | .fsub d a b dbl => Sys2Proof.Machine.execFsub d a b dbl s
  | .fmul d a b dbl => Sys2Proof.Machine.execFmul d a b dbl s
  | .fdiv d a b dbl => Sys2Proof.Machine.execFdiv d a b dbl s
  | .fsqrt d a dbl => Sys2Proof.Machine.execFsqrt d a dbl s
  | .fmin d a b dbl => Sys2Proof.Machine.execFmin d a b dbl s
  | .fmax d a b dbl => Sys2Proof.Machine.execFmax d a b dbl s
  | .fcmpEq d a b dbl => Sys2Proof.Machine.execFcmpEq d a b dbl s
  | .fcmpLt d a b dbl => Sys2Proof.Machine.execFcmpLt d a b dbl s
  | .fcmpLe d a b dbl => Sys2Proof.Machine.execFcmpLe d a b dbl s
  | .fcmpUo d a b dbl => Sys2Proof.Machine.execFcmpUo d a b dbl s
  | .fclass d a dbl => Sys2Proof.Machine.execFclass d a dbl s
  | .fmadd d a b c dbl => Sys2Proof.Machine.execFmadd d a b c dbl s
  | .fmsub d a b c dbl => Sys2Proof.Machine.execFmsub d a b c dbl s
  | .fnmadd d a b c dbl => Sys2Proof.Machine.execFnmadd d a b c dbl s
  | .fcvt d a conv => Sys2Proof.Machine.execFcvt d a conv s
  | .fmvS d a => Sys2Proof.Machine.execFmvS d a s
  | .fmvD d a => Sys2Proof.Machine.execFmvD d a s
  | .fmvX d a => Sys2Proof.Machine.execFmvX d a s
  | .fmvF d a => Sys2Proof.Machine.execFmvF d a s
  | .trap code => Sys2Proof.Machine.execTrap code s
  | .eret => Sys2Proof.Machine.execEret s
  | .brk code => Sys2Proof.Machine.execBrk code s
  | .fence scope kinds => Sys2Proof.Machine.execFence scope kinds s
  | .fencei => Sys2Proof.Machine.execFencei s
  | .tlbi v a b => Sys2Proof.Machine.execTlbi v a b s
  | .ctxsv a => Sys2Proof.Machine.execCtxsv a s
  | .ctxld a => Sys2Proof.Machine.execCtxld a s
  | .halt => Sys2Proof.Machine.execHalt s
  | .xrd d n => Sys2Proof.Machine.execXrd d n s
  | .xwr n a => Sys2Proof.Machine.execXwr n a s
  | .xset d n a => Sys2Proof.Machine.execXset d n a s
  | .xclr d n a => Sys2Proof.Machine.execXclr d n a s
  | .setvl d a b lanes => Sys2Proof.Machine.execSetvl d a b lanes s
  | .vcfg a => Sys2Proof.Machine.execVcfg a s
  | .vshape n => Sys2Proof.Machine.execVshape n s
  | .setvli d a imm => Sys2Proof.Machine.execSetvli d a imm s
  | .vadd vd va b md => Sys2Proof.Machine.execVadd vd va b md s
  | .vsub vd va b md => Sys2Proof.Machine.execVsub vd va b md s
  | .vrsub vd va b md => Sys2Proof.Machine.execVrsub vd va b md s
  | .vmul vd va b md => Sys2Proof.Machine.execVmul vd va b md s
  | .vmulh vd va b md => Sys2Proof.Machine.execVmulh vd va b md s
  | .vmulhu vd va b md => Sys2Proof.Machine.execVmulhu vd va b md s
  | .vmacc vd va b md => Sys2Proof.Machine.execVmacc vd va b md s
  | .vnmsac vd va b md => Sys2Proof.Machine.execVnmsac vd va b md s
  | .vdiv vd va b md => Sys2Proof.Machine.execVdiv vd va b md s
  | .vdivu vd va b md => Sys2Proof.Machine.execVdivu vd va b md s
  | .vrem vd va b md => Sys2Proof.Machine.execVrem vd va b md s
  | .vremu vd va b md => Sys2Proof.Machine.execVremu vd va b md s
  | .vmin vd va b md => Sys2Proof.Machine.execVmin vd va b md s
  | .vmax vd va b md => Sys2Proof.Machine.execVmax vd va b md s
  | .vminu vd va b md => Sys2Proof.Machine.execVminu vd va b md s
  | .vmaxu vd va b md => Sys2Proof.Machine.execVmaxu vd va b md s
  | .vand vd va b md => Sys2Proof.Machine.execVand vd va b md s
  | .vor vd va b md => Sys2Proof.Machine.execVor vd va b md s
  | .vxor vd va b md => Sys2Proof.Machine.execVxor vd va b md s
  | .vsll vd va b md => Sys2Proof.Machine.execVsll vd va b md s
  | .vsrl vd va b md => Sys2Proof.Machine.execVsrl vd va b md s
  | .vsra vd va b md => Sys2Proof.Machine.execVsra vd va b md s
  | .vclz vd va md => Sys2Proof.Machine.execVclz vd va md s
  | .vpopc vd va md => Sys2Proof.Machine.execVpopc vd va md s
  | .vwadd vd va b md => Sys2Proof.Machine.execVwadd vd va b md s
  | .vwaddU vd va b md => Sys2Proof.Machine.execVwaddU vd va b md s
  | .vwsub vd va b md => Sys2Proof.Machine.execVwsub vd va b md s
  | .vwsubU vd va b md => Sys2Proof.Machine.execVwsubU vd va b md s
  | .vwmul vd va b md => Sys2Proof.Machine.execVwmul vd va b md s
  | .vwmulU vd va b md => Sys2Proof.Machine.execVwmulU vd va b md s
  | .vwmulSu vd va b md => Sys2Proof.Machine.execVwmulSu vd va b md s
  | .vwmacc vd va b md => Sys2Proof.Machine.execVwmacc vd va b md s
  | .vwmaccU vd va b md => Sys2Proof.Machine.execVwmaccU vd va b md s
  | .vwmaccSu vd va b md => Sys2Proof.Machine.execVwmaccSu vd va b md s
  | .vnsrl vd va b md => Sys2Proof.Machine.execVnsrl vd va b md s
  | .vnsra vd va b md => Sys2Proof.Machine.execVnsra vd va b md s
  | .vsadd vd va b md => Sys2Proof.Machine.execVsadd vd va b md s
  | .vsaddU vd va b md => Sys2Proof.Machine.execVsaddU vd va b md s
  | .vssub vd va b md => Sys2Proof.Machine.execVssub vd va b md s
  | .vssubU vd va b md => Sys2Proof.Machine.execVssubU vd va b md s
  | .vaadd vd va b md => Sys2Proof.Machine.execVaadd vd va b md s
  | .vaaddU vd va b md => Sys2Proof.Machine.execVaaddU vd va b md s
  | .vsmul vd va b md => Sys2Proof.Machine.execVsmul vd va b md s
  | .vssrl vd va b md => Sys2Proof.Machine.execVssrl vd va b md s
  | .vssra vd va b md => Sys2Proof.Machine.execVssra vd va b md s
  | .vnclip vd va b md => Sys2Proof.Machine.execVnclip vd va b md s
  | .vnclipU vd va b md => Sys2Proof.Machine.execVnclipU vd va b md s
  | .vcmp cc vd va b md => Sys2Proof.Machine.execVcmp cc vd va b md s
  | .vcmpBrk cc vd va b md => Sys2Proof.Machine.execVcmpBrk cc vd va b md s
  | .mkAnd vd va vb md => Sys2Proof.Machine.execMkAnd vd va vb md s
  | .mkOr vd va vb md => Sys2Proof.Machine.execMkOr vd va vb md s
  | .mkXor vd va vb md => Sys2Proof.Machine.execMkXor vd va vb md s
  | .mkAndn vd va vb md => Sys2Proof.Machine.execMkAndn vd va vb md s
  | .mkNot vd va md => Sys2Proof.Machine.execMkNot vd va md s
  | .mcount d va md => Sys2Proof.Machine.execMcount d va md s
  | .mfirst d va md => Sys2Proof.Machine.execMfirst d va md s
  | .vrank vd va md => Sys2Proof.Machine.execVrank vd va md s
  | .vindex vd md => Sys2Proof.Machine.execVindex vd md s
  | .vmv vd va md => Sys2Proof.Machine.execVmv vd va md s
  | .vmvScalar vd a md => Sys2Proof.Machine.execVmvScalar vd a md s
  | .vmvSv d va md => Sys2Proof.Machine.execVmvSv d va md s
  | .vmvVs vd a md => Sys2Proof.Machine.execVmvVs vd a md s
  | .vslideu vd va b md => Sys2Proof.Machine.execVslideu vd va b md s
  | .vslided vd va b md => Sys2Proof.Machine.execVslided vd va b md s
  | .vperm vd va vb md => Sys2Proof.Machine.execVperm vd va vb md s
  | .vcompr vd va vb md => Sys2Proof.Machine.execVcompr vd va vb md s
  | .vexpd vd va vb md => Sys2Proof.Machine.execVexpd vd va vb md s
  | .vmerge vd va b md => Sys2Proof.Machine.execVmerge vd va b md s
  | .vtopk vd va b md => Sys2Proof.Machine.execVtopk vd va b md s
  | .vred op d va b md => Sys2Proof.Machine.execVred op d va b md s
  | .vscan op vd va b md => Sys2Proof.Machine.execVscan op vd va b md s
  | .vfadd vd va b md => Sys2Proof.Machine.execVfadd vd va b md s
  | .vfsub vd va b md => Sys2Proof.Machine.execVfsub vd va b md s
  | .vfmul vd va b md => Sys2Proof.Machine.execVfmul vd va b md s
  | .vfdiv vd va b md => Sys2Proof.Machine.execVfdiv vd va b md s
  | .vfsqrt vd va md => Sys2Proof.Machine.execVfsqrt vd va md s
  | .vfrsqe vd va md => Sys2Proof.Machine.execVfrsqe vd va md s
  | .vfrece vd va md => Sys2Proof.Machine.execVfrece vd va md s
  | .vfexp2 vd va md => Sys2Proof.Machine.execVfexp2 vd va md s
  | .vfmacc vd va b md => Sys2Proof.Machine.execVfmacc vd va b md s
  | .vfnmacc vd va b md => Sys2Proof.Machine.execVfnmacc vd va b md s
  | .vfmsac vd va b md => Sys2Proof.Machine.execVfmsac vd va b md s
  | .vfnmsac vd va b md => Sys2Proof.Machine.execVfnmsac vd va b md s
  | .vfmin vd va b md => Sys2Proof.Machine.execVfmin vd va b md s
  | .vfmax vd va b md => Sys2Proof.Machine.execVfmax vd va b md s
  | .vfclass vd va md => Sys2Proof.Machine.execVfclass vd va md s
  | .vfsgnj vd va b md => Sys2Proof.Machine.execVfsgnj vd va b md s
  | .vfsgnjN vd va b md => Sys2Proof.Machine.execVfsgnjN vd va b md s
  | .vfsgnjX vd va b md => Sys2Proof.Machine.execVfsgnjX vd va b md s
  | .vfcmp cc vd va b md => Sys2Proof.Machine.execVfcmp cc vd va b md s
  | .vfcvt vd va src md => Sys2Proof.Machine.execVfcvt vd va src md s
  | .vfncvt vd va src md => Sys2Proof.Machine.execVfncvt vd va src md s
  | .vfwadd vd va b md => Sys2Proof.Machine.execVfwadd vd va b md s
  | .vfwmul vd va b md => Sys2Proof.Machine.execVfwmul vd va b md s
  | .vfwmacc vd va b md => Sys2Proof.Machine.execVfwmacc vd va b md s
  | .vfred op d va b md => Sys2Proof.Machine.execVfred op d va b md s
  | .vfredoSum d va b md => Sys2Proof.Machine.execVfredoSum d va b md s
  | .vfscan op vd va c md => Sys2Proof.Machine.execVfscan op vd va c md s
  | .vlrec vd va c md => Sys2Proof.Machine.execVlrec vd va c md s
  | .vlq vd va src md => Sys2Proof.Machine.execVlq vd va src md s
  | .vlx vd va src md => Sys2Proof.Machine.execVlx vd va src md s
  | .vlrq vd va src md => Sys2Proof.Machine.execVlrq vd va src md s
  | .pair x y => Sys2Proof.Machine.execPair x y s
  | .vld vd a wid md mo => Sys2Proof.Machine.execVld vd a wid md mo s
  | .vlds vd a b wid md mo => Sys2Proof.Machine.execVlds vd a b wid md mo s
  | .vldx vd a vi wid md mo => Sys2Proof.Machine.execVldx vd a vi wid md mo s
  | .vlseg vd a nf wid md mo => Sys2Proof.Machine.execVlseg vd a nf wid md mo s
  | .vst vs a wid md mo => Sys2Proof.Machine.execVst vs a wid md mo s
  | .vsts vs a b wid md mo => Sys2Proof.Machine.execVsts vs a b wid md mo s
  | .vstx vs a vi wid md mo => Sys2Proof.Machine.execVstx vs a vi wid md mo s
  | .vsseg vs a nf wid md mo => Sys2Proof.Machine.execVsseg vs a nf wid md mo s
  | .vldsl vd a p md mo => Sys2Proof.Machine.execVldsl vd a p md mo s
  | .vstp vs a sl p md mo => Sys2Proof.Machine.execVstp vs a sl p md mo s
  | .vstc vs a sl wid md mo => Sys2Proof.Machine.execVstc vs a sl wid md mo s
  | .vamo op dbl vd a vi md mo => Sys2Proof.Machine.execVamo op dbl vd a vi md mo s
  | .vstxr vs a vi wid md mo => Sys2Proof.Machine.execVstxr vs a vi wid md mo s
  | .vstj vs a wid md mo => Sys2Proof.Machine.execVstj vs a wid md mo s
  | .vstjIndexed vs a vi wid md mo => Sys2Proof.Machine.execVstjIndexed vs a vi wid md mo s
  | .mxr vd vs tb => Sys2Proof.Machine.execMxr vd vs tb s
  | .mxri vd vs vi tb => Sys2Proof.Machine.execMxri vd vs vi tb s
  | .mxrt vd vs tb => Sys2Proof.Machine.execMxrt vd vs tb s
  | .tld tb a b fmt => Sys2Proof.Machine.execTld tb a b fmt s
  | .twait tb => Sys2Proof.Machine.execTwait tb s
  | .tzero tb => Sys2Proof.Machine.execTzero tb s
  | .fx vd va slot => Sys2Proof.Machine.execFx vd va slot s
  | .fxTwo vd va vb slot => Sys2Proof.Machine.execFxTwo vd va vb slot s
  | .fxLong vd slot src len arg => Sys2Proof.Machine.execFxLong vd slot src len arg s
  | .fbind slot a => Sys2Proof.Machine.execFbind slot a s
  | .funbind slot => Sys2Proof.Machine.execFunbind slot s
  | .fload d a => Sys2Proof.Machine.execFload d a s
  | .fdrop a => Sys2Proof.Machine.execFdrop a s
  | .fshadow slot a => Sys2Proof.Machine.execFshadow slot a s
  | .fquery d slot a => Sys2Proof.Machine.execFquery d slot a s
  | .stj a b rel dbl => Sys2Proof.Machine.execStj a b rel dbl s
  | .ltw d a b acq dbl => Sys2Proof.Machine.execLtw d a b acq dbl s
  | .ltwn d a b acq dbl => Sys2Proof.Machine.execLtwn d a b acq dbl s
  | .lsync a => Sys2Proof.Machine.execLsync a s
  | .wait => Sys2Proof.Machine.execWait s
  | .waitY => Sys2Proof.Machine.execWaitY s
  | .cbar => Sys2Proof.Machine.execCbar s
  | .await d a => Sys2Proof.Machine.execAwait d a s
  | .aquery d a => Sys2Proof.Machine.execAquery d a s
  | .vsendNx vs => Sys2Proof.Machine.execVsendNx vs s
  | .vsendPv vs => Sys2Proof.Machine.execVsendPv vs s
  | .vrecvNx vd => Sys2Proof.Machine.execVrecvNx vd s
  | .vrecvPv vd => Sys2Proof.Machine.execVrecvPv vd s
  | .launch d a => Sys2Proof.Machine.execLaunch d a s
  | .exit => Sys2Proof.Machine.execExit s
  | .acopy d a b c => Sys2Proof.Machine.execAcopy d a b c s
  | .acopy2d d a b c rows sstr dstr => Sys2Proof.Machine.execAcopy2d d a b c rows sstr dstr s
  | .instructionFetchReturn core line => Sys2Proof.Machine.execInstructionFetchReturn core line s
  | .loadReturn core line => Sys2Proof.Machine.execLoadReturn core line s
  | .storePerformed seat k => Sys2Proof.Machine.execStorePerformed seat k s
  | .walkComplete seat va => Sys2Proof.Machine.execWalkComplete seat va s
  | .vspcfgTakesEffect core => Sys2Proof.Machine.execVspcfgTakesEffect core s
  | .vectorDispatch seat => Sys2Proof.Machine.execVectorDispatch seat s
  | .elementGroupEntry seat k => Sys2Proof.Machine.execElementGroupEntry seat k s
  | .vectorComplete seat => Sys2Proof.Machine.execVectorComplete seat s
  | .reflowComplete core seat => Sys2Proof.Machine.execReflowComplete core seat s
  | .matrixRowStart core => Sys2Proof.Machine.execMatrixRowStart core s
  | .tileLoadComplete seat tb => Sys2Proof.Machine.execTileLoadComplete seat tb s
  | .shortSeatServe core => Sys2Proof.Machine.execShortSeatServe core s
  | .gceilRaise core => Sys2Proof.Machine.execGceilRaise core s
  | .fxStart seat => Sys2Proof.Machine.execFxStart seat s
  | .nodeFire seat tile node => Sys2Proof.Machine.execNodeFire seat tile node s
  | .fxEndOfStream seat => Sys2Proof.Machine.execFxEndOfStream seat s
  | .preemptionCut seat => Sys2Proof.Machine.execPreemptionCut seat s
  | .tileClockChangeComplete core tile => Sys2Proof.Machine.execTileClockChangeComplete core tile s
  | .acopyComplete seat handle => Sys2Proof.Machine.execAcopyComplete seat handle s
  | .copyPageRetry token => Sys2Proof.Machine.execCopyPageRetry token s
  | .cbarRelease core queue seq => Sys2Proof.Machine.execCbarRelease core queue seq s
  | .ltwSatisfied seat => Sys2Proof.Machine.execLtwSatisfied seat s
  | .ltwtoExpiry seat => Sys2Proof.Machine.execLtwtoExpiry seat s
  | .waitResume seat => Sys2Proof.Machine.execWaitResume seat s
  | .messageArrival core fromNext => Sys2Proof.Machine.execMessageArrival core fromNext s
  | .vsendRoom seat => Sys2Proof.Machine.execVsendRoom seat s
  | .settleRound lrt idx => Sys2Proof.Machine.execSettleRound lrt idx s
  | .settleBlockReceive k => Sys2Proof.Machine.execSettleBlockReceive k s
  | .hostRecordCommit queue wide data => Sys2Proof.Machine.execHostRecordCommit queue wide data s
  | .gateTest queue => Sys2Proof.Machine.execGateTest queue s
  | .priorityAging queue seq => Sys2Proof.Machine.execPriorityAging queue seq s
  | .taskPlacement => Sys2Proof.Machine.execTaskPlacement s
  | .gangPlacement => Sys2Proof.Machine.execGangPlacement s
  | .gangReservation => Sys2Proof.Machine.execGangReservation s
  | .groupCompletion queue seq => Sys2Proof.Machine.execGroupCompletion queue seq s
  | .faultRecordPost seat => Sys2Proof.Machine.execFaultRecordPost seat s
  | .fqRetry fn token => Sys2Proof.Machine.execFqRetry fn token s
  | .fqSkip fn token => Sys2Proof.Machine.execFqSkip fn token s
  | .fqRemove fn token => Sys2Proof.Machine.execFqRemove fn token s
  | .parkedTimeout token => Sys2Proof.Machine.execParkedTimeout token s
  | .runtimeLimitExpiry seat => Sys2Proof.Machine.execRuntimeLimitExpiry seat s
  | .stopTimeout seat => Sys2Proof.Machine.execStopTimeout seat s
  | .exitRoutineTimeout seat => Sys2Proof.Machine.execExitRoutineTimeout seat s
  | .level3SaveTimeout seat => Sys2Proof.Machine.execLevel3SaveTimeout seat s
  | .seatPreemption queue seq => Sys2Proof.Machine.execSeatPreemption queue seq s
  | .contextRestore token => Sys2Proof.Machine.execContextRestore token s
  | .bar2Read fn off n => Sys2Proof.Machine.execBar2Read fn off n s
  | .bar2Write fn off bytes => Sys2Proof.Machine.execBar2Write fn off bytes s
  | .seatgo value => Sys2Proof.Machine.execSeatgo value s
  | .keyCreate id => Sys2Proof.Machine.execKeyCreate id s
  | .keyDestroy id => Sys2Proof.Machine.execKeyDestroy id s
  | .keyCommandDone => Sys2Proof.Machine.execKeyCommandDone s
  | .stcmdWarm guard outcome => Sys2Proof.Machine.execStcmdWarm guard outcome s
  | .stcmdCold guard outcome => Sys2Proof.Machine.execStcmdCold guard outcome s
  | .powerApplied outcome => Sys2Proof.Machine.execPowerApplied outcome s
  | .warmReset outcome => Sys2Proof.Machine.execWarmReset outcome s
  | .vfFunctionReset vf => Sys2Proof.Machine.execVfFunctionReset vf s
  | .heartbeatSend agent => Sys2Proof.Machine.execHeartbeatSend agent s
  | .agentDeath agent => Sys2Proof.Machine.execAgentDeath agent s
  | .powerSample watts => Sys2Proof.Machine.execPowerSample watts s
  | .temperatureSample temps => Sys2Proof.Machine.execTemperatureSample temps s
  | .tripRecoveryStart outcome => Sys2Proof.Machine.execTripRecoveryStart outcome s
  | .tclkWrite die idx value => Sys2Proof.Machine.execTclkWrite die idx value s
  | .portTraining port => Sys2Proof.Machine.execPortTraining port s
  | .loadRequest port flit => Sys2Proof.Machine.execLoadRequest port flit s
  | .loadResponse port flit => Sys2Proof.Machine.execLoadResponse port flit s
  | .store port flit => Sys2Proof.Machine.execStore port flit s
  | .trainUnits port flit => Sys2Proof.Machine.execTrainUnits port flit s
  | .trainTail port flit => Sys2Proof.Machine.execTrainTail port flit s
  | .acknowledgement port flit => Sys2Proof.Machine.execAcknowledgement port flit s
  | .latticeExchange port flit => Sys2Proof.Machine.execLatticeExchange port flit s
  | .peerHeartbeat port flit => Sys2Proof.Machine.execPeerHeartbeat port flit s
  | .linkTimeout tag => Sys2Proof.Machine.execLinkTimeout tag s
  | .qerrRead fn queue => Sys2Proof.Machine.execQerrRead fn queue s
  | .setcfgRead die => Sys2Proof.Machine.execSetcfgRead die s
  | .fleetCounterRead off => Sys2Proof.Machine.execFleetCounterRead off s
  | .registerWrite fn off size value => Sys2Proof.Machine.execRegisterWrite fn off size value s
  | .copyEnginePageFault seat handle => Sys2Proof.Machine.execCopyEnginePageFault seat handle s
  | .fqconsWrite fn value => Sys2Proof.Machine.execFqconsWrite fn value s
  | .qctlWrite queue value => Sys2Proof.Machine.execQctlWrite queue value s
  | .hbmRefresh stack bank => Sys2Proof.Machine.execHbmRefresh stack bank s

end Sys2Proof.Machine
end

