-- ==== Sys2Proof/Machine/Fetch.lean ====
section
/-! DEFINITION. Fetching and decoding the focused seat's next instruction (spec/03_encoding.md R109, R112 to R114), the
passing of time (spec/01_state.md R37), and the placing of an instruction where the next step fetches it. -/

namespace Sys2Proof.Machine

/-- A step takes a free number of core cycles and uses up a free value (R37; log 6, log 7). -/
def State.tick (s : State) : State := { s with cycle := s.cycle + Config.elapsed s.free, free := s.free + 1 }

/-- The word at `pc + k`. -/
def State.wordAt (s : State) (k : Nat) : Except Trap IWord := s.fetchWord s.ctx (s.th.pc + BitVec.ofNat 57 k)

/-- The word at `pc + k` is fetched (spec/13_memory_hierarchy.md R331): translated, and, where the core's instruction L1 does not hold its
line, served by the line's coherence point, on its way to that L1. -/
def State.fetchIn (s : State) (k : Nat) : State :=
  let c := s.ctx
  let va : Word := (s.th.pc + BitVec.ofNat 57 k).setWidth 64
  let s := s.reach c 4 [va]
  match s.access c .fetch false va 4 0 with
  | .error _ => s
  | .ok l =>
    let line := l.pa / 128
    if l.psn || s.pointDead l.pa || (s.core c.core).icache.any (fun (e : Nat × Nat × List Byte) => decide (e.1 = line)) then s
    else
      let s := s.serveLines c.owner [line]
      if s.fetches.contains (c.core, line) then s else { s with fetches := s.fetches ++ [(c.core, line)] }

/-- What a fetch comes to: an instruction to run, a trap, or two halves that make no pair (R109). -/
inductive Fetched
  | run (i : Instr)
  | trap (x : Trap)
  | badPair (a b : Instr)

/-- An instruction that can be the first half of a pair (R109): whether it is one shows in the word after it. -/
def leadsPair (i : Instr) : Bool :=
  match pairHalf i with
  | some (_, md) => md.m && md.pre.isNone
  | none => false

/-- A whole pair that ends at `pc + k`. A further prefix with P = 1 after it has for first half one that carries a prefix: that pair
fails, and with it the whole, of which no half runs without the others (R109; log 47). -/
noncomputable def State.afterPair (s : State) (i : Instr) (k : Nat) : Fetched :=
  match s.wordAt k with
  | .error _ => .run i
  | .ok p =>
    if isPairPrefix p then
      match s.wordAt (k + 4) with
      | .error x => .trap x
      | .ok b =>
        match decodeOne p b with
        | .ok j => .badPair i j
        | .error e => .trap (.illegal e.sub)
    else .run i

/-- The instruction whose first half ends at `pc + k`, given the words before: a pair when a MOD prefix with P = 1 follows, whose
base word is then fetched too (R109). Where that word cannot be fetched, an instruction that can lead a pair takes its trap, so that
no trap falls between two halves; another one runs (log 49). -/
noncomputable def State.fetchTail (s : State) (w0 w1 : IWord) (i : Instr) (k : Nat) : Fetched :=
  match s.wordAt k with
  | .error x => if leadsPair i then .trap x else .run i
  | .ok p =>
    if isPairPrefix p then
      match s.wordAt (k + 4) with
      | .error x => .trap x
      | .ok b =>
        match (if k = 4 then decode w0 p b 0 else decode w0 w1 p b), decodeOne p b with
        | .ok j, _ => s.afterPair j (k + 8)
        | .error .pair, .ok j => .badPair i j
        | .error e, _ => .trap (.illegal e.sub)
    else .run i

/-- The next instruction of the focused seat: its fetch (order 1 of R113), then its static checks (order 2). -/
noncomputable def State.fetch (s : State) : Fetched :=
  match s.wordAt 0 with
  | .error x => .trap x
  | .ok w0 =>
    if wMajor w0 = 0x3E then
      match s.wordAt 4 with
      | .error x => .trap x
      | .ok w1 =>
        match decodeOne w0 w1 with
        | .error e => .trap (.illegal e.sub)
        | .ok i => s.fetchTail w0 w1 i 8
    else
      match decodeOne w0 0 with
      | .error e => .trap (.illegal e.sub)
      | .ok i => s.fetchTail w0 0 i 4

/-- The words that fetching the next instruction reads are fetched: its own, the one that shows whether a pair follows one that can lead a
pair, and the rest of what then shows to be a pair (spec/03_encoding.md R109). Nothing else is (spec/05_scalar_instructions.md R137). -/
noncomputable def State.fetchLines (s : State) : State :=
  let s := s.fetchIn 0
  match s.wordAt 0 with
  | .error _ => s
  | .ok w0 =>
    let long := decide (wMajor w0 = 0x3E)
    let s := if long then s.fetchIn 4 else s
    let k := if long then 8 else 4
    let leads : Bool := if long then false else (match decodeOne w0 0 with | .ok i => leadsPair i | .error _ => false)
    let s := if leads then s.fetchIn k else s
    match s.wordAt k with
    | .error _ => s
    | .ok p =>
      if !isPairPrefix p then s
      else
        let s := (s.fetchIn k).fetchIn (k + 4)
        match s.wordAt (k + 8) with
        | .error _ => s
        | .ok q => if isPairPrefix q then (s.fetchIn (k + 8)).fetchIn (k + 12) else s

/-- The line of a physical HBM address lies in its slice, under the focused thread's owner. -/
def State.settleLine (s : State) (pa : Nat) : State :=
  let line := pa / 128
  { s with
    lines := Map.put LineTag.reset s.lines line ⟨some s.th.owner, false⟩
    slice := if s.inSlice line ∨ paKind pa ≠ .hbm then s.slice else s.slice ++ [(line, true)] }

/-- A walk for an address reads only lines that its tables' slices hold, none of them poisoned. -/
def State.walkHeld (s : State) (va : Nat) : List Nat → Nat → Bool
  | [], _ => true
  | level :: ls, table =>
    let epa := table + 8 * bitsOf va (12 + 9 * level) 9
    s.inSlice (epa / 128) && !(Map.get LineTag.reset s.lines (epa / 128)).poison &&
      (decide (bitsOf (s.rawNat epa 8) 0 2 ≠ 3) || s.walkHeld va ls (frameOf (s.rawNat epa 8)))

/-- The pc has a translation that a fetch can use, cached or in tables that slices hold. -/
def State.pcMapped (s : State) : Bool :=
  ((s.cached s.ctx.tlb s.ctx s.th.pc.toNat).isSome || (s.cached (dieTlb (dieOf s.ctx.core)) s.ctx s.th.pc.toNat).isSome ||
    s.walkHeld s.th.pc.toNat [4, 3, 2, 1, 0] s.ctx.ptbase) &&
  (match s.access s.ctx .fetch false (s.th.pc.setWidth 64) 4 0 with | .ok _ => true | .error _ => false)

/-- A translation of the pc that a fetch can use: tables after the root, and a 1 GiB leaf with R, X and U whose frame is
1 GiB (spec/22_translation_faults_preemption.md R440, R441). -/
def State.mapPc (s : State) : State :=
  let root := (s.th.get .ptbase).toNat
  let va := s.th.pc.toNat
  let s := { s with tlb := s.tlb.filter (fun e => !e.hit e.tlb s.ctx va) }
  let put (s : State) (pa v : Nat) : State := (s.settleLine pa).putBytes pa (natLe 8 v)
  let s := put s (root + 8 * bitsOf va 48 9) (root + 4096 + 3)
  let s := put s (root + 4096 + 8 * bitsOf va 39 9) (root + 8192 + 3)
  put s (root + 8192 + 8 * bitsOf va 30 9) (2 ^ 30 + 0x35)

/-- The bytes of an instruction at the physical place the pc leads to, in a line of the thread's owner. -/
def State.placeAt (s : State) (pa v : Nat) : State :=
  ((s.settleLine pa).settleLine (pa + 15)).putBytes pa (natLe 16 v)

end Sys2Proof.Machine
end

