-- ==== Sys2Proof/Machine/Ahead.lean ====
section
/-! DEFINITION. How an instruction issues (spec/12_execution_model.md R305, R307), and the scalar instructions that run ahead of a
vector-queue instruction that waits (R307, R316; log 3). -/

namespace Sys2Proof.Machine

/-! ## Issue -/

/-- The major opcode of an instruction's base word; 0 for an event. -/
def baseMajor (i : Instr) : Nat := (((encode i).getLast?).map (fun w => (wMajor w).toNat)).getD 0

/-- The instruction takes an entry of the load-store queue (spec/13_memory_hierarchy.md R336): a scalar load, store or atomic, a
vector memory instruction, or `tld`. -/
def usesLsq (i : Instr) : Bool :=
  decide ((0x0C ≤ baseMajor i ∧ baseMajor i ≤ 0x0F) ∨ (0x28 ≤ baseMajor i ∧ baseMajor i ≤ 0x2C)) ||
  (match i with | .tld _ _ _ _ => true | _ => false)

/-- The instruction accesses memory: the seat's older tile loads read no later (spec/09_matrix_lattice_format_instructions.md R240;
spec/14_memory_ordering.md R347; log 4). -/
def accessesMemory (i : Instr) : Bool := usesLsq i || decide (baseMajor i ∈ [0x30, 0x31, 0x34, 0x35])

/-- The instruction issues: its entry of the vector queue is made (R307), and older tile loads have read. -/
def State.issue (s : State) (i : Instr) : State :=
  let s := s.withTh (s.th.enterVq i)
  if accessesMemory i then s.readTiles s.cur else s

/-- The control registers that vector-queue work writes (spec/01_state.md R33). -/
def vqCsr (n : BitVec 12) : Bool := n.toNat ∈ [0, 1, 2, 3, 4, 6, 8, 9, 0xB, 0x10, 0x11, 0x12, 0x13, 0x14, 0x15]

/-- The instruction waits until every older vector-queue instruction of its seat has completed (spec/01_state.md R26, R33;
spec/10_fabric_region_sync_system_instructions.md R255, R275). -/
def afterVq (i : Instr) : Bool :=
  match i with
  | .fence _ _ | .fencei | .tlbi _ _ _ | .ctxsv _ | .ctxld _ | .halt | .exit | .vshape _ => true
  | .xrd _ n | .xwr n _ | .xset _ n _ | .xclr _ n _ => vqCsr n
  | _ => false

/-- The instruction cannot issue: for want of a queue entry (R305, R336), or because the vector queue must be empty. -/
def State.mustWait (s : State) (i : Instr) : Bool :=
  s.th.vqFull i || (usesLsq i && s.th.lsqFull) || (afterVq i && s.th.vq.any (fun (e : VqEntry) => !e.held))

/-! ## Ahead of an instruction that waits -/

/-- The device is stopped by a thermal trip or a failed cold start (spec/24_startup.md R481, R485; spec/25_fleet_operation.md R492). -/
def State.stopped (s : State) : Bool := decide (s.start.state = 3) || s.start.tripped

/-- An instruction takes `u` to `v` and completes, RETIRED counting it, in the mode it was in. -/
def completes (u v : State) : Bool :=
  decide (v.th.run = .running) && decide (v.th.get .retired ≠ u.th.get .retired) && v.th.priv == u.th.priv && v.th.uact == u.th.uact

/-- A scalar instruction that has taken `u` to `v` may have run before an older vector instruction completed, its results then discarded
where that one traps (spec/22_translation_faults_preemption.md R448): it is no atomic or system instruction, and it completes. -/
def ranAhead (i : Instr) (u v : State) : Bool :=
  decide (baseMajor i ≠ 0 ∧ baseMajor i < 0x14 ∧ baseMajor i ≠ 0x0F) && completes u v &&
  decide (((u.th.set .retired 0).set .fflags 0).csr = ((v.th.set .retired 0).set .fflags 0).csr)

/-- Younger scalar instructions issue while an instruction waits so: it has entered the vector queue, and does not suspend its seat
(R305, R307). `cbar` orders all that follows it. -/
def WaitKind.passes : WaitKind → Bool
  | .copy _ | .copyRoom | .sendRoom _ | .message _ | .lanes _ | .fx | .fabricEntry | .remote _ _ => true
  | .tile _ left => !left
  | .cells _ _ _ _ _ _ _ _ | .event _ | .cbar | .firstLanes _ | .restoreLanes _ | .vspcfg => false

/-- The instruction orders every younger access after itself (spec/14_memory_ordering.md R353). -/
def ordersAll (i : Instr) : Bool :=
  match i with
  | .launch _ _ | .exit => true
  | _ => false

/-- The scalar register that an instruction writes when its wait has ended. -/
def waitDest (i : Instr) : Option SReg :=
  match i with
  | .setvl d _ _ _ | .setvli d _ _ | .await d _ | .acopy d _ _ _ | .acopy2d d _ _ _ _ _ _ => some d
  | _ => none

/-- A scalar load or store, by its word: whether it stores, whether it carries `.acq` or `.rel`, its address and its bytes
(spec/03_encoding.md R87). -/
def State.scalarSpan (s : State) (w : IWord) : Option (Bool × Bool × Word × Nat) :=
  let n (k : BitVec 3) : Nat := 2 ^ (k.toNat % 4)
  if wMajor w = 0x0C ∨ wMajor w = 0x0D then
    let z := n (w.extractLsb' 11 3)
    some (decide (wMajor w = 0x0D), w.getLsbD 10, s.addr (low5 (wA w)) (scaled (w.extractLsb' 0 10) z), z)
  else if wMajor w = 0x0E then
    some (w.getLsbD 4, w.getLsbD 3, s.addr (low5 (wA w)) (s.x (low5 (wB w))), n (w.extractLsb' 5 3))
  else none

/-- A copy of the focused seat that runs writes, or, for a store, reads too, one of `n` bytes at a physical address. -/
def State.copyMeets (s : State) (store : Bool) (pa n : Nat) : Bool :=
  let at_ (c : Copy) (k : Acc) (va : Word) : Bool :=
    match s.access c.ctx k false va 1 0 with
    | .ok l => decide (pa ≤ l.pa ∧ l.pa < pa + n)
    | .error _ => false
  (s.outstanding s.cur).any (fun (c : Copy) => (c.pieces c.rows).any (fun p => (List.range p.n).any (fun j =>
    at_ c .store (p.dst + BitVec.ofNat 64 j) || (store && at_ c .load (p.src + BitVec.ofNat 64 j)))))

/-- A younger instruction may access memory ahead of one that waits so: behind an `fx`, which may store, no load; behind an `await`, what touches
no byte of a running copy, and no release (spec/14_memory_ordering.md R351, R355). -/
def State.mayPass (s : State) (k : WaitKind) (j : Instr) : Bool :=
  match ((encode j).getLast?).bind s.scalarSpan with
  | none => true
  | some (store, ord, va, n) =>
    match k with
    | .fx => store
    | .copy _ =>
      (match s.access s.ctx (if store then .store else .load) false va n 0 with
       | .ok l => !s.copyMeets store l.pa n && !(store && ord)
       | .error _ => false)
    | _ => true

open Classical in
/-- Whether `j`, which takes `u` to `v`, runs alike whatever register `r` holds, and then whether it writes `r`; `none` where it reads
`r`. -/
noncomputable def State.unread (u : State) (j : Instr) (r : SReg) (v : State) : Option Bool :=
  if ∀ x : Word, exec j (u.setX r x) = .next v then some true
  else if ∀ x : Word, exec j (u.setX r x) = .next (v.setX r x) then some false
  else none

/-- Where the younger instructions of the focused seat, which waits at `i`, begin. -/
def Thread.aheadStart (t : Thread) (i : Instr) : Ahead :=
  let pc := t.pc + BitVec.ofNat 57 (4 * (encode i).length)
  { start := pc, pc := pc, s := t.s, f := t.f, dst := waitDest i, flags := 0, count := 0, lsq := [] }

/-- The focused seat at its younger instructions. -/
def State.onAhead (s : State) (a : Ahead) : State :=
  s.withTh { s.th with pc := a.pc, s := a.s, f := a.f, run := .running, lsq := s.th.lsq ++ a.lsq }

/-- The focused seat, which waits at `i`, after its next younger instruction has taken `u` to `v`. Its stores are performed after `i`, but
behind an `await` or an `acopy`, which have passed every check, and it counts in RETIRED and RETSUM after `i`. -/
def State.keepAhead (s : State) (k : WaitKind) (a : Ahead) (u v : State) : State :=
  let new := v.th.lsq.drop u.th.lsq.length
  let free := match k with | .copy _ | .copyRoom => true | _ => false
  let off := 0x1000 + 8 * dieOf (coreOf s.cur)
  let a := { a with
    pc := v.th.pc, s := v.th.s, f := v.th.f, flags := a.flags ||| v.th.get .fflags, count := a.count + 1
    lsq := if free then a.lsq else a.lsq ++ new }
  { v with
    th := { v.th with
      pc := s.th.pc, s := s.th.s, f := s.th.f, csr := s.th.csr, run := s.th.run, ahead := some a
      lsq := if free then s.th.lsq ++ new else s.th.lsq }
    fleet := { v.fleet with cnt := Map.put 0 v.fleet.cnt off (Map.get 0 s.fleet.cnt off) } }

/-- The next younger instruction of the focused seat, which waits at `i`, runs, where it can: it is a scalar one that reads no register
that `i` has still to write, neither waits nor traps, and accesses memory as it may. A store enters the queue; one that is performed at once
waits for `i`. -/
noncomputable def State.aheadStep (s : State) (k : WaitKind) (i : Instr) : State :=
  let a := s.th.ahead.getD (s.th.aheadStart i)
  let u := (s.onAhead a).fetchLines
  match u.fetch with
  | .run j =>
    let stores := (((encode j).getLast?).bind u.scalarSpan).any (fun x => x.1)
    if u.mustWait j ∨ !u.mayPass k j then s
    else
      match exec j (u.issue j) with
      | .next v =>
        if !ranAhead j u v ∨ !u.th.lsq.isPrefixOf v.th.lsq ∨ v.th.lsq.length ≠ u.th.lsq.length + (if stores then 1 else 0) then s
        else
          match a.dst with
          | none => s.keepAhead k a u v
          | some r =>
            match (u.issue j).unread j r v with
            | some wr => s.keepAhead k (if wr then { a with dst := none } else a) u v
            | none => s
      | _ => s
  | _ => s

/-- Seat `n`, which waits at an instruction of its vector queue, runs the next scalar instruction (R307, R316): no thread that is being
stopped does (spec/22_translation_faults_preemption.md R458). -/
noncomputable def State.runAhead (s : State) (n : Nat) : State :=
  let u := s.focus n
  match u.th.run, u.fetch with
  | .waiting k, .run i =>
    if k.passes ∧ (vqEntry u.th i).isSome ∧ !ordersAll i ∧ u.th.stopping.isNone ∧ !u.vspHeld ∧ !u.stopped then
      (u.aheadStep k i).focus s.cur
    else s
  | _, _ => s

end Sys2Proof.Machine
end

