-- ==== Sys2Proof/Machine/Turn.lean ====
section
/-! DEFINITION. What an agent does when it is its turn (log 5): a seat runs its next instruction, completes a stop, or brings about
what it waits for; and which agent moves when the schedule names none. -/

namespace Sys2Proof.Machine

/-- The traps of orders 2 to 5 of R113 that an instruction's own checks can raise (spec/03_encoding.md). -/
def orderedTraps : List Trap :=
  [.illegal 0x01, { cause := 0x02 }, .illegal 0x06, .illegal 0x07, { cause := 0x11 }]

/-- The trap of orders 2 to 5 that an instruction takes here, if it takes one. -/
noncomputable def State.ownTrap (s : State) (i : Instr) : Option Trap :=
  orderedTraps.find? (fun x => match exec i s with | .next t => decide (t = s.takeTrap x) | _ => false)

/-- Two halves that make no pair (R109): the checks of either that come before order 6 of R113, else sub-cause 0x05. -/
noncomputable def State.pairTrap (s : State) (a b : Instr) : Trap :=
  ((s.ownTrap a).orElse (fun _ => s.ownTrap b)).getD (.illegal 0x05)

/-- An event happens here: it changes the state. -/
def State.enabled (s : State) (i : Instr) : Bool :=
  match exec i s with
  | .next t => decide (t ≠ s)
  | _ => true

/-- What frees an entry for the focused seat: its oldest store is performed, or its vector queue, or the matrix unit that it shares
with the core's seats, moves on. -/
noncomputable def State.freeing (s : State) : List Instr :=
  let n := s.cur
  .storePerformed n 0 :: .vectorComplete n :: .vectorDispatch n ::
    (List.range 32).map (fun k => .elementGroupEntry n k) ++
    [.matrixRowStart (coreOf n)] ++ (seatsOf (coreOf n)).map (fun m => .vectorComplete m)

/-- The younger instructions of a stopped one, run aside (spec/22_translation_faults_preemption.md R449): the state as they would leave it,
the thread with what they may have written before the stop, the registers not yet whole with how many of their first units hold values,
those that hold values of instructions chained on the stopped one, the units below which VL is known where an instruction in hand sets it
(R312) and whether that is so of the stopped one, the scalar and f registers that instructions in hand have still to write, the units that
these occupy, their sources, and whether one of them may store. -/
structure Younger where
  u : State
  th : Thread
  left : List (Nat × Nat)
  deps : List Nat
  vl : Option (Nat × Bool)
  xs : List SReg
  fs : List SReg
  busy : List VUnit
  srcs : List Nat
  stores : Bool

/-- How many of their first units the registers `rs` all hold, at most `n`. -/
def Younger.done (y : Younger) (rs : List Nat) (n : Nat) : Nat :=
  (y.left.filter (fun x => rs.contains x.1)).foldl (fun m x => Nat.min m x.2) n

/-- A register of `rs` is not yet whole. -/
def Younger.waits (y : Younger) (rs : List Nat) : Bool := y.left.any (fun x => rs.contains x.1)

/-- An entry chains on what is not yet whole (R309 to R311): it is element-wise on the lanes, a load that reads its mask, or an `fx`; its
unit is not occupied, all it must have whole is so, and its destination overlaps no source of its own or of an older instruction in hand. -/
def Younger.chains (y : Younger) (e : VqEntry) : Bool :=
  decide (e.unit = .lane ∨ e.unit = .memory ∨ e.unit = .fabric) && !e.writes.isEmpty && e.byGroup && !y.busy.contains e.unit &&
  !y.waits e.needs && !meets e.writes (e.reads ++ e.needs ++ y.srcs)

/-- The state with the scalar registers `xs` and the f registers `fs` of another thread. -/
def State.mixed (s : State) (a : Thread) (xs fs : List SReg) : State :=
  let s := xs.foldl (fun s r => s.setX r (a.x r)) s
  s.withTh (fs.foldl (fun t r => t.setFr r (a.fr r)) s.th)

open Classical in
/-- The scalar registers that an instruction writes here. -/
noncomputable def State.writesX (u : State) (i : Instr) : List SReg :=
  ((List.range 31).map (fun r => BitVec.ofNat 5 (r + 1))).filter (fun r =>
    decide (waitDest i = some r) || decide (∃ x v, exec i (u.setX r x) = .next v ∧ v.x r ≠ x))

open Classical in
/-- The f registers that an instruction writes here. -/
noncomputable def State.writesF (u : State) (i : Instr) : List SReg :=
  ((List.range 32).map (fun r => BitVec.ofNat 5 r)).filter (fun r =>
    decide (∃ x v, exec i (u.withTh (u.th.setFr r x)) = .next v ∧ v.th.fr r ≠ x))

/-- The instruction, which takes the state aside to `v`, leaves a scalar or f register that is still to come as it is or writes it, and
reads none. -/
def Younger.blind (y : Younger) (i : Instr) (v : State) (xs fs : List SReg) : Prop :=
  ∀ a : Thread, exec i (y.u.mixed a y.xs y.fs) = .next (v.mixed a xs fs)

/-- An entry that has entered `lim` units of its `n`, and goes no further: its registers are not whole, it occupies its unit, and it keeps
its sources. -/
def Younger.hold (y : Younger) (e : VqEntry) (lim n : Nat) : Younger :=
  { y with
    left := e.writes.map (fun r => (r, lim)) ++ y.left
    busy := if lim < n then e.unit :: y.busy else y.busy
    srcs := y.srcs ++ e.reads ++ e.needs
    stores := y.stores || e.inOrder || (decide (e.unit = .memory) && e.writes.isEmpty) }

/-- Register `r` as it is in `v`. -/
def Thread.takeReg (t v : Thread) (r : Nat) : Thread :=
  if v.vvalid.getLsbD r then (List.range (t.capacity 32)).foldl (fun t i => t.setElem r 32 i (v.elem r 32 i)) t else t

/-- The focused thread at `lim` units of its next vector instruction. -/
def Thread.atUnits (t : Thread) (lim : Nat) : Thread :=
  (t.set .vl (BitVec.ofNat 64 (Nat.min t.vl (lim * unitElems (vtFmt t.vt))))).set .vtype (t.vt &&& ~~~(0x200#64))

/-- The focused seat's `fx` after at most so many of its events, as long as its records name no element from `lim` on. -/
noncomputable def State.fxUpTo (lim : Nat) : Nat → State → State
  | 0, s => s
  | n + 1, s =>
    match s.th.fx with
    | none => s
    | some r =>
      let e : Instr := if r.started then (match s.nextPlace r with | some p => .nodeFire s.cur p.1 p.2 | none => .fxEndOfStream s.cur)
        else .fxStart s.cur
      match exec e s with
      | .next t =>
        (match t.th.fx with
         | some x => if x.records.all (fun p => decide (p.1 < lim ∨ (p.1 = lim ∧ p.2 = 0))) then t.fxUpTo lim n else s
         | none => s)
      | _ => s

/-- The thread after the first `lim` units of `i`, which makes the entry `e`: of an `fx`, what its commit points have passed after some
number of its events (R300, R310); `none` where it would not complete. -/
noncomputable def State.partly (u : State) (i : Instr) (e : VqEntry) (lim : Nat) : Option Thread :=
  if e.unit = .fabric then
    match exec i u with
    | .next w =>
      let w := w.fxUpTo lim (Config.freeNat (u.pick (2 ^ 57)) % 2 ^ 20)
      w.th.fx.map (fun r => w.th.fxOutputs r (Nat.min r.committed lim))
    | _ => none
  else
    match exec i (u.withTh (u.th.atUnits lim)) with
    | .next w => if completes u w then some w.th else none
    | _ => none

open Classical in
/-- The at most `n` next younger instructions behind the stopped one. One that uses nothing that is not whole runs; one that chains writes
some groups below what it chains on, how many being free, and they show where that leads back to the stopped one; any other of the vector
queue waits aside, and so does what it would write. Nothing goes past one that waits for the queue to empty, that traps, that needs a scalar
register still to come, that loads behind one in hand that may store, or that waits aside and sets VL or the grant. -/
noncomputable def Younger.run : Nat → Younger → Younger
  | 0, y => y
  | n + 1, y =>
    match y.u.fetch with
    | .run i =>
      let t := y.u.th
      let next := t.pc + BitVec.ofNat 57 (4 * (encode i).length)
      let wx := y.u.writesX i
      let wf := y.u.writesF i
      let xs := y.xs.filter (fun r => !wx.contains r)
      let fs := y.fs.filter (fun r => !wf.contains r)
      (match exec i y.u with
       | .next v =>
         if afterVq i ∨ ¬y.blind i v xs fs then y
         else
           (match vqEntry t i with
            | none =>
              let loads := usesLsq i && !(((encode i).getLast?).bind y.u.scalarSpan).any (fun x => x.1)
              if completes y.u v ∧ !(y.stores ∧ loads) then ({ y with u := v, xs := xs, fs := fs } : Younger).run n else y
            | some e =>
              let past : Younger := { y with u := y.u.withTh { t with pc := next }, xs := y.xs ++ wx, fs := y.fs ++ wf }
              let aside : Younger := if e.setsVl ∨ baseMajor i = 0x16 ∨ baseMajor i = 0x17 then y else (past.hold e 0 1).run n
              if y.vl.isNone ∧ !y.waits (e.reads ++ e.needs ++ e.writes) ∧ !y.busy.contains e.unit ∧ e.unit ≠ .fabric then
                if completes y.u v ∧ v.th.pc = next then ({ y with u := v, xs := xs, fs := fs } : Younger).run n
                else match v.th.run with
                  | .waiting c => if c.passes then aside else y
                  | _ => y
              else
                let per := t.lanes * 64 / t.ew
                let m := y.done (e.reads ++ e.writes) ((y.vl.map Prod.fst).getD t.vlc)
                let lim := Config.freeNat (y.u.pick (2 ^ 57 + n)) % (m / per + 1) * per
                let mine := y.vl.any Prod.snd || meets e.reads y.deps
                match (if y.chains e ∧ 0 < lim then y.u.partly i e lim else none) with
                | some w =>
                  let take (a : Thread) : Thread := e.writes.foldl (fun a r => a.takeReg w r) a
                  let y : Younger := { past with
                    u := y.u.withTh { take t with pc := next }
                    th := if mine then take y.th else y.th
                    deps := if mine then e.writes ++ y.deps else y.deps.filter (fun r => !e.writes.contains r)
                    vl := if e.setsVl then some (lim, mine) else y.vl }
                  (y.hold e lim t.vlc).run n
                | none => aside)
       | _ => y)
    | _ => y

/-- Causes that an instruction of the vector queue raises before any unit of it runs. -/
def issueCauses : List Nat := [0x01, 0x02, 0x09, 0x0A, 0x0E, 0x11, 0x13]

/-- A trap of the focused seat, which ran `e`, left VSTART at the unit where it stopped: EELEM, or bits 63..32 of UCAUSE, names that unit,
but for a lattice descriptor, and it was none of the checks made at issue. -/
def State.stoppedAtUnit (s : State) (e : VqEntry) (t : State) : Bool :=
  let user := !t.th.priv
  let c := (t.th.get (if user then .ucause else .ecause)).toNat
  let elem := if user then c / 2 ^ 32 else (t.th.get .eelem).toNat
  decide (e.unit ≠ .control ∧ t.th.vstart ≠ 0 ∧ t.th.run = .running ∧ t.th.get .retired = s.th.get .retired) &&
  decide (t.th.pc = (t.th.get (if user then .uvec else .evec)).extractLsb' 0 57) &&
  !issueCauses.contains (c % 256) && decide (elem = t.th.vstart % 2 ^ 32 ∨ c % 256 = 0x0B)

/-- What younger instructions may have written when an instruction has stopped at unit k (spec/22_translation_faults_preemption.md R449):
groups [0, j) of the destinations of those that chain on it, where every unit of those groups lies below k. How many they are, and j,
are free (log 3). -/
noncomputable def State.chainWrites (s : State) (i : Instr) (t : State) : State :=
  match vqEntry s.th i with
  | none => t
  | some p =>
    if !s.stoppedAtUnit p t then t
    else
      let k := t.th.vstart
      let th := { s.th with
        slices := t.th.slices, vvalid := t.th.vvalid, run := .running, fx := none
        pc := s.th.pc + BitVec.ofNat 57 (4 * (encode i).length) }
      let y : Younger := {
        u := { t with th := th.set .vstart 0 }, th := t.th, left := p.writes.map (fun r => (r, if p.byGroup then k else 0))
        deps := p.writes, vl := if p.setsVl then some (k, true) else none, xs := [], fs := [], busy := [], srcs := p.reads ++ p.needs, stores := false }
      let y := y.run (Config.freeNat (s.pick (2 ^ 58)) % 32)
      { t with th := { t.th with slices := y.th.slices, vvalid := y.th.vvalid } }

/-- An event happens. Where it makes an `fx` fault, younger instructions may have chained on the outputs it committed (R310, R449). -/
noncomputable def State.happen (s : State) (i : Instr) : Out :=
  match i, exec i s with
  | .nodeFire n _ _, .next t =>
    let u := s.focus n
    (match u.fetch with
     | .run f => .next ((u.chainWrites f (t.focus n)).focus t.cur)
     | _ => .next t)
  | _, o => o

/-- The focused seat fetches and runs its next instruction, or takes the trap of its fetch; an instruction without a queue entry
waits, and what frees one goes on. -/
noncomputable def State.runNext (s : State) : Out :=
  let s := s.fetchLines
  match s.fetch with
  | .trap x => .next (s.takeTrap x)
  | .badPair a b => .next (s.takeTrap (s.pairTrap a b))
  | .run i =>
    if s.mustWait i then (match s.freeing.find? s.enabled with | some e => exec e s | none => .next s)
    else match exec i (s.issue i) with | .next t => .next (s.chainWrites i t) | o => o

/-- The events that can end the wait of seat `n`. -/
noncomputable def State.waitEvents (s : State) (n : Nat) : WaitKind → List Instr
  | .cells _ _ _ _ _ _ _ _ => [.ltwSatisfied n, .ltwtoExpiry n]
  | .event _ => [.waitResume n]
  | .cbar => match (s.seat n).grp with | some (q, k) => [.cbarRelease (coreOf n) q k] | none => []
  | .copy h => [.acopyComplete n h, .copyEnginePageFault n h]
  | .copyRoom => (s.outstanding n).flatMap (fun (c : Copy) => [.acopyComplete n c.handle, .copyEnginePageFault n c.handle])
  | .sendRoom _ => [.vsendRoom n]
  | .message next => [.messageArrival (coreOf n) next]
  | .lanes _ | .firstLanes _ | .restoreLanes _ =>
    [.shortSeatServe (coreOf n)] ++ (seatsOf (coreOf n)).map (fun m => .reflowComplete (coreOf n) m)
  | .tile tb _ => [.tileLoadComplete n tb]
  | .fx =>
    .fxStart n :: (match (s.seat n).fx with
      | none => []
      | some r => r.img.places.map (fun p => .nodeFire n p.1 p.2) ++ [.fxEndOfStream n, .preemptionCut n] ++
          (s.copies.filter (fun (c : Copy) => c.status.isNone)).map (fun (c : Copy) => .acopyComplete c.seat c.handle) ++
          (s.remotes.filter (fun (o : RemoteOp) => decide (o.seat = n))).map (fun (o : RemoteOp) => .linkTimeout o.tag) ++
          [.storePerformed n 0])
  | .fabricEntry => []
  | .remote tag _ => [.linkTimeout tag]
  | .vspcfg => [.vspcfgTakesEffect (coreOf n)]

/-- What seat `n` waits for can happen now. -/
noncomputable def State.waitEvent (s : State) (n : Nat) (k : WaitKind) : Option Instr := (s.waitEvents n k).find? s.enabled

/-- The thread in focus is being stopped and has nothing in flight that completes by issuing again
(spec/22_translation_faults_preemption.md R458). -/
def State.stopHeld (s : State) : Bool :=
  s.th.stopping.isSome && !s.th.priv && s.myRemotes.isEmpty && decide (s.th.finishing ≠ some s.th.pc)

/-- The focused seat issues nothing: a VSPCFG write waits, the throttle takes the cycle (spec/25_fleet_operation.md R489), the device is
stopped, or the thread is being stopped. -/
def State.issueHeld (s : State) : Bool :=
  s.vspHeld || decide (8 ≤ s.fleet.thr ∧ s.cycle % 16 < s.fleet.thr - 7) || s.stopped || s.stopHeld

/-- What still happens to a stopped device: starts, samples, and requests of the host, which find nothing (spec/24_startup.md R485). -/
def worksStopped (i : Instr) : Bool :=
  match i with
  | .stcmdWarm _ _ | .stcmdCold _ _ | .powerApplied _ | .warmReset _ | .tripRecoveryStart _ | .powerSample _ | .temperatureSample _
  | .bar2Read _ _ _ | .bar2Write _ _ _ | .registerWrite _ _ _ _ | .fleetCounterRead _ | .qerrRead _ _ | .setcfgRead _ => true
  | _ => false

/-- The focused seat's turn. -/
noncomputable def State.turn (s : State) : Out :=
  let s := s.mergeSeat s.cur
  if s.stopDone s.cur then .next (s.finishStop s.cur)
  else
    match s.th.run with
    | .running => if s.issueHeld then .next s else s.runNext
    | .waiting k => (match s.waitEvent s.cur k with | some i => s.happen i | none => .next s)
    | _ => .next s

/-- A part of a copy's transfer, on a device that is not stopped (log 12). -/
def State.copyTurn (s : State) (seat handle off n : Nat) (write : Bool) : State :=
  if s.stopped then s else s.copyPart seat handle off n write

/-- Seat `n` can move. -/
noncomputable def State.canMove (s : State) (n : Nat) : Bool :=
  match (s.seat n).run with
  | .running => true
  | .waiting k => (s.waitEvent n k).isSome
  | _ => false

/-- What the device does when no seat can move: records leave their queues, tasks are placed, groups complete, saved threads come
back. -/
noncomputable def State.deviceEvents (s : State) : List Instr :=
  (List.range 64).map (fun q => .gateTest q) ++ [.taskPlacement, .gangPlacement] ++
  s.saved.map (fun (x : Saved) => .contextRestore x.token) ++
  s.copies.map (fun (c : Copy) => .acopyComplete c.seat c.handle) ++
  s.groups.map (fun (g : Group) => .groupCompletion g.queue g.seq) ++
  s.groups.map (fun (g : Group) => .seatPreemption g.queue g.seq) ++
  (List.range s.settleMsgs.length).map (fun k => .settleBlockReceive k) ++
  s.changes.map (fun (c : Change) => .settleRound c.lrt c.idx)

/-- The turn of the agent that the model lets move when the schedule is empty: the focused seat if it can move, else another seat,
else the device, else what can run ahead of a seat that waits. -/
noncomputable def State.anyTurn (s : State) : Out :=
  if s.th.run = .running then s.turn
  else
    match s.allSeats.find? s.canMove with
    | some n => (s.focus n).turn
    | none =>
      match s.deviceEvents.find? s.enabled with
      | some i => exec i s
      | none => .next ((s.allSeats.findSome? (fun n => if s.runAhead n = s then none else some (s.runAhead n))).getD s)

end Sys2Proof.Machine
end

