-- ==== Sys2Proof/Machine/Step.lean ====
section
/-! DEFINITION. One step of the device: the agent whose turn it is moves (log 5). -/

namespace Sys2Proof.Machine

/-- One step: time passes, then the agent at the head of the schedule moves; with an empty schedule the seat in focus, or, when it
cannot, another agent. -/
noncomputable def step (s : State) : Host.Outcome State Fault Refusal :=
  match s.sched with
  | [] => if s.stopped then .fault .deviceStopped else s.tick.anyTurn
  | .seat n :: rest => ({ s.tick with sched := rest }.focus n).turn
  | .event i :: rest => if i.isEvent ∧ (s.stopped → worksStopped i) then ({ s.tick with sched := rest } : State).happen i else .next { s.tick with sched := rest }
  | .ahead n :: rest => .next (({ s.tick with sched := rest } : State).runAhead n)
  | .part seat h off n write :: rest => .next (({ s.tick with sched := rest } : State).copyTurn seat h off n write)

/-- The focused seat takes the next turn, and nothing keeps it from its next instruction: the device is not stopped, and nothing holds
its issue. -/
def State.readyToFetch (s : State) : State :=
  let c := coreOf s.cur
  let s := if (s.core c).vspPending.isNone then s else s.setCore c { s.core c with vspPending := none }
  { s with
    sched := [.seat s.cur], th := { s.th with run := .running, stopping := none, ahead := none }, fleet := { s.fleet with thr := Nat.min 7 s.fleet.thr }
    start := { s.start with state := if s.start.state = 3 then 2 else s.start.state, tripped := false } }

/-- The state with an instruction of the table, whose words are the bits of `w`, where the next step fetches: the pc is
mapped if it is not, and the focused seat is ready to run it. -/
def State.withFetchWord (s : State) (nbits w : Nat) : State :=
  let s := s.readyToFetch
  let s := if s.pcMapped then s else s.mapPc
  match s.access s.ctx .fetch false (s.th.pc.setWidth 64) 4 0 with
  | .ok l => s.placeAt l.pa (w % 2 ^ nbits)
  | .error _ => s

end Sys2Proof.Machine
end

