-- ==== Sys2Proof/Machine/HostRead.lean ====
section
/-! DEFINITION. What a host's read of BAR0 completes with (spec/23_host_and_links.md R465 to R467, R470, R477; spec/24_startup.md R486;
spec/25_fleet_operation.md R488 to R496). Reading changes nothing but where an event of the table says so (QERR_READ, SETCFG_READ,
FLEET_COUNTER_READ); the values here are those such reads return too. -/

namespace Sys2Proof.Machine

/-- What configuration space says of a function (R465): vendor, device, class code, revision. -/
def configId (fn : Nat) : Nat × Nat × Nat × Nat := (0xD6A9, if fn = 0 then 0x0612 else 0x0613, 0x120000, 0x01)

/-- The identity word (R486): vendor, device, stepping. -/
def identityWord : Nat := 0xD6A9 + 0x0612 * 2 ^ 16 + 0x01 * 2 ^ 32

/-- STATE of STSTAT. A tripped device waits for its start (log 41). -/
def StartSt.shown (x : StartSt) : Nat := if x.tripped then 1 else x.state

/-- STSTAT (R486). -/
def StartSt.ststat (x : StartSt) : Nat :=
  x.fcode % 256 * 2 ^ 56 + x.wcode % 256 * 2 ^ 48 + x.fdet % 256 * 2 ^ 40 + x.step % 16 * 2 ^ 36 + x.wfail % 4 * 2 ^ 34 +
  x.kind % 4 * 2 ^ 32 + x.shown % 16

/-- The start status block (R486), which can be read in every state; STCMD is write-only. -/
def State.startReg (s : State) (off : Nat) : Nat :=
  match off with
  | 0x00 => identityWord
  | 0x08 => s.start.ststat
  | 0x18 => s.start.starts
  | _ => 0

/-- KSTAT (R477). KCNT has ten bits: 1,024 keys read as 0. -/
def State.kstat (s : State) : Nat :=
  (if s.keyCmd.isSome then 2 ^ 63 else 0) + s.keys.length % 1024 * 2 ^ 32 +
  s.keyLid % 1024 * 2 ^ 16 + s.keyRes % 256

/-- A word with one bit for each number of a list from `lo` to `lo` + 63. -/
def bitsFrom (lo : Nat) (ns : List Nat) : Nat :=
  (List.range 64).foldl (fun a k => if ns.contains (lo + k) then a + 2 ^ k else a) 0

/-- REPL as a word: UNIT describes the lowest bit set (R496). -/
def Fleet.repl (f : Fleet) : Nat :=
  let unit := match (List.range 5).find? (fun b => f.replBits.getLsbD b) with
    | some b => ((f.replUnit.find? (fun (e : Nat × Nat) => decide (e.1 = b))).map Prod.snd).getD 0
    | none => 0
  f.replBits.toNat + unit * 256

/-- A register of the fleet block (R488 to R496). -/
def State.fleetReg (s : State) (off : Nat) : Nat :=
  let f := s.fleet
  if 0x1000 ≤ off ∧ off < 0x14B0 then s.counterValue off
  else if 0x40 ≤ off ∧ off < 0x70 then (s.die ((off - 0x40) / 8)).temp
  else
    match off with
    | 0x00 => f.pcap
    | 0x08 => f.power + f.thr * 2 ^ 16
    | 0x10 => f.rtlim
    | 0x18 => f.hbcfg.toNat
    | 0x20 => f.repl
    | 0x80 => bitsFrom 0 f.deadCores
    | 0x88 => bitsFrom 64 f.deadCores
    | 0x90 => bitsFrom 128 f.deadCores
    | 0x98 => bitsFrom 0 f.deadDies
    | 0xA0 => bitsFrom 0 f.deadPeers
    | 0xA8 => bitsFrom 64 f.deadPeers
    | _ => 0

/-- A register of a function's fault queue (spec/22_translation_faults_preemption.md R452); FQRESP is write-only. -/
def FaultQ.reg (q : FaultQ) (off : Nat) : Nat :=
  match off with
  | 0x00 => q.base.toNat
  | 0x08 => q.prod
  | 0x10 => q.cons
  | 0x20 => q.ctl.toNat
  | _ => 0

/-- A register of an intake window (spec/21_launch_and_scheduling.md R427); staging is write-only. -/
def Queue.reg (x : Queue) (off : Nat) : Nat :=
  match off with
  | 0x40 => 256 - x.recs.length
  | 0x48 => x.ctl.toNat
  | 0x50 => x.pt.toNat
  | 0x58 => x.lrt.toNat
  | 0x60 => x.slot.toNat
  | 0x68 => x.cr.toNat
  | 0x70 => x.seq
  | 0x78 => x.err
  | _ => 0

/-- The eight bytes at an offset of a function's BAR0; offsets without a register read zero (R467). -/
def State.bar0Word (s : State) (fn off : Nat) : Nat :=
  if 0x80000 ≤ off ∧ off < 0x81000 then (s.fq fn).reg (off - 0x80000)
  else if 0x100000 ≤ off ∧ off < 0x140000 then (s.queue ((off - 0x100000) / 0x1000)).reg (off % 0x1000)
  else if 0x8000000 ≤ off then ((ctlReg (off - 0x8000000)).map s.ctlValue).getD 0
  else if 0x50000 ≤ off ∧ off < 0x52000 then s.fleetReg (off - 0x50000)
  else if off = 0x10008 then s.kstat
  else
    match s.hostReg fn off with
    | some (.vf v) => (s.hostValue (.vf v)).toNat
    | some .pfown => s.pfown
    | some .pfwin => s.pfwin.toNat
    | some .fcfg => s.devnum + s.lto * 2 ^ 32
    | some (.route n) => (s.hostValue (.route n)).toNat
    | _ => 0

/-- What a read of `size` bytes of a function's BAR0 completes with (R467): the start status in every state, else zero while the
device is not READY (spec/24_startup.md R485); nothing once the host link has ended (R479). -/
def State.hostRead (s : State) (fn off size : Nat) : Option Completion :=
  if s.hostGone then none
  else if !s.fnUp fn ∨ !s.requestOk fn off size then some .unsupported
  else
    let w := if off < 0x20 then s.startReg (off / 8 * 8) else if s.ready then s.bar0Word fn (off / 8 * 8) else 0
    some (.data (natLe size (w / 2 ^ (8 * (off % 8)))))

end Sys2Proof.Machine
end

