-- ==== Sys2Proof/Safety.lean ====
section
/-! DEFINITION. What a safe run is, and what it means for an instruction to leave a part of the state as it was: the
terms the statements use. -/

namespace Sys2Proof.Safety

open Sys2Proof.Machine

/-- The step answers a next state: no stop and no instruction without a meaning. -/
def Continues (s : State) : Prop := ∃ t, step s = .next t

/-- Memory is canonical in a state. -/
def MemoryWf (s : State) : Prop := Memory.wf s.mem = true

/-- A run of `k` steps from `s` that never stops, and where memory stays canonical. -/
def SafeRun : Nat → State → Prop
  | 0, s => MemoryWf s
  | k + 1, s => MemoryWf s ∧ ∃ t, step s = .next t ∧ SafeRun k t

/-! ## What an instruction leaves -/

/-- Every scalar register but those of `ds` reads as before. -/
def KeepsScalars (ds : List SReg) (s t : State) : Prop := ∀ r, r ∉ ds → t.th.x r = s.th.x r

/-- Every f register but those of `ds` reads as before. -/
def KeepsFloats (ds : List SReg) (s t : State) : Prop := ∀ r, r ∉ ds → t.th.fr r = s.th.fr r

/-- Every control register of the thread but those of `cs` reads as before. -/
def KeepsCsrs (cs : List Csr) (s t : State) : Prop := ∀ c, c ∉ cs → t.th.get c = s.th.get c

/-- Every vector register reads as before, and is valid where it was. -/
def KeepsVectors (s t : State) : Prop := t.th.slices = s.th.slices ∧ t.th.vvalid = s.th.vvalid

/-- Both tile registers are as before. -/
def KeepsTiles (s t : State) : Prop := t.th.tb0 = s.th.tb0 ∧ t.th.tb1 = s.th.tb1

/-- Every byte of memory reads as before, with its line's owner and poison, and no store waits that did not. -/
def KeepsMemory (s t : State) : Prop :=
  (∀ pa, t.rawByte pa = s.rawByte pa) ∧ t.lines = s.lines ∧ t.vspTags = s.vspTags ∧ t.th.lsq = s.th.lsq

/-- The stored bytes, the lines' owners and poison, and the pending stores are as before: what `KeepsMemory` says of an instruction
that also changes a core's record, on which the place of a scratchpad byte depends. -/
def KeepsStore (s t : State) : Prop :=
  t.mem = s.mem ∧ t.lines = s.lines ∧ t.vspTags = s.vspTags ∧ t.th.lsq = s.th.lsq

/-- Nothing outside the focused thread and the counters of the fleet block changes: no other seat, core, table, queue,
link or key. -/
def KeepsDevice (s t : State) : Prop := t = { s with th := t.th, fleet := t.fleet } ∧ t.fleet = { s.fleet with cnt := t.fleet.cnt }

/-- The focused thread has passed an instruction of `words` words: the pc stands behind it, the thread runs, RETIRED counts it. -/
def Passes (words : Nat) (s t : State) : Prop :=
  t.th.pc = s.th.pc + BitVec.ofNat 57 (4 * words) ∧ t.th.run = .running ∧ t.th.get .retired = s.th.get .retired + 1

/-- The instruction answers a next state of which `P` holds. -/
def Answers (i : Instr) (s : State) (P : State → Prop) : Prop := ∃ t, exec i s = .next t ∧ P t

/-- The instruction takes trap `x`: the next state is `s` after the entry of R41 or R42, and nothing else of the
instruction has happened. -/
def Traps (i : Instr) (s : State) (x : Trap) : Prop := exec i s = .next (s.takeTrap x)

/-! ## Accesses -/

/-- An access of `n` bytes at `va` passes checks 1 to 4 of R144 on this device and lands at `l`, outside control space. -/
def Lands (s : State) (k : Acc) (ctl : Bool) (va : Word) (n : Nat) (l : Loc) : Prop :=
  s.remoteOf va = none ∧ s.access s.ctx k ctl va n 0 = .ok l ∧ paKind l.pa ≠ .ctl

/-- The number a load of the focused seat finds in `n` bytes at `pa`: for each byte the seat's youngest pending store to it,
else memory (R145). -/
def loadValue (s : State) (pa n : Nat) : Nat :=
  leNat ((List.range n).map (fun i => forward s.th.lsq (pa + i) (s.byteAs s.th.owner (pa + i))))

/-- The load forms with an offset: instruction, address, bytes, signed (R87, R143). -/
def loadForms (s : State) (d a b : SReg) (q : Bool) (i : BitVec 10) : List (Instr × Word × Nat × Bool) :=
  let off (n : Nat) : Word := s.th.x a + BitVec.ofInt 64 (i.toInt * n)
  let idx : Word := s.th.x a + s.th.x b
  [(.ldB d a q i, off 1, 1, true), (.ldH d a q i, off 2, 2, true), (.ldW d a q i, off 4, 4, true), (.ldD d a q i, off 8, 8, false),
   (.ldBu d a q i, off 1, 1, false), (.ldHu d a q i, off 2, 2, false), (.ldWu d a q i, off 4, 4, false),
   (.ldBIndexed d a b q, idx, 1, true), (.ldHIndexed d a b q, idx, 2, true), (.ldWIndexed d a b q, idx, 4, true),
   (.ldDIndexed d a b q, idx, 8, false), (.ldBuIndexed d a b q, idx, 1, false), (.ldHuIndexed d a b q, idx, 2, false),
   (.ldWuIndexed d a b q, idx, 4, false)]

/-- The store forms: instruction, address, bytes (R87, R143). -/
def storeForms (s : State) (d a b : SReg) (q : Bool) (i : BitVec 10) : List (Instr × Word × Nat) :=
  let off (n : Nat) : Word := s.th.x a + BitVec.ofInt 64 (i.toInt * n)
  let idx : Word := s.th.x a + s.th.x b
  [(.stB d a q i, off 1, 1), (.stH d a q i, off 2, 2), (.stW d a q i, off 4, 4), (.stD d a q i, off 8, 8),
   (.stBIndexed d a b q, idx, 1), (.stHIndexed d a b q, idx, 2), (.stWIndexed d a b q, idx, 4), (.stDIndexed d a b q, idx, 8)]

/-- The atomics on `8 * n` bits with the value each writes from the old one, or none (R148). -/
def atomicForms (s : State) (d a b : SReg) (dbl rel acq : Bool) (w old : Nat) : List (Instr × Option Nat) :=
  let m := (s.th.x b).toNat % 2 ^ w
  let i (v : Nat) : Int := (BitVec.ofNat w v).toInt
  [(.amoAdd d a b dbl rel acq, some ((old + m) % 2 ^ w)), (.amoAnd d a b dbl rel acq, some (Nat.land old m)),
   (.amoOr d a b dbl rel acq, some (Nat.lor old m)), (.amoXor d a b dbl rel acq, some (Nat.xor old m)),
   (.amoMin d a b dbl rel acq, some (if i m < i old then m else old)), (.amoMax d a b dbl rel acq, some (if i old < i m then m else old)),
   (.amoMinu d a b dbl rel acq, some (if m < old then m else old)), (.amoMaxu d a b dbl rel acq, some (if old < m then m else old)),
   (.amoSwap d a b dbl rel acq, some m), (.cas d a b dbl rel acq, if old = (s.th.x d).toNat % 2 ^ w then some m else none)]

/-! ## Vector instructions -/

/-- What a vector-queue instruction needs at issue (R23, R43, R98, R109, R113): a legal VTYPE, its groups aligned, its registers
in the shape, the format and ports it takes, no second half of a pair reached alone. -/
def VectorReady (s : State) (md : VMod) (aligned : Bool) (regs : List Nat) (formats : Bool) : Prop :=
  vtypeLegal s.th.vt = true ∧ aligned = true ∧ (∀ n ∈ regs, n < s.th.nreg) ∧ formats = true ∧ modP md = false

/-- Every vector register of the shape but those of `ds` holds its bytes, and is valid where it was. -/
def KeepsRegisters (ds : List Nat) (s t : State) : Prop :=
  ∀ r, r < s.th.nreg → r ∉ ds → t.th.vvalid.getLsbD r = s.th.vvalid.getLsbD r ∧
    ∀ k, k < s.th.regBits / 8 * s.th.lanes → t.th.elem r 8 k = s.th.elem r 8 k

/-- The frame of a vector instruction that writes the registers `ds` and the control registers `cs`. -/
def VectorFrame (ds : List Nat) (cs : List Csr) (s t : State) : Prop :=
  KeepsRegisters ds s t ∧ KeepsScalars [] s t ∧ KeepsFloats [] s t ∧ KeepsCsrs (.vstart :: .retired :: cs) s t ∧ KeepsTiles s t ∧
    KeepsMemory s t ∧ KeepsDevice s t

/-- An instruction completes that writes elements of width `w` of the group at `vd`: each active one from VSTART up to `n` takes
`f`; elements below VSTART, those from `n` up to `cap` and, under undisturbed masks, the inactive ones keep their values; VSTART
becomes 0; the registers `ds` and the control registers `cs` are all else it writes (R158). -/
def WritesElements (i : Instr) (s : State) (md : VMod) (vd w n cap : Nat) (f : Nat → Nat) (ds : List Nat) (cs : List Csr) : Prop :=
  Answers i s (fun t => Passes (modWords md) s t ∧ t.th.get .vstart = 0 ∧ VectorFrame ds cs s t ∧
    (∀ k, s.th.vstart ≤ k → k < n → s.th.active md k = true → t.th.elem vd w k = f k) ∧
    (∀ k, k < cap → (k < s.th.vstart ∨ n ≤ k ∨ (s.th.active md k = false ∧ vtMd s.th.vt = false)) →
      t.th.elem vd w k = s.th.elem vd w k))

/-- The same up to the length in units (R161). -/
def ElementWise (i : Instr) (s : State) (md : VMod) (vd w cap : Nat) (f : Nat → Nat) (ds : List Nat) (cs : List Csr) : Prop :=
  WritesElements i s md vd w s.th.vlc cap f ds cs

/-- A vector load completes: register j of `ds` takes `f k j` at each active unit k and keeps its other elements as `ElementWise` says,
with all but the thread as `u`, which is `s` but for what the coherence points did to serve it (R332, R333) or for the accesses to
another device that have been answered. -/
def LoadsElements (i : Instr) (s u : State) (md : VMod) (ds : List Nat) (w cap : Nat) (f : Nat → Nat → Nat) : Prop :=
  Answers i s (fun t => Passes (modWords md) s t ∧ t.th.get .vstart = 0 ∧ VectorFrame ds [] u t ∧ ∀ e ∈ ds.zipIdx,
    (∀ k, s.th.vstart ≤ k → k < s.th.vlc → s.th.active md k = true → t.th.elem e.1 w k = f k e.2) ∧
    (∀ k, k < cap → (k < s.th.vstart ∨ s.th.vlc ≤ k ∨ (s.th.active md k = false ∧ vtMd s.th.vt = false)) →
      t.th.elem e.1 w k = s.th.elem e.1 w k))

/-- A floating-point instruction whose active elements k from VSTART up to `n` give `f k`, `pre` being what the conversion of its
scalar operand gave. Without `.x` and with no enabled flag raised, and always under `.x`, it completes: each active element takes its
result, FFLAGS and VXSAT take the flags raised, and the `.x` register gets a 1 where an element raised a flag of XM. Without `.x`
it stops at the first element that raises an enabled flag, or at VSTART when the conversion did: VSTART names the element, the
elements before it are written, FFLAGS has the flags up to it, and floating-point trap is taken (R194, R196 to R198). -/
def FloatElements (i : Instr) (s : State) (md : VMod) (vd w n : Nat) (pre : FOut) (f : Nat → FOut) (ds : List Nat) : Prop :=
  let lo := s.th.vstart
  let en := s.th.ften
  let on (k : Nat) : Prop := lo ≤ k ∧ k < n ∧ s.th.active md k = true
  let first (k : Nat) : Prop := (pre.fl &&& en ≠ 0 ∧ k = lo ∧ ∃ j, on j) ∨
    (pre.fl &&& en = 0 ∧ on k ∧ (f k).fl &&& en ≠ 0 ∧ ∀ j, on j → j < k → (f j).fl &&& en = 0)
  ((modX md).isSome = true ∨ (∀ k, on k → pre.fl &&& en = 0 ∧ (f k).fl &&& en = 0) →
    Answers i s (fun t => Passes (modWords md) s t ∧ t.th.get .vstart = 0 ∧ VectorFrame (ds ++ xRegs md) [.fflags, .vxsat] s t ∧
      (∀ k, on k → t.th.getAt vd w k = (f k).bits % 2 ^ w) ∧
      (∀ k, k < s.th.vlmax → (k < lo ∨ n ≤ k ∨ (s.th.active md k = false ∧ vtMd s.th.vt = false)) →
        t.th.getAt vd w k = s.th.getAt vd w k) ∧
      (∀ j, (t.th.get .fflags).getLsbD j = true ↔ (s.th.get .fflags).getLsbD j = true ∨
        ∃ k, on k ∧ (pre.fl.getLsbD j = true ∨ (f k).fl.getLsbD j = true)) ∧
      (∀ j, (t.th.get .vxsat).getLsbD j = true ↔ (s.th.get .vxsat).getLsbD j = true ∨
        ∃ k, on k ∧ (pre.sat.getLsbD j = true ∨ (f k).sat.getLsbD j = true)) ∧
      (∀ x, modX md = some x → ∀ k, lo ≤ k → k < n → t.th.maskBit x.toNat k =
        (s.th.active md k && decide ((f k).fl &&& vtXm s.th.vt ≠ 0))))) ∧
  (∀ k, (modX md).isSome = false → first k → ∃ u fl, exec i s = .next (u.takeTrap (fpTrap k fl)) ∧ u.th.vstart = k ∧
    VectorFrame ds [.fflags] s u ∧ (∀ j, on j → j < k → u.th.getAt vd w j = (f j).bits % 2 ^ w) ∧
    (∀ j, j < s.th.vlmax → (j < lo ∨ k ≤ j) → u.th.getAt vd w j = s.th.getAt vd w j) ∧
    (∀ j, (u.th.get .fflags).getLsbD j = true ↔ (s.th.get .fflags).getLsbD j = true ∨ fl.getLsbD j = true) ∧
    (∀ j, fl.getLsbD j = true ↔ pre.fl.getLsbD j = true ∨ ∃ m, on m ∧ m ≤ k ∧ (f m).fl.getLsbD j = true))

/-- A floating-point instruction on the vector as a whole that raises `fl`: under `.x`, or with no flag of `fl` enabled, it
completes, FFLAGS takes `fl`, `P` holds, the f registers `fs` and vector registers `ds` are what it may write, and bit k of the `.x`
register says whether `counted k` has a flag of XM; otherwise floating-point trap is taken at element 0 with only FFLAGS and
VSTART written (R198, R211). -/
def WholeFloat (i : Instr) (s : State) (md : VMod) (fs : List SReg) (ds : List Nat) (fl : BitVec 5) (counted : Nat → BitVec 5)
    (P : State → Prop) : Prop :=
  ((modX md).isSome = true ∨ fl &&& s.th.ften = 0 →
    Answers i s (fun t => Passes (modWords md) s t ∧ t.th.get .vstart = 0 ∧ P t ∧ KeepsRegisters (ds ++ xRegs md) s t ∧
      KeepsScalars [] s t ∧ KeepsFloats fs s t ∧ KeepsCsrs [.vstart, .retired, .fflags] s t ∧ KeepsTiles s t ∧ KeepsMemory s t ∧
      KeepsDevice s t ∧ t.th.get .fflags = s.th.get .fflags ||| fl.setWidth 64 ∧
      (∀ x, modX md = some x → ∀ k, k < s.th.vl → t.th.maskBit x.toNat k = decide (counted k &&& vtXm s.th.vt ≠ 0)))) ∧
  ((modX md).isSome = false → fl &&& s.th.ften ≠ 0 →
    exec i s = .next ((s.withTh ((s.th.set .fflags (s.th.get .fflags ||| fl.setWidth 64)).set .vstart 0)).takeTrap (fpTrap 0 fl)))

/-- The element of a reduction: absent where inactive or at or above VL (R73). -/
def present (s : State) (va : VReg) (md : VMod) (i : Nat) : Option Nat :=
  if i < s.th.vl ∧ s.th.active md i = true then some (s.th.elem va.toNat (vfmtOf s.th.vt).bits i) else none

/-- TreeSum of R73: place `i` of level `h`, and the flags of the steps below it. -/
def treeOf (op : FRedOp) (f : FFmt) (e : FEnv) (x : Nat → Option Nat) : Nat → Nat → Option Nat × BitVec 5
  | 0, i => (x i, 0)
  | h + 1, i =>
    let a := treeOf op f e x h (2 * i)
    let b := treeOf op f e x h (2 * i + 1)
    let r := combine op f e a.1 b.1
    (r.1, a.2 ||| b.2 ||| r.2)

/-- The prefixes of R74 after `l` levels, with the flags of the steps that wrote the place. -/
def scanOf (op : FRedOp) (f : FFmt) (e : FEnv) (x : Nat → Option Nat) : Nat → Nat → Option Nat × BitVec 5
  | 0, i => (x i, 0)
  | l + 1, i =>
    let b := scanOf op f e x l i
    if i < 2 ^ l then b
    else
      let r := combine op f e (scanOf op f e x l (i - 2 ^ l)).1 b.1
      (r.1, b.2 ||| r.2)

/-- The state h of R75 after `i` elements, and the flags of the last step. -/
def recurrenceOf (s : State) (va : VReg) (md : VMod) (h : Nat) : Nat → Nat × BitVec 5
  | 0 => (h, 0)
  | i + 1 =>
    let p := recurrenceOf s va md h i
    let f := vfmtOf s.th.vt
    let v (r : Nat) : FVal := f.read (vtFz s.th.vt) (s.th.elem r f.bits i)
    if s.th.active md i = true then
      let o := fFma fp32 ⟨vtRm s.th.vt, vtFz s.th.vt, vtSat s.th.vt⟩ false false (v va.toNat) (fp32.read (vtFz s.th.vt) p.1)
        (v (va.toNat + 1))
      (o.bits, o.fl)
    else (p.1, 0)

/-- A lattice-format instruction over units [lo, n), `per` of them to a codeword, of which those of `on` are computed. It
completes when none raises an enabled flag; otherwise it stops at the lowest codeword that does, with VSTART at the codeword's
first element (R253). -/
def LatticeElements (i : Instr) (s : State) (md : VMod) (vd w lo n cap per : Nat) (on : Nat → Bool) (f : Nat → FOut) : Prop :=
  let is (k : Nat) : Prop := lo ≤ k ∧ k < n ∧ on k = true
  (( ∀ k, is k → (f k).fl &&& s.th.ften = 0) →
    Answers i s (fun t => Passes (modWords md) s t ∧ t.th.get .vstart = 0 ∧ VectorFrame [vd] [.fflags, .vxsat] s t ∧
      (∀ k, is k → t.th.elem vd w k = (f k).bits % 2 ^ w) ∧
      (∀ k, k < cap → (k < lo ∨ n ≤ k ∨ (on k = false ∧ vtMd s.th.vt = false)) → t.th.elem vd w k = s.th.elem vd w k) ∧
      (∀ j, (t.th.get .fflags).getLsbD j = true ↔ (s.th.get .fflags).getLsbD j = true ∨ ∃ k, is k ∧ (f k).fl.getLsbD j = true) ∧
      (∀ j, (t.th.get .vxsat).getLsbD j = true ↔ (s.th.get .vxsat).getLsbD j = true ∨ ∃ k, is k ∧ (f k).sat.getLsbD j = true))) ∧
  (∀ m k, is k → k / per = m → (f k).fl &&& s.th.ften ≠ 0 → (∀ j, is j → j < m * per → (f j).fl &&& s.th.ften = 0) →
    ∃ u fl, exec i s = .next (u.takeTrap (fpTrap (8 * m) fl)) ∧ u.th.vstart = 8 * m ∧ VectorFrame [vd] [.fflags, .vxsat] s u ∧
      (∀ j, is j → j < m * per → u.th.elem vd w j = (f j).bits % 2 ^ w) ∧
      (∀ j, j < cap → (j < lo ∨ m * per ≤ j) → u.th.elem vd w j = s.th.elem vd w j) ∧
      (∀ j, (u.th.get .fflags).getLsbD j = true ↔ (s.th.get .fflags).getLsbD j = true ∨ fl.getLsbD j = true) ∧
      (∀ j, fl.getLsbD j = true ↔ ∃ q, is q ∧ q / per ≤ m ∧ (f q).fl.getLsbD j = true))

/-- The active units below `n`, ascending. -/
def actives (s : State) (md : VMod) (n : Nat) : List Nat := (List.range n).filter (fun k => s.th.active md k)

/-- A vector instruction completes that writes no vector register: `P` holds of the next state, which keeps all but the scalar
registers `xs`, the f registers `fs` and the control registers `cs`. -/
def WritesScalar (i : Instr) (s : State) (md : VMod) (xs fs : List SReg) (cs : List Csr) (P : State → Prop) : Prop :=
  Answers i s (fun t => Passes (modWords md) s t ∧ t.th.get .vstart = 0 ∧ P t ∧ KeepsVectors s t ∧ KeepsScalars xs s t ∧
    KeepsFloats fs s t ∧ KeepsCsrs (.vstart :: .retired :: cs) s t ∧ KeepsTiles s t ∧ KeepsMemory s t ∧ KeepsDevice s t)

/-- Operand b of a vector instruction as a number of `w` bits: the element, or the scalar register's low bits (R160). -/
def operand (s : State) (w : Nat) (b : VSrc) (k : Nat) : Nat :=
  match b with
  | .reg v => s.th.elem v.toNat w k
  | .scalar r => (s.th.x r).toNat % 2 ^ w

/-- A number of `w` bits read as signed. -/
def signed (w v : Nat) : Int := (BitVec.ofNat w v).toInt

/-- The low `w` bits of an integer. -/
def low (w : Nat) (v : Int) : Nat := (BitVec.ofInt w v).toNat

/-- The integer `v` when it fits in `w` bits, else the end of the range it passed (R59). -/
def clamp (w : Nat) (sgn : Bool) (v : Int) : Int :=
  if sgn then max (-(2 ^ (w - 1) : Nat)) (min ((2 ^ (w - 1) : Nat) - 1) v) else max 0 (min ((2 ^ w : Nat) - 1) v)

/-- `v` divided by 2^d and rounded as VXRM says: to the nearest, ties up; to the nearest, ties to even; down; to odd (R58). -/
def shifted (rm : Nat) (v : Int) (d : Nat) : Int :=
  let q := v / (2 ^ d : Nat)
  let r := 2 * (v % (2 ^ d : Nat))
  if rm = 0 then (if (2 ^ d : Nat) ≤ r then q + 1 else q)
  else if rm = 1 then (if (2 ^ d : Nat) < r ∨ (r = (2 ^ d : Nat) ∧ q % 2 = 1) then q + 1 else q)
  else if rm = 2 then q
  else (if r ≠ 0 ∧ q % 2 = 0 then q + 1 else q)

/-! ## Accesses of vector instructions -/

/-- Operations made one after the other from `s`: each meets `ok` in the state its predecessors left. -/
def InTurn {α : Type} (f : State → α → State) (ok : State → α → Prop) (s : State) (us : List α) : Prop :=
  ∀ pre u post, us = pre ++ u :: post → ok (pre.foldl f s) u

/-- A read of `n` bytes at `va` for unit `k` of a load takes trap `x`: it fails checks 1 to 4, or its line shows poison (R144, R218). -/
def ReadFails (s : State) (va : Word) (n k : Nat) (x : Trap) : Prop :=
  s.access s.vctx .load false va n k = .error x ∨ ∃ l, s.access s.vctx .load false va n k = .ok l ∧ s.poisoned s.th.owner l = true ∧
    x = { cause := 0x0D, eval := va, elem := k, poisons := if l.psn then none else some l.pa, kind := 0 }

/-- Field `j` of unit `k` of a load lies at `loc k j`, on this device and readable (R217, R218). -/
def Reads (s : State) (ks : List Nat) (n : Nat) (addrs : Nat → List Word) (loc : Nat → Nat → Loc) : Prop :=
  ∀ k ∈ ks, ∀ e ∈ (addrs k).zipIdx, s.remoteOf e.1 = none ∧ s.access s.vctx .load false e.1 n k = .ok (loc k e.2) ∧
    s.poisoned s.th.owner (loc k e.2) = false

/-- One unit of a store: its index and, for each field, the address, the place and the value. -/
abbrev StoreUnit := Nat × List (Word × Nat × Nat)

/-- The unit's fields are written in ascending order (R217, R225). -/
def putUnit (n : Nat) (s : State) (u : StoreUnit) : State :=
  u.2.foldl (fun s f => s.writePhys s.th.owner f.2.1 (natLe n f.2.2)) s

/-- The unit's fields pass checks 1 to 4 outside lattice regions and lie where the unit says. -/
def unitOk (n : Nat) (s : State) (u : StoreUnit) : Prop :=
  ∀ f ∈ u.2, ∃ l, s.access s.vctx .store false f.1 n u.1 = .ok l ∧ l.region = none ∧ l.pa = f.2.1

/-- The writes of some units. -/
def unitWrites (n : Nat) (us : List StoreUnit) : List (Nat × List Byte) :=
  us.flatMap (fun u => u.2.map (fun f => (f.2.1, natLe n f.2.2)))

/-- The state in which the units of a store are performed: the seat's older stores are (log 4), the translations of the fields aligned to
`n` bytes are read (R446), and the lines that the writes of `us` cover whole lie in their slices without a read of HBM (R343). -/
def storeStart (s : State) (n : Nat) (us : List (Nat × List (Word × Nat))) : State :=
  let u := s.drain.reach s.vctx n (us.flatMap (fun u => u.2.map Prod.fst))
  u.slotWhole (u.unitsWrite n us)

/-- The state after the units `us` performed from `u`, with the lines they cover whole cleaned (R217, R334, R345). -/
def storesDone (u : State) (n : Nat) (us : List StoreUnit) : State := (us.foldl (putUnit n) u).cleanLines (unitWrites n us)

/-- The state after a store that stopped at unit `k` with trap `x`, the units `pre` below it performed and `v` left by them: under `.ord`
none of the units `post` above it is, otherwise each that passes is or is not, freely (R220; log 9); a refused cell has been read (R386). -/
def storeStopped (v : State) (n : Nat) (mo : MOrd) (pre : List StoreUnit) (k : Nat) (post : List (Nat × List (Word × Nat)))
    (x : Trap) : State :=
  let above := if mo = .ord then (v, []) else runAbove (storeUnit n) (fun _ _ => false) [] v post
  let d := above.1.cleanLines (unitWrites n pre ++ above.2.flatten)
  ((d.refused d.vctx x).setCsr .vstart (BitVec.ofNat 64 k)).takeTrap x

/-- One unit of a train at its destination: what its translation takes is read, then it is stored, or joined in a lattice region
(R233, R446). -/
def placeUnit (c : Ctx) (n : Nat) (va : Nat → Word) (v : Nat → Nat) (loc : Nat → Loc) (s : State) (k : Nat) : State :=
  let u := s.walkAt c (va k).toNat
  match (loc k).region with
  | none => u.writePhys c.owner (loc k).pa (natLe n (v k))
  | some r => u.joinCell c.owner r (dieOf c.core) (loc k).pa (v k)

/-- The unit passes its checks there, a cell of its width or 64 bits of a wider BOR cell included (R233). -/
def placeOk (c : Ctx) (n : Nat) (va : Nat → Word) (loc : Nat → Loc) (s : State) (k : Nat) : Prop :=
  let u := s.walkAt c (va k).toNat
  u.access c .store false (va k) n k = .ok (loc k) ∧
    ∀ r, (loc k).region = some r → r.width = n ∨ (r.typ = 5 ∧ 16 ≤ r.width ∧ n = 8)

/-- What a vector store keeps: every register but the scalars `xs` and the control registers `cs`, tile data unless a tile load
was pending, and, when every place written is in HBM in a line of the writer's own that is not poisoned, every byte but those
written; a byte holds what the last unit that wrote it gave it (R220). -/
def StoreFrame (xs : List SReg) (cs : List Csr) (n : Nat) (us : List StoreUnit) (s t : State) : Prop :=
  KeepsVectors s t ∧ KeepsScalars xs s t ∧ KeepsFloats [] s t ∧ KeepsCsrs (.vstart :: .retired :: cs) s t ∧
  (s.th.tb0.pending = none → s.th.tb1.pending = none → KeepsTiles s t) ∧
  ((∀ u ∈ us, ∀ f ∈ u.2, f.2.1 % n = 0 ∧ n ∣ 128 ∧ paKind f.2.1 = .hbm ∧
      Map.get LineTag.reset s.drain.lines (f.2.1 / 128) = ⟨some s.th.owner, false⟩) →
    (∀ q, (∀ u ∈ us, ∀ f ∈ u.2, q < f.2.1 ∨ f.2.1 + n ≤ q) → t.rawByte q = s.drain.rawByte q) ∧
    (∀ pre f post, us.flatMap Prod.snd = pre ++ f :: post → (∀ g ∈ post, g.2.1 ≠ f.2.1) → ∀ i, i < n →
      t.rawByte (f.2.1 + i) = BitVec.ofNat 8 (f.2.2 / 256 ^ i)))

end Sys2Proof.Safety
end

