-- ==== Sys2Proof/Certificates/Slice0/Obligations.lean ====
section
/-! DEFINITION. The statements for the provers: what the rules of spec/ say the instructions and the machine do. -/

open Sys2Proof Sys2Proof.Machine Sys2Proof.Safety

/-- R17, R37: when an instruction of w words ends on thread u, the focused thread is u with the pc 4w further and
RETIRED one higher, and it runs; every scalar and f register, every other control register, the vector and tile
registers are u's; the device keeps everything else but the RETSUM counter of the die, which counts one more (R493).
R16: a scalar register other than s0 reads the value written to it, s0 reads zero whatever is written, a write leaves
every other register; an f register reads all 64 bits written to it; a binary32 value is written with bits 63..32 all
ones, and a single-precision read of a register whose bits 63..32 are not all ones yields 0x7FC00000. -/
def Obligations.RegistersAndPassing : Prop :=
  (∀ (s : State) (u : Thread) (w : Nat),
    (s.finish u w).th.pc = u.pc + BitVec.ofNat 57 (4 * w) ∧ (s.finish u w).th.run = .running ∧
    (s.finish u w).th.get .retired = u.get .retired + 1 ∧ (∀ c, c ≠ .retired → (s.finish u w).th.get c = u.get c) ∧
    (∀ r, (s.finish u w).th.x r = u.x r ∧ (s.finish u w).th.fr r = u.fr r) ∧
    (s.finish u w).th.slices = u.slices ∧ (s.finish u w).th.vvalid = u.vvalid ∧
    (s.finish u w).th.tb0 = u.tb0 ∧ (s.finish u w).th.tb1 = u.tb1 ∧ KeepsDevice s (s.finish u w) ∧
    Map.get 0 (s.finish u w).fleet.cnt (0x1000 + 8 * dieOf (coreOf s.cur)) =
      Map.get 0 s.fleet.cnt (0x1000 + 8 * dieOf (coreOf s.cur)) + 1) ∧
  (∀ (t : Thread) (v : Word), t.x 0 = 0 ∧ t.setX 0 v = t) ∧
  (∀ (t : Thread) (r : SReg) (v : Word), r ≠ 0 → (t.setX r v).x r = v) ∧
  (∀ (t : Thread) (r q : SReg) (v : Word), q ≠ r → (t.setX r v).x q = t.x q) ∧
  (∀ (t : Thread) (r q : SReg) (v : Word), (t.setFr r v).fr r = v ∧ (q ≠ r → (t.setFr r v).fr q = t.fr q)) ∧
  (∀ (t : Thread) (r : SReg) (v : BitVec 32), (t.setFr r (boxS v)).fs r = v ∧ (boxS v).extractLsb' 32 32 = BitVec.allOnes 32) ∧
  (∀ (t : Thread) (r : SReg), (t.fr r).extractLsb' 32 32 ≠ BitVec.allOnes 32 → t.fs r = 0x7FC00000)

/-- R138: each instruction of major 0x01 completes in every state: it writes to sd the number below, reduced modulo
2^64, and passes. The results are computed on integers: signed operands as integers from -2^63 to 2^63-1, unsigned
ones as numbers below 2^64; shifts take the amount modulo 64; division truncates towards zero, a zero divisor gives
all ones and the dividend (R57). clz gives the number of zero bits above the highest 1 bit, ctz the number below the
lowest, both 64 when a is 0; popc the number of 1 bits; sext and zext the low 8, 16 or 32 bits, sign- or
zero-extended. -/
def Obligations.ScalarRegisterResults : Prop :=
  (∀ (s : State) (d a b : SReg), let x := s.th.x a; let y := s.th.x b
    ∀ p ∈ ([(.add d a b, BitVec.ofInt 64 (x.toInt + y.toInt)), (.sub d a b, BitVec.ofInt 64 (x.toInt - y.toInt)),
      (.and d a b, BitVec.ofNat 64 (Nat.land x.toNat y.toNat)), (.or d a b, BitVec.ofNat 64 (Nat.lor x.toNat y.toNat)),
      (.xor d a b, BitVec.ofNat 64 (Nat.xor x.toNat y.toNat)),
      (.andn d a b, BitVec.ofNat 64 (Nat.land x.toNat (2 ^ 64 - 1 - y.toNat))),
      (.sll d a b, BitVec.ofNat 64 (x.toNat * 2 ^ (y.toNat % 64))),
      (.srl d a b, BitVec.ofNat 64 (x.toNat / 2 ^ (y.toNat % 64))),
      (.sra d a b, BitVec.ofInt 64 (x.toInt / 2 ^ (y.toNat % 64))),
      (.slt d a b, if x.toInt < y.toInt then 1 else 0), (.sltu d a b, if x.toNat < y.toNat then 1 else 0),
      (.min d a b, if x.toInt < y.toInt then x else y), (.max d a b, if x.toInt < y.toInt then y else x),
      (.minu d a b, if x.toNat < y.toNat then x else y), (.maxu d a b, if x.toNat < y.toNat then y else x),
      (.mul d a b, BitVec.ofNat 64 (x.toNat * y.toNat)),
      (.mulh d a b, BitVec.ofInt 64 (x.toInt * y.toInt / 2 ^ 64)),
      (.mulhu d a b, BitVec.ofNat 64 (x.toNat * y.toNat / 2 ^ 64)),
      (.div d a b, if y = 0 then BitVec.allOnes 64 else BitVec.ofInt 64 (x.toInt.tdiv y.toInt)),
      (.divu d a b, if y = 0 then BitVec.allOnes 64 else BitVec.ofNat 64 (x.toNat / y.toNat)),
      (.rem d a b, if y = 0 then x else BitVec.ofInt 64 (x.toInt.tmod y.toInt)),
      (.remu d a b, if y = 0 then x else BitVec.ofNat 64 (x.toNat % y.toNat))] : List (Instr × Word)),
      exec p.1 s = .next (s.finish (s.th.setX d p.2) 1)) ∧
  (∀ (s : State) (d a : SReg), let x := s.th.x a
    (∃ k, exec (.clz d a) s = .next (s.finish (s.th.setX d (BitVec.ofNat 64 k)) 1) ∧
      (x = 0 → k = 64) ∧ (x ≠ 0 → k ≤ 63 ∧ 2 ^ (63 - k) ≤ x.toNat ∧ x.toNat < 2 ^ (64 - k))) ∧
    (∃ k, exec (.ctz d a) s = .next (s.finish (s.th.setX d (BitVec.ofNat 64 k)) 1) ∧
      (x = 0 → k = 64) ∧ (x ≠ 0 → k ≤ 63 ∧ x.toNat % 2 ^ k = 0 ∧ x.toNat / 2 ^ k % 2 = 1)) ∧
    exec (.popc d a) s = .next (s.finish (s.th.setX d (BitVec.ofNat 64 ((List.range 64).countP (fun i => x.getLsbD i)))) 1) ∧
    (∀ p ∈ ([(.b, 8), (.h, 16), (.w, 32)] : List (ExtW × Nat)),
      exec (.sext d a p.1) s = .next (s.finish (s.th.setX d (BitVec.ofInt 64 (BitVec.ofNat p.2 x.toNat).toInt)) 1) ∧
      exec (.zext d a p.1) s = .next (s.finish (s.th.setX d (BitVec.ofNat 64 (x.toNat % 2 ^ p.2))) 1)))

/-- R139, R140, R110: the immediate instructions compute as their register counterparts with the sign-extended
immediate, the shifts with the amount of their field, sltiu comparing as unsigned numbers; lhi writes SignExtend(imm)
times 2^12; lpc adds the 57-bit pc to that, modulo 2^64. A form under WIDE passes two words, the others one. Each
completes in every state. -/
def Obligations.ScalarImmediateResults : Prop :=
  (∀ (s : State) (d a : SReg) (i14 : BitVec 14) (i34 : BitVec 34) (i12 : BitVec 12) (i13 : BitVec 13) (sh : BitVec 6),
    let x := s.th.x a
    ∀ p ∈ ([(.addi d a i14, BitVec.ofInt 64 (x.toInt + i14.toInt), 1),
      (.addiWide d a i34, BitVec.ofInt 64 (x.toInt + i34.toInt), 2),
      (.andi d a i12, x &&& BitVec.ofInt 64 i12.toInt, 1), (.ori d a i12, x ||| BitVec.ofInt 64 i12.toInt, 1),
      (.xori d a i12, x ^^^ BitVec.ofInt 64 i12.toInt, 1),
      (.slli d a sh, BitVec.ofNat 64 (x.toNat * 2 ^ sh.toNat), 1), (.srli d a sh, BitVec.ofNat 64 (x.toNat / 2 ^ sh.toNat), 1),
      (.srai d a sh, BitVec.ofInt 64 (x.toInt / 2 ^ sh.toNat), 1),
      (.slti d a i13, (if x.toInt < i13.toInt then 1 else 0), 1),
      (.sltiu d a i13, (if x.toNat < (BitVec.ofInt 64 i13.toInt).toNat then 1 else 0), 1)] : List (Instr × Word × Nat)),
      exec p.1 s = .next (s.finish (s.th.setX d p.2.1) p.2.2)) ∧
  (∀ (s : State) (d : SReg) (i20 : BitVec 20) (i40 : BitVec 40),
    ∀ p ∈ ([(.lhi d i20, BitVec.ofInt 64 (i20.toInt * 4096), 1), (.lhiWide d i40, BitVec.ofInt 64 (i40.toInt * 4096), 2),
      (.lpc d i20, BitVec.ofInt 64 (s.th.pc.toNat + i20.toInt * 4096), 1),
      (.lpcWide d i40, BitVec.ofInt 64 (s.th.pc.toNat + i40.toInt * 4096), 2)] : List (Instr × Word × Nat)),
      exec p.1 s = .next (s.finish (s.th.setX d p.2.1) p.2.2))

/-- R86, R141, R142: a branch goes to PC + 4 times its offset, modulo 2^57, when its comparison holds, and to the next
instruction when it does not; j goes to its target; jl writes PC + 4 to s31 and goes; jlr goes to T = sa + 4 times its
offset, from the value sa held before, and writes PC + 4 to sd, when bits 1..0 and bits 63..57 of T are zero;
otherwise it takes misaligned access (0x03) or access violation (0x07) with EVAL = T, and sd is not written. Beside
the pc, the link register and RETIRED the thread is unchanged. No prefix kind allows a branch or a jump, and each is
one word. That the link PC + 4 of a jump at the last word of the 57-bit space is 0 is the model's reading (DEDUCED;
log 47): R142 names no edge. -/
def Obligations.BranchesAndJumps : Prop :=
  (∀ (s : State) (a b : SReg) (off : BitVec 14), let x := s.th.x a; let y := s.th.x b
    ∀ p ∈ ([(.beq a b off, decide (x = y)), (.bne a b off, decide (x ≠ y)), (.blt a b off, decide (x.toInt < y.toInt)),
      (.bge a b off, decide (y.toInt ≤ x.toInt)), (.bltu a b off, decide (x.toNat < y.toNat)),
      (.bgeu a b off, decide (y.toNat ≤ x.toNat))] : List (Instr × Bool)),
      exec p.1 s = .next (if p.2 then s.goto s.th (BitVec.ofInt 57 (s.th.pc.toNat + 4 * off.toInt)) else s.finish s.th 1)) ∧
  (∀ (s : State) (off : BitVec 26),
    exec (.j off) s = .next (s.goto s.th (BitVec.ofInt 57 (s.th.pc.toNat + 4 * off.toInt))) ∧
    exec (.jl off) s = .next (s.goto (s.th.setX 31 (BitVec.ofNat 64 ((s.th.pc.toNat + 4) % 2 ^ 57)))
      (BitVec.ofInt 57 (s.th.pc.toNat + 4 * off.toInt)))) ∧
  (∀ (s : State) (d a : SReg) (off : BitVec 14), let t : Word := BitVec.ofInt 64 ((s.th.x a).toInt + 4 * off.toInt)
    exec (.jlr d a off) s =
      (if t.toNat % 4 ≠ 0 then .next (s.takeTrap { cause := 0x03, eval := t })
       else if 2 ^ 57 ≤ t.toNat then .next (s.takeTrap { cause := 0x07, eval := t })
       else .next (s.goto (s.th.setX d (BitVec.ofNat 64 ((s.th.pc.toNat + 4) % 2 ^ 57))) (BitVec.ofNat 57 t.toNat)))) ∧
  (∀ (s : State) (u : Thread) (pc : PC), (s.goto u pc).th.pc = pc ∧ (s.goto u pc).th.get .retired = u.get .retired + 1 ∧
    (∀ r, (s.goto u pc).th.x r = u.x r ∧ (s.goto u pc).th.fr r = u.fr r) ∧ (s.goto u pc).th.run = u.run ∧
    (∀ c, c ≠ .retired → (s.goto u pc).th.get c = u.get c) ∧ KeepsDevice s (s.goto u pc)) ∧
  (∀ (kind m : Nat), 0x08 ≤ m → m ≤ 0x0B → kindAllows kind m = false) ∧
  (∀ (a b : SReg) (o14 : BitVec 14) (o26 : BitVec 26), ∀ i ∈ ([.beq a b o14, .bne a b o14, .blt a b o14, .bge a b o14,
    .bltu a b o14, .bgeu a b o14, .jlr a b o14, .j o26, .jl o26] : List Instr), i.words = 1)

/-- R138 to R142: when an integer register or immediate instruction, a branch or a jump answers a next state without a
trap, every scalar register but its destination (s31 for jl) reads as before, every f register, every control register
but RETIRED, the vector and tile registers and every byte of memory are as before, and nothing outside the thread
changes but the fleet's counters. -/
def Obligations.ScalarFrame : Prop :=
  ∀ (s t : State) (d a b : SReg) (i20 : BitVec 20) (i40 : BitVec 40) (i14 : BitVec 14) (i34 : BitVec 34) (i12 : BitVec 12)
    (i13 : BitVec 13) (sh : BitVec 6) (off : BitVec 26) (wid : ExtW),
    ∀ p ∈ ([(.add d a b, [d]), (.sub d a b, [d]), (.and d a b, [d]), (.or d a b, [d]), (.xor d a b, [d]), (.andn d a b, [d]),
      (.sll d a b, [d]), (.srl d a b, [d]), (.sra d a b, [d]), (.slt d a b, [d]), (.sltu d a b, [d]), (.min d a b, [d]),
      (.max d a b, [d]), (.minu d a b, [d]), (.maxu d a b, [d]), (.mul d a b, [d]), (.mulh d a b, [d]), (.mulhu d a b, [d]),
      (.div d a b, [d]), (.divu d a b, [d]), (.rem d a b, [d]), (.remu d a b, [d]), (.clz d a, [d]), (.ctz d a, [d]),
      (.popc d a, [d]), (.sext d a wid, [d]), (.zext d a wid, [d]), (.addi d a i14, [d]), (.addiWide d a i34, [d]),
      (.andi d a i12, [d]), (.ori d a i12, [d]), (.xori d a i12, [d]), (.slli d a sh, [d]), (.srli d a sh, [d]),
      (.srai d a sh, [d]), (.slti d a i13, [d]), (.sltiu d a i13, [d]), (.lhi d i20, [d]), (.lhiWide d i40, [d]),
      (.lpc d i20, [d]), (.lpcWide d i40, [d]), (.beq a b i14, []), (.bne a b i14, []), (.blt a b i14, []), (.bge a b i14, []),
      (.bltu a b i14, []), (.bgeu a b i14, []), (.j off, []), (.jl off, [31])] ++
      (if (s.th.x a + i14.signExtend 64 * 4).toNat % 4 = 0 ∧ (s.th.x a + i14.signExtend 64 * 4).toNat < 2 ^ 57
       then [(.jlr d a i14, [d])] else []) : List (Instr × List SReg)),
      exec p.1 s = .next t → KeepsScalars p.2 s t ∧ KeepsFloats [] s t ∧ KeepsCsrs [.retired] s t ∧ KeepsVectors s t ∧
        KeepsTiles s t ∧ KeepsMemory s t ∧ KeepsDevice s t

/-- R143, R144, R145: when the address of a scalar load passes checks 1 to 4 on this device, lands outside control
space and finds no poison in the line that R331's way through L1 brings it, after the reads of its translation (R446),
the load completes: sd receives the little-endian number its bytes hold, for each byte the seat's youngest pending
store to it, else memory; signed widths below 8 bytes are sign-extended, unsigned ones and ld.d are not. The next
instruction follows; nothing else changes (see RegistersAndPassing). Both ordering fields behave so in a model that
performs a load at its turn (log 3). R331: a line that the core's L1 does not hold is then on its way there, but for
an acquire, which leaves the L1s' lines as they were (log 4, DEDUCED). R326, R395, R491: a supervisor's load of 4 or 8
bytes from control space reads the register there, after the seat's older stores (log 4). R475: at an aligned address
of another member device, under an owner with a key, the load sends one request (its form: log 18, DEDUCED), by the
model's choice after the seat's older stores, which the rules do not order (log 4), and the seat waits; with the
answer there it completes with the answered number, extended alike, or with remote train error (0x12) and the
failure's sub-cause. A request of up to 13 records on a port that can send leaves as one flit with the access's tag
and the port's next sequence number. -/
def Obligations.ScalarLoadResults : Prop :=
  (∀ (s : State) (d a b : SReg) (acq : Bool) (imm : BitVec 10), ∀ p ∈ loadForms s d a b acq imm,
    let n := p.2.2.1
    let value (v : Nat) : Word := if p.2.2.2 then BitVec.ofInt 64 (BitVec.ofNat (8 * n) v).toInt else BitVec.ofNat 64 v
    (∀ l m : Loc, Lands s .load (s.ctlAllowed n) p.2.1 n l → let u := (s.walked s.ctx [p.2.1]).loadLine l acq
      u.access u.ctx .load false p.2.1 n 0 = .ok m → u.poisoned u.th.owner m = false →
      exec p.1 s = .next (u.finish (u.th.setX d (value (loadValue u m.pa n))) 1)) ∧
    (∀ l : Loc, s.remoteOf p.2.1 = none → s.access s.ctx .load (s.ctlAllowed n) p.2.1 n 0 = .ok l → paKind l.pa = .ctl →
      let r := (s.walked s.ctx [p.2.1]).drain.ctlRead l.pa n
      exec p.1 s = .next (r.1.finish (r.1.th.setX d (value r.2)) 1)) ∧
    (∀ dev, s.remoteOf p.2.1 = some dev → s.member dev = true → s.keys.contains s.th.owner = true → p.2.1.toNat % n = 0 →
      (s.myRemotes = [] → exec p.1 s = .next ((s.drain.sendRemote dev s.th.owner 0x01
        [⟨p.2.1.toNat % 2 ^ 57, widthCode n, 0⟩]).waitOn (.remote s.drain.nextTag false))) ∧
      (∀ o, s.myRemotes = [o] → o.done = true → let u := s.dropRemotes
        (∀ r, o.fail = none → o.recs = [r] → exec p.1 s = .next (u.finish (u.th.setX d (value r.data.toNat)) 1)) ∧
        (∀ e, o.fail = some e → exec p.1 s =
          .next (u.takeTrap { cause := 0x12, sub := BitVec.ofNat 8 e.2, eval := p.2.1, kind := 0 }))))) ∧
  (∀ (s : State) (dev owner type : Nat) (recs : List UnitRec), let port := s.portOf dev
    let q := Map.get Port.reset s.ports port; let t := s.sendRemote dev owner type recs
    q.up = true → 1 ≤ recs.length → recs.length ≤ 13 → type ≠ 0x04 →
    t.outbox = s.outbox ++ [(port, { unitFlit type s.devnum dev owner s.nextTag 0 recs with seq := q.txSeq })] ∧
    t.remotes = s.remotes ++ [⟨s.nextTag, s.cur, dev, decide (type = 0x01), recs.length, 0, [], none, false, s.cycle⟩] ∧
    t.nextTag = (s.nextTag + 1) % 2 ^ 32 ∧ t.th = s.th ∧ t.mem = s.mem) ∧
  (∀ (s : State) (c : Ctx) (vas : List Word), let u := s.walked c vas
    u.cur = s.cur ∧ u.th = s.th ∧ u.mem = s.mem ∧ u.cores = s.cores ∧ u.remotes = s.remotes) ∧
  (∀ (s : State) (l : Loc) (acq : Bool), let u := s.loadLine l acq
    u.th = s.th ∧ u.mem = s.mem ∧ (acq = true → u.loads = s.loads ∧ ∀ e ∈ u.l1, ∃ x ∈ s.l1, x.1 = e.1 ∧ x.2.1 = e.2.1) ∧
    (acq = false → l.psn = false → s.pointDead l.pa = false →
      (∃ e ∈ u.l1, e.1 = l.pa / 128 ∧ e.2.1 = coreOf s.cur) ∨ (coreOf s.cur, l.pa / 128) ∈ u.loads)) ∧
  (∀ (s : State) (k c : Nat), k < 6 → c < 192 → let x := s.die k
    s.ctlRead (ctlBase + 0x1000000 * k + 0x1000) 8 = (s.setDie k { x with setCarry := 0, setDrop := 0 }, x.setcfg % 2 ^ 64) ∧
    s.ctlRead (ctlBase + 0x1000000 * k + 0x1000) 4 = (s, x.setcfg % 2 ^ 32) ∧
    s.ctlRead (ctlBase + 0x1000000 * (c / 32) + 0x2000 + 8 * (c % 32)) 8 = (s, (s.core c).tclkWord % 2 ^ 64))

/-- R143, R144, R145, R336: when the address of a scalar store passes checks 1 to 4 on this device and lands outside
control space and lattice regions, the store completes: it only enters the queue with the low n bytes of its register
at the physical address computed by the access (a full queue keeps it from issuing, R336), after the reads of its
translation (R446). Every register and every byte of memory is unchanged; a load of the seat finds the stored bytes at
the addresses of the store, and what it found before at every other address. R146, R386: in a lattice region, after
the seat's older stores, a store of the cell's width of a value at or above the cell completes and joins it; another
width takes 0x08, sub-cause 0x01, a value not above the cell 0x08, sub-cause 0x00; a plain join leaves its line dirty
in L1 (R331). R326, R395, R491: a supervisor's store of 4 or 8 bytes to control space writes the register there, after
the older stores. R475: a store to another member device, under an owner with a key, sends one record (log 18,
DEDUCED) after the older stores and waits; answered, it completes or takes remote train error. That these three
perform the seat's older stores first is the model's choice (log 4, DEDUCED). -/
def Obligations.ScalarStoreEntersTheQueue : Prop :=
  (∀ (s : State) (k c v : Nat) (en : Bool) (share : Nat), k < 6 → c < 192 → 1 ≤ share → share ≤ 10 →
    (∀ n ∈ ([4, 8] : List Nat), s.ctlWrite (ctlBase + 0x1000000 * k + 0x1000) n ((if en then 1 else 0) + 16 * share) =
      s.setDie k { s.die k with setEn := en, setShare := share }) ∧
    ((∀ i < 8, v / 256 ^ i % 256 ≤ 30) → s.ctlWrite (ctlBase + 0x1000000 * (c / 32) + 0x2000 + 8 * (c % 32)) 8 v =
      s.setCore c { s.core c with tclk := Vector.ofFn (fun i => BitVec.ofNat 8 (v / 256 ^ i.val)) })) ∧
  ∀ (s : State) (d a b : SReg) (rel : Bool) (imm : BitVec 10), ∀ p ∈ storeForms s d a b rel imm,
    let n := p.2.2; let v := (s.th.x d).toNat
    (∀ l : Loc, Lands s .store (s.ctlAllowed n) p.2.1 n l → l.region = none →
      exec p.1 s = .next (((s.walked s.ctx [p.2.1]).enqueue ⟨l.pa, natLe n v, s.th.owner, rel, false⟩).adv 1) ∧
      ∃ t, exec p.1 s = .next t ∧ Passes 1 s t ∧ KeepsScalars [] s t ∧ KeepsFloats [] s t ∧
        KeepsCsrs [.retired] s t ∧ KeepsVectors s t ∧ KeepsTiles s t ∧ KeepsDevice (s.walked s.ctx [p.2.1]) t ∧
        (∀ q, t.rawByte q = s.rawByte q) ∧ t.th.lsq = s.th.lsq ++ [⟨l.pa, natLe n v, s.th.owner, rel, false⟩] ∧
        (∀ i < n, ∀ c, forward t.th.lsq (l.pa + i) c = BitVec.ofNat 8 (v / 256 ^ i)) ∧
        (∀ q c, (q < l.pa ∨ l.pa + n ≤ q) → forward t.th.lsq q c = forward s.th.lsq q c)) ∧
    (∀ l m r, Lands s .store (s.ctlAllowed n) p.2.1 n l → l.region.isSome = true → let u := (s.walked s.ctx [p.2.1]).drain
      u.access u.ctx .store false p.2.1 n 0 = .ok m → m.region = some r →
      let x := v % 2 ^ (8 * n)
      let above := r.le (u.cellAt u.th.owner r m.pa) (r.canon x)
      let refused (sub : BitVec 8) : Trap :=
        { cause := 0x08, sub := sub, eval := p.2.1, kind := 1
          poisons := if sub = 0x00 ∧ u.view u.th.owner m.pa = .poison then some m.pa else none }
      (n = r.width → above = true → let j := u.joinCell u.th.owner r (dieOf (coreOf u.cur)) m.pa x
        exec p.1 s = .next ((if rel then j else j.fillL1 (coreOf u.cur) (m.pa / 128) true).adv 1)) ∧
      (n ≠ r.width → exec p.1 s = .next (u.takeTrap (refused 0x01))) ∧
      (n = r.width → above = false → exec p.1 s = .next ((u.serveAt u.ctx [p.2.1]).takeTrap (refused 0x00)))) ∧
    (∀ l : Loc, s.remoteOf p.2.1 = none → s.access s.ctx .store (s.ctlAllowed n) p.2.1 n 0 = .ok l → paKind l.pa = .ctl →
      exec p.1 s = .next (((s.walked s.ctx [p.2.1]).drain.ctlWrite l.pa n (v % 2 ^ (8 * n))).adv 1)) ∧
    (∀ dev, s.remoteOf p.2.1 = some dev → s.member dev = true → s.keys.contains s.th.owner = true → p.2.1.toNat % n = 0 →
      (s.myRemotes = [] → exec p.1 s = .next ((s.drain.sendRemote dev s.th.owner 0x03
        [⟨p.2.1.toNat % 2 ^ 57, widthCode n, BitVec.ofNat 64 (v % 2 ^ (8 * n))⟩]).waitOn (.remote s.drain.nextTag false))) ∧
      (∀ o, s.myRemotes = [o] → o.done = true →
        (o.fail = none → exec p.1 s = .next (s.dropRemotes.adv 1)) ∧
        (∀ e, o.fail = some e → exec p.1 s =
          .next (s.dropRemotes.takeTrap { cause := 0x12, sub := BitVec.ofNat 8 e.2, eval := p.2.1, kind := 1 }))))

/-- R143, R145: a store to ordinary memory followed by a load of the same width at the same address, with the base
register unchanged between them, gives the low bytes of the stored register, for each of the four widths, when the
line that the load is brought is not poisoned. -/
def Obligations.StoreThenLoadReturnsValue : Prop :=
  ∀ (s t u : State) (d a r : SReg) (rel acq : Bool) (imm : BitVec 10) (l m : Loc),
    ∀ p ∈ ([(.stB r a rel imm, .ldBu d a acq imm, 1), (.stH r a rel imm, .ldHu d a acq imm, 2),
      (.stW r a rel imm, .ldWu d a acq imm, 4), (.stD r a rel imm, .ldD d a acq imm, 8)] : List (Instr × Instr × Nat)),
      let va : Word := s.th.x a + BitVec.ofInt 64 (imm.toInt * p.2.2)
      Lands s .store (s.ctlAllowed p.2.2) va p.2.2 l → l.region = none →
      Lands t .load (t.ctlAllowed p.2.2) va p.2.2 m → m.pa = l.pa → d ≠ 0 →
      let w := (t.walked t.ctx [va]).loadLine m acq
      exec p.1 s = .next t → w.access w.ctx .load false va p.2.2 0 = .ok m → w.poisoned w.th.owner m = false → exec p.2.1 t = .next u →
      u.th.x d = BitVec.ofNat 64 ((s.th.x r).toNat % 256 ^ p.2.2)

/-- R144: a scalar load or store whose address is no multiple of its size takes misaligned access (0x03) with EVAL =
the address; one whose device field names no member of the domain takes access violation (0x07), and one to a member
under an owner without a key 0x14 (R478; that the key stands last: log 17, DEDUCED); one on this device that fails
check 1 to 4 takes the trap of that check (its cause: VectorIssueTraps), and a load whose bytes show poison takes
poison consumed (0x0D); in each case nothing is loaded, stored or written but what the reads of a translation and the
line that a poisoned load was brought do to the slices. Atomics trap the same way, by checks 1 to 4 before their line
is read, and at poison; a lattice region refuses them with 0x08, sub-cause 0x02 (R151), another device with 0x07
(R150). That the older stores of the seat have then been performed is the model's choice (log 4, DEDUCED). `kind` is
KIND of a record of the trap (R453): 0 for a load, 1 for a store or atomic. -/
def Obligations.AccessTraps : Prop :=
  (∀ (s : State) (d a b : SReg) (q : Bool) (imm : BitVec 10), let new (va : Word) : Prop := s.remoteOf va = none ∨ ∀ o ∈ s.myRemotes, o.done = false
    (∀ p ∈ loadForms s d a b q imm, new p.2.1 → p.2.1.toNat % p.2.2.1 ≠ 0 → Traps p.1 s { cause := 0x03, eval := p.2.1, kind := 0 }) ∧
    (∀ p ∈ storeForms s d a b q imm, new p.2.1 → p.2.1.toNat % p.2.2 ≠ 0 → Traps p.1 s { cause := 0x03, eval := p.2.1, kind := 1 }) ∧
    (∀ p ∈ (loadForms s d a b q imm).map (fun p => (p.1, p.2.1, p.2.2.1, 0)) ++
        (storeForms s d a b q imm).map (fun p => (p.1, p.2.1, p.2.2, 1)), ∀ dev, s.remoteOf p.2.1 = some dev → new p.2.1 →
      p.2.1.toNat % p.2.2.1 = 0 →
      (s.member dev = false → Traps p.1 s { cause := 0x07, eval := p.2.1, kind := p.2.2.2 }) ∧
      (s.member dev = true → s.keys.contains s.th.owner = false → Traps p.1 s { cause := 0x14, eval := p.2.1, kind := p.2.2.2 })) ∧
    (∀ p ∈ loadForms s d a b q imm, ∀ x, s.remoteOf p.2.1 = none →
      s.access s.ctx .load (s.ctlAllowed p.2.2.1) p.2.1 p.2.2.1 0 = .error x →
      exec p.1 s = .next ((s.reach s.ctx p.2.2.1 [p.2.1]).takeTrap x)) ∧
    (∀ p ∈ storeForms s d a b q imm, ∀ x, s.remoteOf p.2.1 = none →
      s.access s.ctx .store (s.ctlAllowed p.2.2) p.2.1 p.2.2 0 = .error x →
      exec p.1 s = .next ((s.reach s.ctx p.2.2 [p.2.1]).takeTrap x)) ∧
    (∀ p ∈ loadForms s d a b q imm, ∀ l m, Lands s .load (s.ctlAllowed p.2.2.1) p.2.1 p.2.2.1 l →
      let u := (s.walked s.ctx [p.2.1]).loadLine l q
      u.access u.ctx .load false p.2.1 p.2.2.1 0 = .ok m → u.poisoned u.th.owner m = true → exec p.1 s =
        .next (u.takeTrap { cause := 0x0D, eval := p.2.1, poisons := if m.psn then none else some m.pa, kind := 0 }))) ∧
  (∀ (s : State) (c : Ctx) (n : Nat) (va : Word), va.toNat % n ≠ 0 → s.reach c n [va] = s ∧ (s.atomicServe c n [va]).slice = s.slice ∧
    (s.atomicServe c n [va]).lines = s.lines) ∧
  (∀ (s : State) (d a b : SReg) (dbl rel acq : Bool), let n := if dbl then 8 else 4; let u := s.drain.atomicServe s.ctx n [s.th.x a]
    ∀ p ∈ atomicForms s d a b dbl rel acq (8 * n) 0,
      ((u.th.x a).toNat % n ≠ 0 → exec p.1 s = .next (u.takeTrap { cause := 0x03, eval := u.th.x a, kind := 1 })) ∧
      ((u.th.x a).toNat % n = 0 → (u.remoteOf (u.th.x a)).isSome = true →
        exec p.1 s = .next (u.takeTrap { cause := 0x07, eval := u.th.x a, kind := 1 })) ∧
      (∀ l, u.remoteOf (u.th.x a) = none → u.access u.ctx .atomic false (u.th.x a) n 0 = .ok l → l.region.isSome = true →
        exec p.1 s = .next (u.takeTrap { cause := 0x08, sub := 0x02, eval := u.th.x a, kind := 1 })) ∧
      (∀ x, u.remoteOf (u.th.x a) = none → u.access u.ctx .atomic false (u.th.x a) n 0 = .error x →
        exec p.1 s = .next (u.takeTrap x)) ∧
      (∀ l, u.remoteOf (u.th.x a) = none → u.access u.ctx .atomic false (u.th.x a) n 0 = .ok l → l.region = none →
        u.poisoned u.th.owner l = true → exec p.1 s = .next (u.takeTrap
          { cause := 0x0D, eval := u.th.x a, poisons := if l.psn then none else some l.pa, kind := 1 })))

/-- R148: after the seat's older stores have been performed (by the model's choice: R149 orders a plain atomic only
under R145; log 4, DEDUCED) and its line, once its checks 1 to 5 have passed, is at its coherence point, an atomic
whose address passes its checks, in ordinary memory without poison, completes: the 4 or 8 bytes at its place take the
new value its operation computes from the old value and sb (cas only when the old value equals sd), sd receives the
old value sign-extended, and the next instruction follows. The frame: beside sd, RETIRED and the pc every register of
the thread is as the older stores left it, and every byte of memory outside the n bytes written, when the line is the
writer's own, reads as before; no L1 holds the line (R150). -/
def Obligations.AtomicResults : Prop :=
  (∀ (s : State) (d a b : SReg) (dbl rel acq : Bool) (l : Loc), let n := if dbl then 8 else 4; let u := s.drain.atomicServe s.ctx n [s.th.x a]
    let old := leNat ((List.range n).map (fun i => u.byteAs u.th.owner (l.pa + i)))
    u.remoteOf (u.th.x a) = none → u.access u.ctx .atomic false (u.th.x a) n 0 = .ok l → l.region = none →
    u.poisoned u.th.owner l = false → ∀ p ∈ atomicForms u d a b dbl rel acq (8 * n) old,
      let w : State := match p.2 with | some v => u.writePhys u.th.owner l.pa (natLe n v) | none => u.dropL1 (l.pa / 128)
      exec p.1 s = .next (w.finish (w.th.setX d (BitVec.ofInt 64 (BitVec.ofNat (8 * n) old).toInt)) 1)) ∧
  (∀ (u : State) (o pa : Nat) (bs : List Byte) (q : Nat), paKind pa = .hbm →
    (Map.get LineTag.reset u.lines (pa / 128)).owner = some o → (∀ i < bs.length, u.memKey q ≠ u.memKey (pa + i)) →
    (u.writePhys o pa bs).rawByte q = u.rawByte q ∧ (u.writePhys o pa bs).th = u.th ∧
      ∀ e ∈ (u.writePhys o pa bs).l1, e.1 ≠ pa / 128)

/-- R42: a trap that is not a floating-point trap from user mode outside a handler writes EPC, ECAUSE = cause + 256
times the sub-cause, EVAL, EELEM, EVTYPE = VTYPE, VTYPE = 0, PPRIV = PRIV, PRIV = 1 and goes to EVEC; every scalar and
f register, the other control registers, the vector and tile registers and every byte of memory are unchanged. trap
and brk take it in every state with the causes 0x10 and 0x0F. -/
def Obligations.SupervisorEntry : Prop :=
  (∀ (s : State) (x : Trap), (x.cause ≠ 0x0C ∨ s.th.uact = true ∨ s.th.priv = true) → let t := s.takeTrap x
    t.th.get .epc = BitVec.ofNat 64 s.th.pc.toNat ∧ t.th.get .ecause = BitVec.ofNat 64 (x.cause.toNat + 256 * x.sub.toNat) ∧
    t.th.get .eval = x.eval ∧ t.th.get .eelem = BitVec.ofNat 64 (x.elem % 2 ^ 32) ∧ t.th.get .evtype = s.th.get .vtype ∧
    t.th.get .vtype = 0 ∧ t.th.priv = true ∧ (t.th.get .status).getLsbD 1 = s.th.priv ∧ t.th.uact = s.th.uact ∧
    t.th.pc = BitVec.ofNat 57 (s.th.get .evec).toNat ∧ t.th.run = .running ∧
    KeepsScalars [] s t ∧ KeepsFloats [] s t ∧ KeepsVectors s t ∧ KeepsTiles s t ∧ (∀ pa, t.rawByte pa = s.rawByte pa) ∧
    KeepsCsrs [.epc, .ecause, .eval, .eelem, .evtype, .vtype, .status] s t ∧ t.th.lsq = s.th.lsq) ∧
  (∀ (s : State) (code : BitVec 12), Traps (.trap code) s { cause := 0x10 } ∧ Traps (.brk code) s { cause := 0x0F })

/-- R41: a trap of cause 0x0C (raised only for a flag that FTEN enables), with UACT = 0 and PRIV = 0, in a thread that
is not in its exit routine (there the firmware takes it, log 37), writes UEPC, UCAUSE = 0x0C with the flags in bits
12..8 and the element index in bits 63..32, UVTYPE = VTYPE, VTYPE = 0, UACT = 1, goes to UVEC, and does nothing else. -/
def Obligations.UserHandlerEntry : Prop :=
  ∀ (s : State) (x : Trap), x.cause = 0x0C → x.poisons = none → s.th.uact = false → s.th.priv = false → s.th.exitRoutine = false →
    let t := s.takeTrap x
    t.th.get .uepc = BitVec.ofNat 64 s.th.pc.toNat ∧
    t.th.get .ucause = BitVec.ofNat 64 (0x0C + 256 * x.flags.toNat + 2 ^ 32 * (x.elem % 2 ^ 32)) ∧
    t.th.get .uvtype = s.th.get .vtype ∧ t.th.get .vtype = 0 ∧ t.th.get .status = s.th.get .status ||| 4 ∧ t.th.uact = true ∧ t.th.priv = false ∧
    (t.th.get .status).getLsbD 1 = (s.th.get .status).getLsbD 1 ∧
    t.th.pc = BitVec.ofNat 57 (s.th.get .uvec).toNat ∧ t.th.run = .running ∧
    KeepsScalars [] s t ∧ KeepsFloats [] s t ∧ KeepsVectors s t ∧ KeepsTiles s t ∧ KeepsMemory s t ∧ KeepsDevice s t ∧
    KeepsCsrs [.uepc, .ucause, .uvtype, .vtype, .status] s t

/-- R43, R276: with PRIV = 1 eret sets VTYPE to bits 24..0 of EVTYPE, PRIV to PPRIV and the pc to EPC; with PRIV = 0
and UACT = 1 it sets VTYPE to bits 24..0 of UVTYPE, UACT to 0 and the pc to UEPC; with PRIV = 0 and UACT = 0 it takes
privileged instruction (0x02). It leaves PPRIV, every scalar and f register, every other control register but RETIRED,
the vector and tile registers and memory. -/
def Obligations.ReturnFromException : Prop :=
  ∀ s : State,
    (s.th.priv = true → (∃ t, exec .eret s = .next t ∧ (
      t.th.get .vtype = BitVec.ofNat 64 ((s.th.get .evtype).toNat % 2 ^ 25) ∧ t.th.priv = (s.th.get .status).getLsbD 1 ∧
      (t.th.get .status).getLsbD 1 = (s.th.get .status).getLsbD 1 ∧
      t.th.uact = s.th.uact ∧ t.th.pc = BitVec.ofNat 57 (s.th.get .epc).toNat ∧ t.th.get .retired = s.th.get .retired + 1 ∧
      KeepsScalars [] s t ∧ KeepsFloats [] s t ∧ KeepsCsrs [.vtype, .status, .retired] s t ∧ KeepsVectors s t ∧ KeepsTiles s t ∧
      KeepsMemory s t ∧ KeepsDevice s t))) ∧
    (s.th.priv = false → s.th.uact = true → (∃ t, exec .eret s = .next t ∧ (
      t.th.get .vtype = BitVec.ofNat 64 ((s.th.get .uvtype).toNat % 2 ^ 25) ∧ t.th.priv = false ∧ t.th.uact = false ∧
      (t.th.get .status).getLsbD 1 = (s.th.get .status).getLsbD 1 ∧ t.th.pc = BitVec.ofNat 57 (s.th.get .uepc).toNat ∧ t.th.get .retired = s.th.get .retired + 1 ∧
      KeepsScalars [] s t ∧ KeepsFloats [] s t ∧ KeepsCsrs [.vtype, .status, .retired] s t ∧ KeepsVectors s t ∧ KeepsTiles s t ∧
      KeepsMemory s t ∧ KeepsDevice s t))) ∧
    (s.th.priv = false → s.th.uact = false → Traps .eret s { cause := 0x02 })

/-- R32, R277 with R26, R30, R318, R330: when the checks of R32 pass, xrd writes the register's value to sd; xwr, xset
and xclr write sa, old OR sa and old AND NOT sa, and the last two give the old value in sd. VL takes the smaller of
the value and VLMAX; a write of VTYPE caps VL at the new VLMAX; a write of VSHAPE sets VL and VSTART to 0 and makes
every vector register invalid; a write of GCEIL is also noted for the Bench; a write of VSPCFG is pending and the seat
waits until it takes effect. Every other register takes exactly the value. Nothing else changes. -/
def Obligations.ControlRegisterAccess : Prop :=
  ∀ (s : State) (d a : SReg) (n : BitVec 12) (r : CsrRef), csrLookup s.th n = .ok r →
    exec (.xrd d n) s = .next ((s.withTh (s.th.setX d (s.readCsr r))).adv 1) ∧
    ∀ p ∈ ([(.xwr n a, 0, s.th.x a), (.xset d n a, d, s.readCsr r ||| s.th.x a),
      (.xclr d n a, d, s.readCsr r &&& ~~~ s.th.x a)] : List (Instr × SReg × Word)), csrWritable s.th r p.2.2 = .ok () →
      (∀ c, r = .own c → c ∉ [Csr.vl, .vtype, .vshape, .gceil] →
        exec p.1 s = .next (s.finish ((s.th.set c p.2.2).setX p.2.1 (s.readCsr r)) 1)) ∧
      (r = .own .vl → exec p.1 s = .next (s.finish ((s.th.set .vl (BitVec.ofNat 64 (Nat.min p.2.2.toNat s.th.vlmax))).setX p.2.1
        (s.readCsr r)) 1)) ∧
      (r = .own .vtype → exec p.1 s = .next (s.finish (((s.th.set .vtype p.2.2).set .vl (BitVec.ofNat 64
        (Nat.min (s.th.get .vl).toNat (s.th.set .vtype p.2.2).vlmax))).setX p.2.1 (s.readCsr r)) 1)) ∧
      (r = .own .vshape → (∃ t, exec p.1 s = .next t ∧ (Passes 1 s t ∧ t.th.get .vshape = p.2.2 ∧ t.th.get .vl = 0 ∧
        t.th.get .vstart = 0 ∧ t.th.vvalid = 0 ∧ KeepsCsrs [.vshape, .vl, .vstart, .retired] s t ∧ KeepsScalars [p.2.1] s t ∧
        (p.2.1 ≠ 0 → t.th.x p.2.1 = s.readCsr r) ∧ t.th.slices = s.th.slices ∧
        KeepsFloats [] s t ∧ KeepsTiles s t ∧ KeepsMemory s t ∧ KeepsDevice s t))) ∧
      (r = .own .gceil → (∃ t, exec p.1 s = .next t ∧ (Passes 1 s t ∧ t.th.get .gceil = p.2.2 ∧ KeepsCsrs [.gceil, .retired] s t ∧
        t.th.ceilHeld = true ∧ t.th.lowered = false ∧ KeepsScalars [p.2.1] s t ∧ (p.2.1 ≠ 0 → t.th.x p.2.1 = s.readCsr r) ∧
        KeepsVectors s t ∧ KeepsFloats [] s t ∧ KeepsTiles s t ∧ KeepsMemory s t ∧ KeepsDevice s t))) ∧
      (r = .vspcfg → (∃ t, exec p.1 s = .next t ∧ (t.th.run = .waiting .vspcfg ∧ t.th.pc = s.th.pc ∧
        t.core (coreOf s.cur) = { s.core (coreOf s.cur) with vspPending := some (s.cur, p.2.2.extractLsb' 0 2) } ∧
        (∀ c, c ≠ coreOf s.cur → t.core c = s.core c) ∧ (p.2.1 ≠ 0 → t.th.x p.2.1 = s.readCsr r) ∧
        KeepsScalars [p.2.1] s t ∧ KeepsFloats [] s t ∧ KeepsCsrs [] s t ∧ KeepsVectors s t ∧ KeepsTiles s t ∧ KeepsStore s t ∧
        t = { s with th := t.th, cores := t.cores })))

/-- R34, R35: the control register numbers lead to the registers the two maps give, and every other number is not
assigned. R14, R32, R276, R280 to R282: with STATUS.PRIV = 0, tlbi, ctxsv, ctxld and halt, and every access to a
number from 0x100 to 0x1FF, take privileged instruction. R32: otherwise an access to a number that is not assigned
takes illegal instruction, sub-cause 0x06; so does a write to a register marked whole ro at the level, and a write
that breaks a reserved-value rule (FRM 5 to 7, GCEIL 9 to 15, VSPCFG 3, a reserved bit; R34); a VTYPE value that
breaks R29 takes sub-cause 0x07. Nothing is written. -/
def Obligations.ControlRegisterTraps : Prop :=
  (∀ (s : State) (d a b : SReg) (k : TlbiKind) (n : BitVec 12), s.th.priv = false →
    Traps (.tlbi k a b) s { cause := 0x02 } ∧ Traps (.ctxsv a) s { cause := 0x02 } ∧ Traps (.ctxld a) s { cause := 0x02 } ∧
    Traps .halt s { cause := 0x02 } ∧
    (0x100 ≤ n.toNat ∧ n.toNat ≤ 0x1FF → Traps (.xrd d n) s { cause := 0x02 } ∧ Traps (.xwr n a) s { cause := 0x02 } ∧
      Traps (.xset d n a) s { cause := 0x02 } ∧ Traps (.xclr d n a) s { cause := 0x02 })) ∧
  (∀ p ∈ ([(0x000, .vl), (0x001, .vtype), (0x002, .vshape), (0x003, .vstart), (0x004, .vstop), (0x005, .vxrm), (0x006, .vxsat),
    (0x007, .frm), (0x008, .fflags), (0x009, .grant), (0x00A, .gceil), (0x00B, .vstat), (0x00C, .uvec), (0x00D, .uepc),
    (0x00E, .ucause), (0x00F, .uvtype), (0x010, .fstat), (0x011, .fsx0), (0x012, .fsx1), (0x013, .fsx2), (0x014, .fsx3),
    (0x015, .fout), (0x016, .ften), (0x020, .ltwto), (0x031, .retired), (0x040, .seatid), (0x041, .coreid), (0x042, .taskid),
    (0x043, .taskcnt), (0x044, .argptr), (0x100, .epc), (0x101, .ecause), (0x102, .eval), (0x103, .eelem), (0x104, .evec),
    (0x105, .status), (0x106, .asid), (0x107, .owner), (0x108, .ptbase), (0x109, .lrtbase), (0x10A, .exitpc), (0x10B, .slottab),
    (0x10D, .hscratch), (0x10E, .evtype)] : List (Nat × Csr)), csrRef p.1 = some (.own p.2)) ∧
  csrRef 0x030 = some .cycle ∧ csrRef 0x10C = some .vspcfg ∧
  (∀ n, (0x016 < n ∧ n < 0x020) ∨ (0x020 < n ∧ n < 0x030) ∨ (0x031 < n ∧ n < 0x040) ∨ (0x044 < n ∧ n < 0x100) ∨ 0x10E < n →
    csrRef n = none) ∧
  (∀ (s : State) (d a : SReg) (n : BitVec 12), (s.th.priv = true ∨ n.toNat < 0x100 ∨ 0x1FF < n.toNat) →
    (csrRef n.toNat = none → Traps (.xrd d n) s (.illegal 0x06) ∧ Traps (.xwr n a) s (.illegal 0x06) ∧
      Traps (.xset d n a) s (.illegal 0x06) ∧ Traps (.xclr d n a) s (.illegal 0x06)) ∧
    (∀ r, csrRef n.toNat = some r → ∀ p ∈ ([(.xwr n a, s.th.x a), (.xset d n a, s.readCsr r ||| s.th.x a),
      (.xclr d n a, s.readCsr r &&& ~~~ s.th.x a)] : List (Instr × Word)),
      (r.readOnly s.th.priv = true → Traps p.1 s (.illegal 0x06)) ∧
      (r = .own .vtype → vtypeLegal p.2 = false → Traps p.1 s (.illegal 0x07)) ∧
      (∀ c, r = .own c → c ≠ .vtype → r.readOnly s.th.priv = false → p.2 &&& ~~~ c.mask ≠ 0 → Traps p.1 s (.illegal 0x06)) ∧
      (r = .own .frm → 5 ≤ p.2.toNat → Traps p.1 s (.illegal 0x06)) ∧ (r = .own .gceil → 9 ≤ p.2.toNat → Traps p.1 s (.illegal 0x06)) ∧
      (r = .vspcfg → 3 ≤ p.2.toNat → Traps p.1 s (.illegal 0x06))))

/-- R278, R350: a fence that does not name a, or finds no running copy of the seat, completes: when its kinds name w
or l, at a scope wider than the seat, the seat's stores are performed, and when they name r, w or l the seat's tile
loads have read, which for w or l alone is the model's choice (log 4, DEDUCED); one that names a while a copy runs
waits for it. R279: fencei performs the stores and empties the core's instruction L1. R280: tlbi in supervisor mode
drops exactly the translations its variant names and (R384) every cached descriptor, performs every seat's stores
(R447), and lets a copy whose page it covers, and whose entries have changed, try again (R454). R282: halt in
supervisor mode performs the stores, passes and stops the seat. R281: ctxsv in supervisor mode, aligned, with no tile
load pending and every unit of the area accepted, writes the area's bytes; ctxld in supervisor mode, aligned, with a
readable area of this owner and format and the saved octets granted, gives the seat those octets and the saved thread
(of what a stopped fx kept: log 55). R455 to R457: where each part of the saved thread stands in the area (its pc,
VTYPE and STATUS as its trap left them: log 21), and that ctxld gives it back. -/
def Obligations.SystemInstructions : Prop :=
  (∀ (s : State) (sc : FenceScope) (k : FenceKinds), let r := if k.r = true ∨ k.w = true ∨ k.l = true then s.readTiles s.cur else s
    let u := if sc = .seat ∨ (k.w = false ∧ k.l = false) then r else r.drain
    (k.r = true ∨ k.w = true ∨ k.a = true ∨ k.l = true) →
    ((k.a = false ∨ (∀ c ∈ s.copies, c.seat = s.cur → c.status.isSome = true)) → exec (.fence sc k) s = .next (u.adv 1)) ∧
    (∀ c, k.a = true → s.runningCopy s.cur = some c → exec (.fence sc k) s = .next (u.waitOn (.copy c.handle)))) ∧
  (∀ s : State, exec .fencei s = .next ((s.drain.setCore (coreOf s.cur) { s.core (coreOf s.cur) with icache := [] }).adv 1) ∧
    (∃ t, exec .fencei s = .next t ∧ (t.th.lsq = [] ∧ Passes 1 s t ∧ KeepsScalars [] s t ∧ KeepsFloats [] s t ∧
      KeepsCsrs [.retired] s t))) ∧
  (∀ (s : State) (k : TlbiKind) (a b : SReg), let u := s.allSeats.foldl (fun s n => s.drainSeat n) s
    let va := (s.th.x a).toNat % 2 ^ 57; let asid := (s.th.x b).toNat % 2 ^ 16
    (s.th.priv = true → (∃ t, exec (.tlbi k a b) s = .next t ∧ (Passes 1 s t ∧
      KeepsScalars [] s t ∧ KeepsFloats [] s t ∧ KeepsCsrs [.retired] s t ∧ KeepsVectors s t ∧
      (s.th.tb0.pending = none → s.th.tb1.pending = none → KeepsTiles s t) ∧ t.th.lsq = [] ∧ t.descs = [] ∧
      (∀ n ∈ s.allSeats, (t.seat n).lsq = []) ∧ t.copies = s.copies.map (u.tlbiCopy k va asid) ∧
      t = { u with th := t.th, fleet := t.fleet, tlb := t.tlb, descs := [], copies := t.copies } ∧
      ∀ e, e ∈ t.tlb ↔ e ∈ s.tlb ∧ (match k with
        | .all => False
        | .asid => e.leaf.getLsbD 6 = true ∨ e.asid ≠ asid
        | .addr => va / 2 ^ e.size ≠ e.vpn ∨ (e.leaf.getLsbD 6 = false ∧ e.asid ≠ asid))))) ∧
    ∀ c : Copy, let c' := u.tlbiCopy k va asid c; let w := u.walk c.ptbase c.faultVa
      let size := match w with | .ok x => x.size | .error _ => 12
      let global := match w with | .ok x => decide (bitsOf x.leaf 6 1 = 1) | .error _ => false
      c' = { c with retry := c'.retry } ∧
      (c'.retry = true ↔ c.retry = true ∨ (c.fault.isSome = true ∧ u.pathFrom c.faultVa [4, 3, 2, 1, 0] c.ptbase ≠ c.faultPath ∧
        (match k with
          | .all => True
          | .asid => global = false ∧ c.asid = asid
          | .addr => va / 2 ^ size = c.faultVa / 2 ^ size ∧ (global = true ∨ c.asid = asid))))) ∧
  (∀ s : State, s.th.priv = true → (∃ t, exec .halt s = .next t ∧ (t.th.run = .halted ∧ t.th.lsq = [] ∧ t.th.pc = s.th.pc + 4 ∧
    KeepsScalars [] s t ∧ KeepsFloats [] s t ∧ KeepsCsrs [.retired] s t ∧ KeepsVectors s t ∧
    (s.th.tb0.pending = none → s.th.tb1.pending = none → KeepsTiles s t) ∧ KeepsDevice s.drain t ∧
    (s.th.lsq = [] → s.th.tb0.pending = none → s.th.tb1.pending = none → KeepsMemory s t)))) ∧
  (∀ (s : State) (a : SReg) (us : List (Nat × List Byte)), let v := s.drain.walked s.drain.ctx (piecePages (s.drain.th.x a) s.drain.areaPieces)
    s.th.priv = true → (s.th.x a).toNat % 4096 = 0 →
    s.th.tb0.pending = none → s.th.tb1.pending = none → v.pieceUnits (v.th.x a) v.areaPieces = .ok us →
    exec (.ctxsv a) s = .next ((v.writeUnits v.th.owner us).adv 1)) ∧
  (∀ (s : State) (a : SReg) (bs : List Byte) (regs : List (Nat × List Byte)) (os : List Nat), let u := s.drain.areaServe (s.th.x a) 0x840
    let q := areaNat bs 6 1; let nreg := nregOf (areaNat bs (0x248 + 16) 8)
    let valid := (List.range nreg).filter (fun n => areaNat bs 16 8 / 2 ^ n % 2 = 1)
    let w := u.areaRegsServe (u.th.x a) (4 * (256 / nreg) * 8 * q) valid
    s.th.priv = true → (s.th.x a).toNat % 4096 = 0 → u.areaRead (u.th.x a) 0x840 = .ok bs → areaNat bs 0 4 = 0x43585653 →
    areaNat bs 4 2 = 1 → areaNat bs (0x248 + 8 * 37) 8 % 1024 = u.th.owner →
    w.areaRegs (w.th.x a) (4 * (256 / nreg) * 8 * q) valid = .ok regs →
    w.benchGrant w.cur q 8 = some os → os.length = q →
    exec (.ctxld a) s = .next (let v := (w.benchTake w.cur os).demand w.cur q q
      (v.withTh (restored v.th os bs regs)).retired v.cur 1)) ∧
  (∀ s : State, let t := s.th; let A := s.areaBytes; let f (off n : Nat) : Nat := areaNat A off n
    s.areaPieces = (0, A) :: (t.validRegs.map (fun n => (0x21000 + n * (4 * t.portion * t.lanes), t.regBytes n))) ∧ A.length = 0x21000 ∧
    f 0 4 = 0x43585653 ∧ f 4 2 = 1 ∧ f 6 1 = t.octets ∧ f 7 1 = t.tb0.tag.toNat + 16 * t.tb1.tag.toNat ∧
    f 8 1 = (if t.tb0.poison then 1 else 0) + (if t.tb1.poison then 2 else 0) ∧ f 9 7 = 0 ∧ f 16 8 = t.vvalid.toNat ∧
    f 24 8 = t.tb0.paddr.toNat ∧ f 32 8 = t.tb1.paddr.toNat ∧ f 40 4 = t.tb0.prow.toNat ∧ f 44 4 = t.tb1.prow.toNat ∧ f 48 16 = 0 ∧
    (∀ i : SReg, i ≠ 0 → f (0x40 + 8 * i.toNat) 8 = (t.x i).toNat) ∧ (∀ i : SReg, f (0x140 + 8 * i.toNat) 8 = (t.fr i).toNat) ∧
    f 0x240 8 = (t.get .epc).toNat ∧
    (∀ c, c ∉ [Csr.vtype, .status, .fflags] → f (0x248 + 8 * c.idx.val) 8 = (t.get c).toNat) ∧
    f (0x248 + 8) 8 = (t.get .evtype).toNat % 2 ^ 25 ∧
    f (0x248 + 8 * 35) 8 = ((if (t.get .status).getLsbD 1 then 3 else 0) + (if t.uact then 4 else 0)) ∧
    f (0x3A8) 88 = 0 ∧ (∀ k < 64, t.slotValid.getLsbD k = false → f (0x400 + 8 * k) 8 = 0) ∧
    (∀ k < 64, t.slotValid.getLsbD k = true → ∀ i < 8, A[0x400 + 8 * k + i]? = some (s.rawByte ((t.get .slottab).toNat + 8 * k + i))) ∧
    f 0x600 0xA00 = 0 ∧ f 0x1000 0x10000 = t.tb0.data.toNat ∧ f 0x11000 0x10000 = t.tb1.data.toNat ∧
    (∀ n p l, t.vvalid.getLsbD n = true → n < t.nreg → p < t.portion → l < t.lanes → t.octets ≤ 8 →
      areaNat (t.regBytes n) (4 * (p * t.lanes + l)) 4 = t.elem n 32 (p * t.lanes + l))) ∧
  (∀ (t : Thread) (os : List Nat) (bs : List Byte) (regs : List (Nat × List Byte)), let u := restored t os bs regs
    (∀ i : SReg, i ≠ 0 → u.x i = BitVec.ofNat 64 (areaNat bs (0x40 + 8 * i.toNat) 8)) ∧
    (∀ i : SReg, u.fr i = BitVec.ofNat 64 (areaNat bs (0x140 + 8 * i.toNat) 8)) ∧ u.pc = BitVec.ofNat 57 (areaNat bs 0x240 8 / 4 * 4) ∧
    (∀ c, c ∉ [Csr.seatid, .grant, .gceil] → u.get c = BitVec.ofNat 64 (areaNat bs (0x248 + 8 * c.idx.val) 8) &&& c.mask) ∧
    u.get .seatid = t.get .seatid ∧ u.get .grant = grantWord os ∧ u.vvalid = BitVec.ofNat 64 (areaNat bs 16 8) ∧ u.run = .running ∧
    u.tb0.data = BitVec.ofNat 524288 (areaNat bs 0x1000 65536) ∧ u.tb1.data = BitVec.ofNat 524288 (areaNat bs 0x11000 65536) ∧
    u.tb0.paddr = BitVec.ofNat 64 (areaNat bs 24 8) ∧ u.tb1.paddr = BitVec.ofNat 64 (areaNat bs 32 8) ∧
    u.tb0.prow = BitVec.ofNat 32 (areaNat bs 40 4) ∧ u.tb1.prow = BitVec.ofNat 32 (areaNat bs 44 4) ∧
    u.tb0.tag = BitVec.ofNat 4 (areaNat bs 7 1) ∧ u.tb1.tag = BitVec.ofNat 4 (areaNat bs 7 1 / 16) ∧
    u.tb0.poison = decide (areaNat bs 8 1 % 2 = 1) ∧ u.tb1.poison = decide (areaNat bs 8 1 / 2 % 2 = 1) ∧
    u.tb0.pending = none ∧ u.tb1.pending = none ∧
    (∀ k < 64, u.slotValid.getLsbD k = decide (areaNat bs (0x400 + 8 * k) 8 ≠ 0)))

/-- R152 to R157: each scalar floating-point instruction computes its result once from the values its registers hold,
under FRM and without flushing (the exact arithmetic is Machine/Float.lean's, R46 to R54), and ORs the flags it raises
into FFLAGS. When none of them is enabled in FTEN it completes: fd takes the result, a single one with bits 63..32 all
ones, or sd the truth value, integer or class; nothing else changes. When one is enabled it takes floating-point trap
(0x0C) at element 0 with FFLAGS updated and the destination unwritten. The moves and fclass complete in every state
and raise no flag. -/
def Obligations.ScalarFloatResults : Prop :=
  ∀ (s : State) (d a b c : SReg) (dbl : Bool) (conv : FcvtPair), FcvtPair.wf conv = true →
    let f : FFmt := if dbl then fp64 else fp32
    let v (dbl : Bool) (r : SReg) : FVal := if dbl then fp64.read 0 (s.th.fr r).toNat else fp32.read 0 (s.th.fs r).toNat
    let e : FEnv := ⟨(s.th.get .frm).toNat, 0, false⟩
    let u (fl : BitVec 5) : State := s.withTh (s.th.set .fflags (s.th.get .fflags ||| fl.setWidth 64))
    let traps (fl : BitVec 5) : Bool := decide (fl &&& (s.th.get .ften).extractLsb' 0 5 ≠ 0)
    let box (dbl : Bool) (n : Nat) : Word := if dbl then BitVec.ofNat 64 n else boxS (BitVec.ofNat 32 n)
    let fltTo (i : Instr) (dbl : Bool) (o : FOut) : Prop := exec i s = .next (if traps o.fl then (u o.fl).takeTrap (fpTrap 0 o.fl)
      else (u o.fl).finish ((u o.fl).th.setFr d (box dbl o.bits)) 1)
    let intTo (i : Instr) (w : Word) (fl : BitVec 5) : Prop := exec i s = .next (if traps fl then (u fl).takeTrap (fpTrap 0 fl)
      else (u fl).finish ((u fl).th.setX d w) 1)
    let int (t : FcvtTy) : Int := match t with
      | .l => (s.th.x a).toInt | .lu => (s.th.x a).toNat | .w => (BitVec.ofNat 32 (s.th.x a).toNat).toInt
      | _ => ((s.th.x a).toNat % 2 ^ 32 : Nat)
    (∀ p ∈ ([(.fadd d a b dbl, fAdd f e (v dbl a) (v dbl b)), (.fsub d a b dbl, fAdd f e (v dbl a) (v dbl b).negate),
      (.fmul d a b dbl, fMul f e (v dbl a) (v dbl b)), (.fdiv d a b dbl, fDiv f e (v dbl a) (v dbl b)),
      (.fsqrt d a dbl, fSqrt f e (v dbl a)), (.fmin d a b dbl, fMinMax f e false (v dbl a) (v dbl b)),
      (.fmax d a b dbl, fMinMax f e true (v dbl a) (v dbl b)),
      (.fmadd d a b c dbl, fFma f e false false (v dbl a) (v dbl b) (v dbl c)),
      (.fmsub d a b c dbl, fFma f e false true (v dbl a) (v dbl b) (v dbl c)),
      (.fnmadd d a b c dbl, fFma f e true true (v dbl a) (v dbl b) (v dbl c))] : List (Instr × FOut)), fltTo p.1 dbl p.2) ∧
    (∀ p ∈ ([(.fcmpEq d a b dbl, .eq), (.fcmpLt d a b dbl, .lt), (.fcmpLe d a b dbl, .le),
      (.fcmpUo d a b dbl, .uo)] : List (Instr × FltCmp)),
      intTo p.1 (if (fCmp p.2 (v dbl a) (v dbl b)).1 then 1 else 0) (fCmp p.2 (v dbl a) (v dbl b)).2) ∧
    (match conv.dst, conv.src with
      | .d, .s => fltTo (.fcvt d a conv) true (fp64.convert e (v false a))
      | .s, .d => fltTo (.fcvt d a conv) false (fp32.convert e (v true a))
      | .d, t => fltTo (.fcvt d a conv) true (fp64.ofInt e (int t))
      | .s, t => fltTo (.fcvt d a conv) false (fp32.ofInt e (int t))
      | .w, t => intTo (.fcvt d a conv) (BitVec.ofInt 64 (BitVec.ofNat 32 (toInt 32 true e.rm (v (decide (t = .d)) a)).bits).toInt)
          (toInt 32 true e.rm (v (decide (t = .d)) a)).fl
      | .wu, t => intTo (.fcvt d a conv) (BitVec.ofNat 64 (toInt 32 false e.rm (v (decide (t = .d)) a)).bits)
          (toInt 32 false e.rm (v (decide (t = .d)) a)).fl
      | .l, t => intTo (.fcvt d a conv) (BitVec.ofNat 64 (toInt 64 true e.rm (v (decide (t = .d)) a)).bits)
          (toInt 64 true e.rm (v (decide (t = .d)) a)).fl
      | .lu, t => intTo (.fcvt d a conv) (BitVec.ofNat 64 (toInt 64 false e.rm (v (decide (t = .d)) a)).bits)
          (toInt 64 false e.rm (v (decide (t = .d)) a)).fl) ∧
    exec (.fclass d a dbl) s = .next (s.finish (s.th.setX d (BitVec.ofNat 64 (f.classOf 0
      (if dbl then (s.th.fr a).toNat else (s.th.fs a).toNat)))) 1) ∧
    exec (.fmvS d a) s = .next (s.finish (s.th.setFr d (boxS (s.th.fs a))) 1) ∧
    exec (.fmvD d a) s = .next (s.finish (s.th.setFr d (s.th.fr a)) 1) ∧
    exec (.fmvX d a) s = .next (s.finish (s.th.setX d (s.th.fr a)) 1) ∧
    exec (.fmvF d a) s = .next (s.finish (s.th.setFr d (s.th.x a)) 1)

/-- R46, R49, R51: for FP64, FP32, BF16, FP16, E4M3 and E5M2, a finite value read from an encoding, delivered in the
same format under any rounding mode without flushing, is that encoding, and raises no flag but for the zero, whose
encoding is its sign alone. -/
def Obligations.RoundingKeepsRepresentable : Prop :=
  ∀ f ∈ [fp64, fp32, bf16, fp16, e4m3, e5m2], ∀ (v rm : Nat) (neg : Bool) (m : Nat) (e : Int), v < 2 ^ f.bits →
    f.read 0 v = .fin neg m e → f.deliver ⟨rm, 0, false⟩ (.fin neg m e) = { bits := v }

/-- R29, R39, R164 to R171: with a legal type and octets granted (the Bench's choice os under the seat's ceiling, what
its last reflow returned being free and its reservations lapsed where it meets the demand; a ceiling that the
supervisor wrote: log 22, DEDUCED), setvl and setvli write VTYPE, VL = min(requested, VLMAX under the granted lanes
and the new type), VSTART = 0, the new VL in sd, and VSTAT.SHRUNK as R168 says. With tails undisturbed GRANT holds
exactly os, the elements below VLc that the new grant has room for keep their values, and while the grant is unchanged
nothing moves; with tails dead the Bench takes back the octets whose lanes all lie at or above VLc, but for the lowest
where any was asked for, and the elements below the n of R166 (below VLc, the grant being unchanged) keep their
values. GCEIL stays. Without an octet to grant the seat waits and the instruction has not completed. vcfg writes VTYPE
and caps VL; vshape writes VSHAPE, sets VL and VSTART to 0 and invalidates every vector register. A type with a
reserved value takes illegal instruction, sub-cause 0x07. -/
def Obligations.VectorConfiguration : Prop :=
  ∀ (s : State) (d a b : SReg) (lanes : LaneReq) (imm : BitVec 14) (n : BitVec 2),
    (∀ p ∈ ([(.setvl d a b lanes, s.th.x b, match lanes with | .octets k => k.toNat | .cur => s.th.octets),
      (.setvli d a imm, BitVec.ofNat 64 imm.toNat, s.th.octets)] : List (Instr × Word × Nat)),
      (vtypeLegal p.2.1 = false → Traps p.1 s (.illegal 0x07)) ∧
      (∀ os, vtypeLegal p.2.1 = true → (s.beginSetvl s.cur (Nat.min p.2.2 (s.ceiling s.cur))).benchGrant s.cur p.2.2 (s.ceiling s.cur) = some os → (∃ t, exec p.1 s = .next t ∧ (
        let vl := Nat.min (s.th.x a).toNat (vlmaxOf s.th.portion (8 * os.length) p.2.1)
        Passes 1 s t ∧ t.th.get .vtype = p.2.1 ∧ t.th.get .vl = BitVec.ofNat 64 vl ∧ t.th.get .vstart = 0 ∧
        (d ≠ 0 → t.th.x d = BitVec.ofNat 64 vl) ∧ os.length ≤ Nat.min p.2.2 s.th.gceil ∧ (vtTd p.2.1 = false → t.th.get .grant = grantWord os) ∧
        (vtTd p.2.1 = true → t.th.get .grant = grantWord ((os.zipIdx.filter (fun e =>
          decide (8 * e.2 < t.th.vlc) || (decide (1 ≤ p.2.2) && decide (e.2 = 0)))).map Prod.fst)) ∧
        (t.th.get .vstat).getLsbD 0 = decide (s.th.gceil < p.2.2 ∧ vl < Nat.min (s.th.x a).toNat (vlmaxOf s.th.portion (8 * p.2.2) p.2.1)) ∧
        (∀ j, j ≠ 0 → (t.th.get .vstat).getLsbD j = (s.th.get .vstat).getLsbD j) ∧
        (vtTd p.2.1 = true → os ≠ [] → vtypeLegal s.th.vt = true → s.th.octets = s.th.octetList.length →
          ∀ r, r < s.th.nreg → s.th.vvalid.getLsbD r = true →
          (os ≠ s.th.octetList → ∀ i, i < s.th.vlc → i * s.th.ew < t.th.vlc * t.th.ew → (t.th.get .grant = grantWord os ∨ i < t.th.lanes) →
            t.th.elem r s.th.ew i = s.th.elem r s.th.ew i) ∧
          (os = s.th.octetList → ∀ i, i < t.th.vlc → t.th.elem r t.th.ew i = s.th.elem r t.th.ew i)) ∧
        (vtTd p.2.1 = false → os ≠ [] → vtypeLegal s.th.vt = true → s.th.octets = s.th.octetList.length → ∀ r, r < s.th.nreg → s.th.vvalid.getLsbD r = true →
          ∀ i, i < s.th.vlc → i < t.th.capacity s.th.ew → t.th.elem r s.th.ew i = s.th.elem r s.th.ew i) ∧
        (vtTd p.2.1 = false → os = s.th.octetList → os ≠ [] → KeepsVectors s t) ∧
        KeepsScalars [d] s t ∧ KeepsFloats [] s t ∧ KeepsTiles s t ∧
        KeepsCsrs [.vtype, .vl, .vstart, .vstat, .grant, .retired] s t ∧ KeepsStore s t))) ∧
      (vtypeLegal p.2.1 = true → (s.beginSetvl s.cur (Nat.min p.2.2 (s.ceiling s.cur))).benchGrant s.cur p.2.2 (s.ceiling s.cur) = none → (∃ t, exec p.1 s = .next t ∧ (
        t.th.run = .waiting (.lanes p.2.2) ∧ t.th.pc = s.th.pc ∧ t.th.get .retired = s.th.get .retired)))) ∧
    (vtypeLegal (s.th.x a) = false → Traps (.vcfg a) s (.illegal 0x07)) ∧
    (vtypeLegal (s.th.x a) = true → (∃ t, exec (.vcfg a) s = .next t ∧ (Passes 1 s t ∧ t.th.get .vtype = s.th.x a ∧
      t.th.get .vl = BitVec.ofNat 64 (Nat.min (s.th.get .vl).toNat (vlmaxOf s.th.portion s.th.lanes (s.th.x a))) ∧
      t.th.get .vstart = 0 ∧ KeepsCsrs [.vtype, .vl, .vstart, .retired] s t ∧ KeepsScalars [] s t ∧ KeepsFloats [] s t ∧
      KeepsVectors s t ∧ KeepsTiles s t ∧ KeepsMemory s t ∧ KeepsDevice s t))) ∧
    (∃ t, exec (.vshape n) s = .next t ∧ (Passes 1 s t ∧ t.th.get .vshape = BitVec.ofNat 64 n.toNat ∧ t.th.get .vl = 0 ∧
      t.th.get .vstart = 0 ∧ t.th.vvalid = 0 ∧ KeepsCsrs [.vshape, .vl, .vstart, .retired] s t ∧ KeepsScalars [] s t ∧
      KeepsFloats [] s t ∧ KeepsTiles s t ∧ KeepsMemory s t ∧ KeepsDevice s t))

/-- R158, R160, R172: an instruction of major 0x18 that is ready (a legal integer type without ports, registers in the
shape) completes in every state: each active element from VSTART to VL takes the result below, computed on integers
and cut to EW bits, from the elements of vs2 and of vs1 or the scalar's low EW bits; elements below VSTART, the tail
and, under undisturbed masks, inactive elements keep their values; VSTART becomes 0; no other register, flag or byte
of memory changes. -/
def Obligations.VectorIntegerResults : Prop :=
  ∀ (s : State) (vd va : VReg) (b : VSrc) (md : VMod), let w := s.th.ew
    VectorReady s md true (vd.toNat :: va.toNat :: srcRegs b) (decide (vtFmt s.th.vt ≤ 1) && portClear s.th.vt) → modX md = none →
    let x (k : Nat) : Nat := s.th.elem va.toNat w k
    let y (k : Nat) : Nat := operand s w b k
    let z (k : Nat) : Nat := s.th.elem vd.toNat w k
    ∀ p ∈ ([(.vadd vd va b md, fun k => (x k + y k) % 2 ^ w), (.vsub vd va b md, fun k => low w ((x k : Int) - y k)),
      (.vrsub vd va b md, fun k => low w ((y k : Int) - x k)), (.vmul vd va b md, fun k => x k * y k % 2 ^ w),
      (.vmulh vd va b md, fun k => low w (signed w (x k) * signed w (y k) / (2 ^ w : Nat))),
      (.vmulhu vd va b md, fun k => x k * y k / 2 ^ w), (.vmacc vd va b md, fun k => (z k + x k * y k) % 2 ^ w),
      (.vnmsac vd va b md, fun k => low w ((z k : Int) - x k * y k)),
      (.vdiv vd va b md, fun k => if y k = 0 then 2 ^ w - 1 else low w ((signed w (x k)).tdiv (signed w (y k)))),
      (.vdivu vd va b md, fun k => if y k = 0 then 2 ^ w - 1 else x k / y k),
      (.vrem vd va b md, fun k => if y k = 0 then x k else low w ((signed w (x k)).tmod (signed w (y k)))),
      (.vremu vd va b md, fun k => if y k = 0 then x k else x k % y k),
      (.vmin vd va b md, fun k => if signed w (x k) < signed w (y k) then x k else y k),
      (.vmax vd va b md, fun k => if signed w (x k) < signed w (y k) then y k else x k),
      (.vminu vd va b md, fun k => if x k < y k then x k else y k), (.vmaxu vd va b md, fun k => if x k < y k then y k else x k),
      (.vand vd va b md, fun k => Nat.land (x k) (y k)), (.vor vd va b md, fun k => Nat.lor (x k) (y k)),
      (.vxor vd va b md, fun k => Nat.xor (x k) (y k)), (.vsll vd va b md, fun k => x k * 2 ^ (y k % w) % 2 ^ w),
      (.vsrl vd va b md, fun k => x k / 2 ^ (y k % w)),
      (.vsra vd va b md, fun k => low w (signed w (x k) / (2 ^ (y k % w) : Nat))),
      (.vclz vd va md, fun k => if x k = 0 then w else w - 1 - (x k).log2),
      (.vpopc vd va md, fun k => (List.range w).countP (fun j => (x k).testBit j))] : List (Instr × (Nat → Nat))),
      (p.1 = .vclz vd va md ∨ p.1 = .vpopc vd va md → b = .reg 0) →
      ElementWise p.1 s md vd.toNat w s.th.vlmax p.2 [vd.toNat] []

/-- R173, R174: a widening form with even vd, EW at most 32 and its registers in the shape completes: each active
element of the pair vd, vd+1 at width 2EW takes the sum, difference, product or accumulation of the extended operands,
signed, unsigned or signed by unsigned as its name says. vnsrl and vnsra with even va complete: each active element of
vd takes the low EW bits of the pair element shifted right by b mod 2EW. Everything else is unchanged. -/
def Obligations.WideningAndNarrowing : Prop :=
  ∀ (s : State) (vd va : VReg) (b : VSrc) (md : VMod), let w := s.th.ew
    let ok : Bool := decide (vtFmt s.th.vt ≤ 1) && portClear s.th.vt && decide (vtEwc s.th.vt ≤ 2)
    let x (sg : Bool) (k : Nat) : Int := if sg then signed w (s.th.elem va.toNat w k) else s.th.elem va.toNat w k
    let y (sg : Bool) (k : Nat) : Int := if sg then signed w (operand s w b k) else operand s w b k
    let z (k : Nat) : Int := s.th.elem vd.toNat (2 * w) k
    modX md = none →
    (VectorReady s md (decide (vd.toNat % 2 = 0)) ([vd.toNat, vd.toNat + 1] ++ va.toNat :: srcRegs b) ok →
      ∀ p ∈ ([(.vwadd vd va b md, fun k => x true k + y true k), (.vwaddU vd va b md, fun k => x false k + y false k),
        (.vwsub vd va b md, fun k => x true k - y true k), (.vwsubU vd va b md, fun k => x false k - y false k),
        (.vwmul vd va b md, fun k => x true k * y true k), (.vwmulU vd va b md, fun k => x false k * y false k),
        (.vwmulSu vd va b md, fun k => x true k * y false k), (.vwmacc vd va b md, fun k => z k + x true k * y true k),
        (.vwmaccU vd va b md, fun k => z k + x false k * y false k),
        (.vwmaccSu vd va b md, fun k => z k + x true k * y false k)] : List (Instr × (Nat → Int))),
        ElementWise p.1 s md vd.toNat (2 * w) s.th.vlmax (fun k => low (2 * w) (p.2 k)) [vd.toNat, vd.toNat + 1] []) ∧
    (VectorReady s md (decide (va.toNat % 2 = 0)) (vd.toNat :: [va.toNat, va.toNat + 1] ++ srcRegs b) ok →
      let a (k : Nat) : Nat := s.th.elem va.toNat (2 * w) k
      let d (k : Nat) : Nat := operand s w b k % (2 * w)
      ElementWise (.vnsrl vd va b md) s md vd.toNat w s.th.vlmax (fun k => a k / 2 ^ d k % 2 ^ w) [vd.toNat] [] ∧
      ElementWise (.vnsra vd va b md) s md vd.toNat w s.th.vlmax
        (fun k => low w (signed (2 * w) (a k) / (2 ^ d k : Nat))) [vd.toNat] [])

/-- R58, R59, R175: an instruction of major 0x1A that is ready completes: each active element takes the saturated sum,
difference or rounded product, the rounded average, or the rounded shift under VXRM, and, for vnclip and vnclip.u, the
clamped rounded shift of the pair element. R39, R59: VXSAT.SAT is set when the saturation or the clamp changed an
active element's value, and VXSAT's other bits stay. Beside the destination, VSTART and VXSAT nothing changes. -/
def Obligations.FixedPointResults : Prop :=
  ∀ (s : State) (vd va : VReg) (b : VSrc) (md : VMod), let w := s.th.ew; let rm := (s.th.get .vxrm).toNat % 4
    let sat (i : Instr) (c f : Nat → Int) : Prop := ∀ t, exec i s = .next t → ∀ j, (t.th.get .vxsat).getLsbD j = true ↔
      (s.th.get .vxsat).getLsbD j = true ∨ (j = 0 ∧ ∃ k, s.th.vstart ≤ k ∧ k < s.th.vlc ∧ s.th.active md k = true ∧ c k ≠ f k)
    (s.th.get .vxrm).toNat < 4 → modX md = none →
    let x (sg : Bool) (k : Nat) : Int := if sg then signed w (s.th.elem va.toNat w k) else s.th.elem va.toNat w k
    let y (sg : Bool) (k : Nat) : Int := if sg then signed w (operand s w b k) else operand s w b k
    let d (k : Nat) : Nat := operand s w b k % w
    (VectorReady s md true (vd.toNat :: va.toNat :: srcRegs b) (decide (vtFmt s.th.vt ≤ 1) && portClear s.th.vt) →
      ∀ p ∈ ([(.vsadd vd va b md, clamp w true, fun k => x true k + y true k),
        (.vsaddU vd va b md, clamp w false, fun k => x false k + y false k),
        (.vssub vd va b md, clamp w true, fun k => x true k - y true k),
        (.vssubU vd va b md, clamp w false, fun k => x false k - y false k),
        (.vaadd vd va b md, id, fun k => shifted rm (x true k + y true k) 1),
        (.vaaddU vd va b md, id, fun k => shifted rm (x false k + y false k) 1),
        (.vsmul vd va b md, clamp w true, fun k => shifted rm (x true k * y true k) (w - 1)),
        (.vssrl vd va b md, id, fun k => shifted rm (x false k) (d k)),
        (.vssra vd va b md, id, fun k => shifted rm (x true k) (d k))] : List (Instr × (Int → Int) × (Nat → Int))),
        ElementWise p.1 s md vd.toNat w s.th.vlmax (fun k => low w (p.2.1 (p.2.2 k))) [vd.toNat] [.vxsat] ∧
          sat p.1 (fun k => p.2.1 (p.2.2 k)) p.2.2) ∧
    (VectorReady s md (decide (va.toNat % 2 = 0)) (vd.toNat :: [va.toNat, va.toNat + 1] ++ srcRegs b)
        (decide (vtFmt s.th.vt ≤ 1) && portClear s.th.vt && decide (vtEwc s.th.vt ≤ 2)) →
      let a (sg : Bool) (k : Nat) : Int := if sg then signed (2 * w) (s.th.elem va.toNat (2 * w) k) else s.th.elem va.toNat (2 * w) k
      let e (k : Nat) : Nat := operand s w b k % (2 * w)
      ∀ p ∈ ([(.vnclip vd va b md, true), (.vnclipU vd va b md, false)] : List (Instr × Bool)),
        let f (k : Nat) : Int := shifted rm (a p.2 k) (e k)
        ElementWise p.1 s md vd.toNat w s.th.vlmax (fun k => low w (clamp w p.2 (f k))) [vd.toNat] [.vxsat] ∧
          sat p.1 (fun k => clamp w p.2 (f k)) f)

/-- R94, R176, R177: vcmp, when ready, completes: mask bit k of vd becomes 1 when the condition holds between the vs2
element and operand b, signed or unsigned as its name says, and 0 otherwise, for each active element from VSTART to
VL. vcmp.brk, with VSTART = 0, completes: at the first active element e that satisfies the condition it writes the
bits up to e, VSTOP = e, VL = e + 1 and VSTAT bit 2 = 1; with no such element it writes all bits, VSTOP = VL and VSTAT
bit 2 = 0. The other bits of VSTAT stay. -/
def Obligations.CompareResults : Prop :=
  ∀ (s : State) (vd va : VReg) (b : VSrc) (md : VMod), let w := s.th.ew
    let ok : Bool := decide (vtFmt s.th.vt ≤ 1) && portClear s.th.vt
    let x (k : Nat) : Nat := s.th.elem va.toNat w k
    let y (k : Nat) : Nat := operand s w b k
    ∀ p ∈ ([(.eq, fun k => decide (x k = y k)), (.ne, fun k => decide (x k ≠ y k)),
      (.lt, fun k => decide (signed w (x k) < signed w (y k))), (.le, fun k => decide (signed w (x k) ≤ signed w (y k))),
      (.gt, fun k => decide (signed w (y k) < signed w (x k))), (.ge, fun k => decide (signed w (y k) ≤ signed w (x k))),
      (.ltu, fun k => decide (x k < y k)), (.leu, fun k => decide (x k ≤ y k)), (.gtu, fun k => decide (y k < x k)),
      (.geu, fun k => decide (y k ≤ x k))] : List (IntCmp × (Nat → Bool))),
      let bitAt (k : Nat) : Nat := if p.2 k then 1 else 0
      (VectorReady s md true (vd.toNat :: va.toNat :: srcRegs b) ok →
        WritesElements (.vcmp p.1 vd va b md) s md vd.toNat 1 s.th.vl s.th.vlmax bitAt [vd.toNat] []) ∧
      (VectorReady s md true (vd.toNat :: va.toNat :: srcRegs b) ok → s.th.vstart = 0 →
        (∀ e, e < s.th.vl → s.th.active md e = true → p.2 e = true → (∀ k, k < e → s.th.active md k = true → p.2 k = false) →
          WritesElements (.vcmpBrk p.1 vd va b md) s md vd.toNat 1 (e + 1) s.th.vlmax bitAt [vd.toNat] [.vstop, .vl, .vstat] ∧
          (∃ t, exec (.vcmpBrk p.1 vd va b md) s = .next t ∧ (t.th.get .vstop = BitVec.ofNat 64 e ∧
            t.th.get .vl = BitVec.ofNat 64 (e + 1) ∧ (t.th.get .vstat).getLsbD 2 = true ∧
            ∀ j, j ≠ 2 → (t.th.get .vstat).getLsbD j = (s.th.get .vstat).getLsbD j))) ∧
        ((∀ k, k < s.th.vl → s.th.active md k = true → p.2 k = false) →
          WritesElements (.vcmpBrk p.1 vd va b md) s md vd.toNat 1 s.th.vl s.th.vlmax bitAt [vd.toNat] [.vstop, .vstat] ∧
          (∃ t, exec (.vcmpBrk p.1 vd va b md) s = .next t ∧ (t.th.get .vstop = BitVec.ofNat 64 s.th.vl ∧
            (t.th.get .vstat).getLsbD 2 = false ∧ ∀ j, j ≠ 2 → (t.th.get .vstat).getLsbD j = (s.th.get .vstat).getLsbD j))))

/-- R179 to R181: the mask logic instructions, when ready and unmasked, complete: each bit from VSTART to VL becomes
the and, or, exclusive or, and-not or complement of the source bits. mcount and mfirst, with VSTART = 0, write to sd
the number of active elements whose bit is set, or the index of the first, all ones when there is none. vrank writes
to each active unit the number of active units below it whose bit is set, and vindex its index, cut to EW bits. -/
def Obligations.MaskInstructions : Prop :=
  ∀ (s : State) (d : SReg) (vd va vb : VReg) (md : VMod), let w := s.th.ew; let ok := portClear s.th.vt
    let x (k : Nat) : Bool := s.th.maskBit va.toNat k
    let y (k : Nat) : Bool := s.th.maskBit vb.toNat k
    let hits (n : Nat) : List Nat := (actives s md n).filter x
    (VectorReady s md true [vd.toNat, va.toNat, vb.toNat] ok → md.m = false →
      ∀ p ∈ ([(.mkAnd vd va vb md, fun k => x k && y k), (.mkOr vd va vb md, fun k => x k || y k),
        (.mkXor vd va vb md, fun k => x k != y k), (.mkAndn vd va vb md, fun k => x k && !y k)] : List (Instr × (Nat → Bool))),
        WritesElements p.1 s md vd.toNat 1 s.th.vl s.th.vlmax (fun k => if p.2 k then 1 else 0) [vd.toNat] []) ∧
    (VectorReady s md true [vd.toNat, va.toNat] ok → md.m = false →
      WritesElements (.mkNot vd va md) s md vd.toNat 1 s.th.vl s.th.vlmax (fun k => if x k then 0 else 1) [vd.toNat] []) ∧
    (VectorReady s md true [va.toNat] ok → s.th.vstart = 0 →
      WritesScalar (.mcount d va md) s md [d] [] [] (fun t => d ≠ 0 → t.th.x d = BitVec.ofNat 64 (hits s.th.vl).length) ∧
      WritesScalar (.mfirst d va md) s md [d] [] [] (fun t => d ≠ 0 →
        (hits s.th.vl = [] → t.th.x d = BitVec.allOnes 64) ∧
        (∀ k ks, hits s.th.vl = k :: ks → t.th.x d = BitVec.ofNat 64 k))) ∧
    (VectorReady s md true [vd.toNat, va.toNat] ok → s.th.vstart = 0 →
      ElementWise (.vrank vd va md) s md vd.toNat w s.th.vlcMax
        (fun k => ((hits s.th.vlc).countP (fun j => decide (j < k))) % 2 ^ w) [vd.toNat] []) ∧
    (VectorReady s md true [vd.toNat] ok →
      ElementWise (.vindex vd md) s md vd.toNat w s.th.vlcMax (fun k => k % 2 ^ w) [vd.toNat] [])

/-- R182 to R188: each, when ready (VSTART = 0 for those of R162), completes. vmv copies the unit or the scalar's low
bits; vmv.sv writes unit 0 to sd, sign-extended under FMT 0; vmv.vs writes unit 0; vslideu and vslided move units by
the scalar's offset, the first leaving the units below it, the second giving zeros past VLMAX; vperm picks by index,
zero past VLMAX; vmerge picks by v0; vcompr packs the selected active units and sets VL to their number; vexpd spreads
them over the selected places; vtopk marks the active units whose rank by magnitude, the lower index first among
equals, is below the scalar. -/
def Obligations.MovesAndPermutations : Prop :=
  ∀ (s : State) (d a : SReg) (vd va vb : VReg) (b : VSrc) (md : VMod), let w := s.th.ew; let ok := portClear s.th.vt
    let u (v : VReg) (k : Nat) : Nat := s.th.elem v.toNat w k
    let whole := ok && decide (s.th.vstart = 0)
    let n := s.th.vlc
    let mx := s.th.vlcMax
    let off := (s.th.x a).toNat
    let mag (k : Nat) : Nat := magnitude (vtFmt s.th.vt) w (u va k)
    (VectorReady s md true [vd.toNat, va.toNat] ok → ElementWise (.vmv vd va md) s md vd.toNat w mx (u va) [vd.toNat] []) ∧
    (VectorReady s md true [vd.toNat] ok →
      ElementWise (.vmvScalar vd a md) s md vd.toNat w mx (fun _ => off % 2 ^ w) [vd.toNat] [] ∧
      (∃ t, exec (.vmvVs vd a md) s = .next t ∧ (Passes (modWords md) s t ∧ t.th.get .vstart = 0 ∧ VectorFrame [vd.toNat] [] s t ∧
        ∀ k, k < mx → t.th.elem vd.toNat w k = (if k = 0 ∧ s.th.vstart = 0 ∧ 1 ≤ n then off % 2 ^ w else u vd k)))) ∧
    (VectorReady s md true [va.toNat] ok → WritesScalar (.vmvSv d va md) s md [d] [] [] (fun t => d ≠ 0 →
      t.th.x d = (if vtFmt s.th.vt = 0 then BitVec.ofInt 64 (signed w (u va 0)) else BitVec.ofNat 64 (u va 0)))) ∧
    (VectorReady s md true [vd.toNat, va.toNat] whole →
      ElementWise (.vslideu vd va a md) s md vd.toNat w mx (fun k => if off ≤ k then u va (k - off) else u vd k) [vd.toNat] [] ∧
      ElementWise (.vslided vd va a md) s md vd.toNat w mx (fun k => if k + off < mx then u va (k + off) else 0) [vd.toNat] [] ∧
      WritesElements (.vtopk vd va a md) s md vd.toNat 1 n mx (fun k => if ((actives s md n).filter
        (fun j => decide (mag k < mag j) || (decide (mag j = mag k) && decide (j < k)))).length < off then 1 else 0) [vd.toNat] []) ∧
    (VectorReady s md true [vd.toNat, va.toNat, vb.toNat] whole →
      ElementWise (.vperm vd va vb md) s md vd.toNat w mx (fun k => if u vb k < mx then u va (u vb k) else 0) [vd.toNat] [] ∧
      ElementWise (.vexpd vd va vb md) s md vd.toNat w mx (fun k => if s.th.maskBit vb.toNat k then
        u va ((List.range k).countP (fun j => s.th.maskBit vb.toNat j)) else u vd k) [vd.toNat] [] ∧
      (∃ t, exec (.vcompr vd va vb md) s = .next t ∧ (let src := (actives s md n).filter (fun k => s.th.maskBit vb.toNat k)
        Passes (modWords md) s t ∧ t.th.get .vstart = 0 ∧ VectorFrame [vd.toNat] [.vl] s t ∧
        t.th.get .vl = BitVec.ofNat 64 (src.length * unitElems (vtFmt s.th.vt)) ∧
        (∀ k, k < mx → t.th.elem vd.toNat w k = (match src[k]? with | some j => u va j | none => u vd k))))) ∧
    (VectorReady s md true (vd.toNat :: va.toNat :: srcRegs b) ok → md.m = false →
      ElementWise (.vmerge vd va b md) s md vd.toNat w mx
        (fun k => if s.th.maskBit 0 k then operand s w b k else u va k) [vd.toNat] [])

/-- R189, R190: vred, when ready with VSTART = 0, completes: sd takes the fold of the active elements in ascending
order, starting from the scalar's low EW bits, sign-extended, or the scalar itself when no element is active; vscan
writes to each active element the fold of the active elements up to and with it. The operations are sum modulo 2^EW,
signed and unsigned minimum and maximum, and the three bitwise ones. -/
def Obligations.IntegerReductionsAndScans : Prop :=
  ∀ (s : State) (d b : SReg) (vd va : VReg) (md : VMod), let w := s.th.ew
    let ok : Bool := decide (vtFmt s.th.vt ≤ 1) && portClear s.th.vt && decide (s.th.vstart = 0)
    ∀ p ∈ ([(.add, fun x y => (x + y) % 2 ^ w), (.min, fun x y => if signed w y < signed w x then y else x),
      (.max, fun x y => if signed w x < signed w y then y else x), (.minu, fun x y => if y < x then y else x),
      (.maxu, fun x y => if x < y then y else x), (.and, Nat.land), (.or, Nat.lor), (.xor, Nat.xor)] :
        List (RedOp × (Nat → Nat → Nat))),
      let fold (n : Nat) : Nat := (actives s md n).foldl (fun acc k => p.2 acc (s.th.elem va.toNat w k)) ((s.th.x b).toNat % 2 ^ w)
      (VectorReady s md true [va.toNat] ok → WritesScalar (.vred p.1 d va b md) s md [d] [] [] (fun t => d ≠ 0 →
        t.th.x d = (if actives s md s.th.vl = [] then s.th.x b else BitVec.ofInt 64 (signed w (fold s.th.vl))))) ∧
      (VectorReady s md true [vd.toNat, va.toNat] ok →
        ElementWise (.vscan p.1 vd va b md) s md vd.toNat w s.th.vlmax (fun k => fold (k + 1)) [vd.toNat] [])

/-- R194 to R204: an instruction of major 0x20, or vfcmp, that is ready (FMT 2 to 5; the port fields legal for operand
b where it has a port, else zero; no .x register in the destination) gives each active element from VSTART to VL the
operation's result, rounded once under VTYPE.RM with flushing by FZ, from the vs2 element, operand b (through the
port, or the f register converted) and the old vd element; sign injection and class work on bits. Flags, .x masks and
the floating-point trap are as FloatElements says. The exact arithmetic is Machine/Float.lean's (R46 to R54). -/
def Obligations.VectorFloatResults : Prop :=
  ∀ (s : State) (vd va : VReg) (b : VSrc) (md : VMod), let vt := s.th.vt
    let f := vfmtOf vt; let w := f.bits; let e : FEnv := ⟨vtRm vt, vtFz vt, vtSat vt⟩
    let x (k : Nat) : FVal := f.read e.fz (s.th.elem va.toNat w k)
    let z (k : Nat) : FVal := f.read e.fz (s.th.elem vd.toNat w k)
    let pre := s.th.srcPre b
    let y (k : Nat) : FVal := (s.th.srcFlt b pre k).1
    let port (g : Nat → FOut) (k : Nat) : FOut := (g k).raise (s.th.srcFlt b pre k).2
    let bits (g : Nat → Nat) (k : Nat) : FOut := { bits := g k }
    let sa (k : Nat) : Bool := (s.th.elem va.toNat w k).testBit (w - 1)
    let mag (k : Nat) : Nat := s.th.elem va.toNat w k % 2 ^ (w - 1)
    let sb (k : Nat) : Bool := s.th.srcSign b w k
    let put (neg : Bool) (k : Nat) : Nat := mag k + (if neg then 2 ^ (w - 1) else 0)
    let ready (rs : List Nat) (ok : Bool) : Prop := VectorReady s md true (vd.toNat :: va.toNat :: rs ++ xRegs md)
      (decide (2 ≤ vtFmt vt) && decide (vtFmt vt ≤ 5) && ok && xClear md vd.toNat 1)
    (ready (srcRegs b) (portOk vt b) →
      ∀ p ∈ ([(.vfadd vd va b md, fun k => fAdd f e (x k) (y k)), (.vfsub vd va b md, fun k => fAdd f e (x k) (y k).negate),
        (.vfmul vd va b md, fun k => fMul f e (x k) (y k)), (.vfmacc vd va b md, fun k => fFma f e false false (x k) (y k) (z k)),
        (.vfnmacc vd va b md, fun k => fFma f e true true (x k) (y k) (z k)),
        (.vfmsac vd va b md, fun k => fFma f e false true (x k) (y k) (z k)),
        (.vfnmsac vd va b md, fun k => fFma f e true false (x k) (y k) (z k)),
        (.vfmin vd va b md, fun k => fMinMax f e false (x k) (y k)),
        (.vfmax vd va b md, fun k => fMinMax f e true (x k) (y k))] : List (Instr × (Nat → FOut))),
        FloatElements p.1 s md vd.toNat w s.th.vl pre (port p.2) [vd.toNat]) ∧
    (ready (srcRegs b) (portOk vt b) → ∀ cc : FltCmp, FloatElements (.vfcmp cc vd va b md) s md vd.toNat 1 s.th.vl pre
      (port (fun k => { bits := if (fCmp cc (x k) (y k)).1 then 1 else 0, fl := (fCmp cc (x k) (y k)).2 })) [vd.toNat]) ∧
    (ready (srcRegs b) (portClear vt) →
      FloatElements (.vfdiv vd va b md) s md vd.toNat w s.th.vl pre (port (fun k => fDiv f e (x k) (y k))) [vd.toNat] ∧
      ∀ p ∈ ([(.vfsgnj vd va b md, fun k => put (sb k) k), (.vfsgnjN vd va b md, fun k => put (!sb k) k),
        (.vfsgnjX vd va b md, fun k => put (sa k != sb k) k)] : List (Instr × (Nat → Nat))),
        FloatElements p.1 s md vd.toNat w s.th.vl { bits := 0 } (bits p.2) [vd.toNat]) ∧
    (ready [] (portClear vt) →
      ∀ p ∈ ([(.vfsqrt vd va md, fun k => fSqrt f e (x k)), (.vfrsqe vd va md, fun k => fRsqe f (x k)),
        (.vfrece vd va md, fun k => fRece f (x k)), (.vfexp2 vd va md, fun k => fExp2 f e (x k)),
        (.vfclass vd va md, bits (fun k => f.classOf e.fz (s.th.elem va.toNat w k)))] : List (Instr × (Nat → FOut))),
        FloatElements p.1 s md vd.toNat w s.th.vl { bits := 0 } p.2 [vd.toNat])

/-- R97, R98, R205 to R207: vfcvt (source elements not wider) and vfncvt (source wider, in an aligned group), when
ready and one of the formats is floating point, give each active element the source element's value converted to FMT:
rounded to a floating-point format, converted to an integer with saturation, or taken from an integer. vfwadd, vfwmul
and vfwmacc, with FMT 3 to 7 and an aligned destination group, give each active element of the group the sum, product
or accumulation of the operands of FMT, rounded once to FP64 for FP32 sources and to FP32 for the others. Flags, .x
and traps are as FloatElements says. -/
def Obligations.FormatConversions : Prop :=
  ∀ (s : State) (vd va : VReg) (b : VSrc) (src : SrcFmt) (md : VMod), let vt := s.th.vt; let e : FEnv := ⟨vtRm vt, vtFz vt, vtSat vt⟩
    (let ws := srcBits src; let wd := if vtFmt vt = 8 then 4 else s.th.ew; let sf := srcCode src
      let ok := decide (sf ≤ 8) && decide (vtFmt vt ≤ 8) && ((fltFmt sf).isSome || (fltFmt (vtFmt vt)).isSome) && portClear vt &&
        xClear md vd.toNat 1
      let a (k : Nat) : Nat := s.th.getAt va.toNat ws k
      let g (k : Nat) : FOut := match fltFmt sf, fltFmt (vtFmt vt) with
        | some f, some h => h.convert e (f.read e.fz (a k))
        | some f, none => toInt wd (decide (vtFmt vt ≠ 1)) e.rm (f.read e.fz (a k))
        | none, some h => h.ofInt e (if sf = 1 then (a k : Int) else signed ws (a k))
        | none, none => { bits := 0 }
      (ws ≤ wd → VectorReady s md true (vd.toNat :: va.toNat :: xRegs md) ok →
        FloatElements (.vfcvt vd va src md) s md vd.toNat wd s.th.vl { bits := 0 } g [vd.toNat]) ∧
      (wd < ws → VectorReady s md (decide (va.toNat % (ws / wd) = 0)) (vd.toNat :: groupRegs va (ws / wd) ++ xRegs md) ok →
        FloatElements (.vfncvt vd va src md) s md vd.toNat wd s.th.vl { bits := 0 } g [vd.toNat])) ∧
    (let f := vfmtOf vt; let g : FFmt := if vtFmt vt = 3 then fp64 else fp32
      let r := if vtFmt vt = 6 ∨ vtFmt vt = 7 then 4 else 2
      let x (k : Nat) : FVal := f.read e.fz (s.th.elem va.toNat f.bits k)
      let z (k : Nat) : FVal := g.read e.fz (s.th.elem vd.toNat g.bits k)
      let pre := s.th.srcPre b
      let y (k : Nat) : FVal := (s.th.srcFlt b pre k).1
      let port (h : Nat → FOut) (k : Nat) : FOut := (h k).raise (s.th.srcFlt b pre k).2
      VectorReady s md (decide (vd.toNat % r = 0)) (groupRegs vd r ++ va.toNat :: srcRegs b ++ xRegs md)
          (decide (3 ≤ vtFmt vt) && decide (vtFmt vt ≤ 7) && portOk vt b && xClear md vd.toNat r) →
      ∀ p ∈ ([(.vfwadd vd va b md, fun k => fAdd g e (x k) (y k)), (.vfwmul vd va b md, fun k => fMul g e (x k) (y k)),
        (.vfwmacc vd va b md, fun k => fFma g e false false (x k) (y k) (z k))] : List (Instr × (Nat → FOut))),
        FloatElements p.1 s md vd.toNat g.bits s.th.vl pre (port p.2) (groupRegs vd r))

/-- R73 to R75, R208 to R211: with VSTART = 0 and FMT 2 to 5, vfred writes Combine(scalar, TreeSum) to fd and
vfredo.sum the sequential sum, both fb's 64 bits when no element is active; vfscan writes to each active element the
prefix of R74 combined with the carry-in, and leaves inactive ones under undisturbed masks; vlrec, under FP32 or BF16,
writes h after each step to every element below VL in FP32 and the last h to fc. Under FZ 2 and 3 the partial results
of a reduction and the state h are read with input flushing, which is the model's choice (log 46, DEDUCED). FFLAGS, .x
and the trap are as WholeFloat says. -/
def Obligations.FloatReductions : Prop :=
  ∀ (s : State) (d b : SReg) (vd va : VReg) (op : FRedOp) (md : VMod), let vt := s.th.vt; let f := vfmtOf vt; let w := f.bits
    let e : FEnv := ⟨vtRm vt, vtFz vt, vtSat vt⟩; let n := s.th.vl
    let ok := decide (2 ≤ vtFmt vt) && decide (vtFmt vt ≤ 5) && portClear vt && decide (s.th.vstart = 0)
    let sc := s.th.fscalar (vtFmt vt) e b
    let x := present s va md
    let has : Bool := decide (actives s md n ≠ [])
    let put (t : State) (v : Nat) : Prop := t.th.fr d = (if has then redWord (vtFmt vt) v else s.th.fr b)
    (VectorReady s md true (va.toNat :: xRegs md) ok → ∀ h, n ≤ 2 ^ h →
      let tree := treeOf op f e x h 0
      let r := combine op f e (some sc.bits) tree.1
      let fl : BitVec 5 := if has then tree.2 ||| r.2 else 0
      WholeFloat (.vfred op d va b md) s md [d] [] (if has then fl ||| sc.fl else 0) (fun k => if k = 0 then fl else 0)
        (fun t => put t (r.1.getD 0))) ∧
    (VectorReady s md true (va.toNat :: xRegs md) ok →
      let acc (k : Nat) : Nat := (List.range k).foldl (fun a i => (combine .sum f e (some a) (x i)).1.getD 0) sc.bits
      let fl (k : Nat) : BitVec 5 := (combine .sum f e (some (acc k)) (x k)).2
      WholeFloat (.vfredoSum d va b md) s md [d] [] (if has then (List.range n).foldl (fun a k => a ||| fl k) sc.fl else 0)
        (fun k => if has then fl k else 0) (fun t => put t (acc n))) ∧
    (VectorReady s md true (vd.toNat :: va.toNat :: xRegs md) (ok && xClear md vd.toNat 1) → ∀ l, n ≤ 2 ^ l →
      let p (i : Nat) : Option Nat × BitVec 5 := scanOf op f e x l i
      let out (i : Nat) : Option Nat × BitVec 5 := combine op f e (some sc.bits) (p i).1
      let fl (i : Nat) : BitVec 5 := if has then (p i).2 ||| (out i).2 else 0
      WholeFloat (.vfscan op vd va b md) s md [] [vd.toNat] ((List.range n).foldl (fun a i => a ||| fl i) (if has then sc.fl else 0))
        (fun i => if s.th.active md i then fl i else 0) (fun t =>
          (∀ i, i < n → s.th.active md i = true → t.th.elem vd.toNat w i = (out i).1.getD 0 % 2 ^ w) ∧
          (∀ i, i < s.th.vlmax → (n ≤ i ∨ (s.th.active md i = false ∧ vtMd vt = false)) →
            t.th.elem vd.toNat w i = s.th.elem vd.toNat w i))) ∧
    (let r := if vtFmt vt = 4 then 2 else 1;
      VectorReady s md (decide (vd.toNat % r = 0)) (groupRegs vd r ++ [va.toNat, va.toNat + 1] ++ xRegs md)
        (decide (vtFmt vt = 3 ∨ vtFmt vt = 4) && portClear vt && decide (s.th.vstart = 0) && xClear md vd.toNat r) →
      let h := recurrenceOf s va md (s.th.fs b).toNat
      WholeFloat (.vlrec vd va b md) s md [b] (groupRegs vd r) ((List.range n).foldl (fun a i => a ||| (h (i + 1)).2) 0)
        (fun i => (h (i + 1)).2) (fun t => (∀ i, i < n → t.th.elem vd.toNat 32 i = (h (i + 1)).1 % 2 ^ 32) ∧
          (∀ i, n ≤ i → i < s.th.vlmax → t.th.elem vd.toNat 32 i = s.th.elem vd.toNat 32 i) ∧
          t.th.fr b = (if n = 0 then s.th.fr b else boxS (BitVec.ofNat 32 (h n).1))))

/-- R64 to R69, R250 to R253: vlq and vlrq, when ready (FMT EL16 or EL32, VSTART a multiple of 8, source group
aligned), write to each codeword with an active position the quantisation of its eight inputs under the scale of its
block: zero at or above VL, the value the destination decodes to where inactive, else the source element (for vlrq,
the source codeword's element times the scale in FP32); of these R66 flushes only source elements (log 56). vlx writes
to each active element the scale times the codeword's coordinate, rounded to FMT. Flags raised reach FFLAGS; a lattice
overflow sets VXSAT.LOV; an enabled flag stops at its codeword. The lattice arithmetic is Machine/E8.lean's. -/
def Obligations.LatticeConversions : Prop :=
  ∀ (s : State) (vd va : VReg) (src : SrcFmt) (md : VMod), let vt := s.th.vt; let fz := vtFz vt; let n := s.th.vl
    let r := elGroup src vt
    let ready (ok : Bool) : Prop := VectorReady s md (decide (va.toNat % r = 0)) (vd.toNat :: groupRegs va r)
      (ok && portClear vt && decide (s.th.vstart % 8 = 0) && (modX md).isNone)
    let scale (i : Nat) : FVal := bf16.read fz (s.th.scaleAt i)
    let wide := decide (vtFmt vt = 10)
    let wd := if wide then 32 else 16
    let old (i : Nat) : FOut := e8Fp32 wide (scale i) (s.th.elem vd.toNat wd (i / 8)) (i % 8)
    let input (x : Nat → FVal × BitVec 5) (i : Nat) : FVal × BitVec 5 :=
      if n ≤ i then (.fin false 0 0, 0) else if s.th.active md i then x i else (fp32.read 0 (old i).bits, (old i).fl)
    let word (x : Nat → FVal × BitVec 5) (m : Nat) : FOut :=
      let q := quantise wide (scale (8 * m)) ((List.range 8).map (fun j => (input x (8 * m + j)).1))
      { bits := q.code, fl := (List.range 8).foldl (fun a j => a ||| (input x (8 * m + j)).2) q.fl, sat := if q.lov then 2 else 0 }
    let any (m : Nat) : Bool := (List.range 8).any (fun j => decide (8 * m + j < n) && s.th.active md (8 * m + j))
    let quant (i : Instr) (x : Nat → FVal × BitVec 5) : Prop :=
      LatticeElements i s md vd.toNat wd (s.th.vstart / 8) ((n + 7) / 8) (s.th.vlmax / 8) 1 any (word x)
    let f := (fltFmt (srcCode src)).getD fp32
    let sw := decide (src = .el32)
    let code (i : Nat) : Nat := s.th.elem va.toNat (if sw then 32 else 16) (i / 8)
    (ready (isEl (vtFmt vt) && decide (2 ≤ srcCode src) && decide (srcCode src ≤ 5)) →
      quant (.vlq vd va src md) (fun i => (f.read fz (s.th.elem va.toNat f.bits i), 0))) ∧
    (ready (isEl (vtFmt vt) && isEl (srcCode src)) → quant (.vlrq vd va src md)
      (fun i => (fp32.read 0 (e8Fp32 sw (scale i) (code i) (i % 8)).bits, (e8Fp32 sw (scale i) (code i) (i % 8)).fl))) ∧
    (ready (decide (2 ≤ vtFmt vt) && decide (vtFmt vt ≤ 5) && isEl (srcCode src)) →
      LatticeElements (.vlx vd va src md) s md vd.toNat (vfmtOf vt).bits s.th.vstart n s.th.vlmax 8 (s.th.active md)
        (fun i => (fMul (vfmtOf vt) ⟨vtRm vt, fz, vtSat vt⟩ (scale i) (e8Elem sw (code i) (i % 8))).raise
          (if e8Reserved sw (code i) then flNV else 0)))

/-- R109, R191, R37: a pair whose halves are both legal here completes in three words when neither raises an enabled
flag (the second never does under .x): elements of the first destination whose v0 bit is set take the first half's
result, elements of the second whose bit is clear the second's; under undisturbed masks the others keep their values;
VSTART becomes 0, RETIRED counts two, and FFLAGS takes the flags of both. A half computes what its instruction alone
computes: where that completes, its active elements hold the half's results. -/
def Obligations.MaskedPair : Prop :=
  (∀ (s : State) (x y : PairHalf), let mx : VMod := ⟨true, none⟩; let my : VMod := ⟨true, some ⟨true, false, y.x⟩⟩
    let n := s.th.vl
    let fx (k : Nat) : FOut := (s.pairHalf x mx).f k
    let fy (k : Nat) : FOut := (s.pairHalf y my).f k
    let wx := (s.pairHalf x mx).w
    let wy := (s.pairHalf y my).w
    let on (md : VMod) (k : Nat) : Prop := s.th.vstart ≤ k ∧ k < n ∧ s.th.active md k = true
    let quiet (h : Half) : Prop := (modX h.md).isSome = true ∨
      ∀ k, on h.md k → h.pre.fl &&& s.th.ften = 0 ∧ (h.f k).fl &&& s.th.ften = 0
    VectorReady s mx true (halfRegs x ++ halfRegs y) (s.halfOk x mx && s.halfOk y my && xClear my x.vd.toNat 1) →
    quiet (s.pairHalf x mx) → quiet (s.pairHalf y my) → (∃ t, exec (.pair x y) s = .next t ∧ (
      t.th.pc = s.th.pc + 12 ∧ t.th.run = .running ∧ t.th.get .retired = s.th.get .retired + 2 ∧ t.th.get .vstart = 0 ∧
      VectorFrame ([x.vd.toNat, y.vd.toNat] ++ xRegs my) [.fflags, .vxsat] s t ∧
      (∀ k, on mx k → t.th.elem x.vd.toNat wx k = (fx k).bits % 2 ^ wx) ∧
      (∀ k, on my k → t.th.elem y.vd.toNat wy k = (fy k).bits % 2 ^ wy) ∧
      (∀ k, k < s.th.vlmax → vtMd s.th.vt = false →
        (¬ on mx k → (x.vd = y.vd → ¬ on my k) → t.th.elem x.vd.toNat wx k = s.th.elem x.vd.toNat wx k) ∧
        (¬ on my k → (x.vd = y.vd → ¬ on mx k) → t.th.elem y.vd.toNat wy k = s.th.elem y.vd.toNat wy k)) ∧
      (∀ j, (t.th.get .fflags).getLsbD j = true ↔ (s.th.get .fflags).getLsbD j = true ∨
        (∃ k, on mx k ∧ ((s.pairHalf x mx).pre.fl.getLsbD j = true ∨ (fx k).fl.getLsbD j = true)) ∨
        (∃ k, on my k ∧ ((s.pairHalf y my).pre.fl.getLsbD j = true ∨ (fy k).fl.getLsbD j = true)))))) ∧
  (∀ (i : Instr) (h : PairHalf) (md : VMod) (s t : State), pairHalf i = some (h, md) → exec i s = .next t →
    Passes (modWords md) s t → ∀ k, s.th.vstart ≤ k → k < s.th.vl → s.th.active md k = true →
    t.th.elem h.vd.toNat (s.pairHalf h md).w k = ((s.pairHalf h md).f k).bits % 2 ^ (s.pairHalf h md).w)

/-- R71, R72, R214 to R219, R222, R224, R228: a vector load, when ready and each active unit's fields readable on this
device, completes: each active unit from VSTART to VLc takes the little-endian number at its address (unit stride,
strided, indexed, field j of a record into register vd + j, sign-extended under FMT 0 where narrower, or the dense
value decoded from its sparse line); every other element is kept; the coherence points serve its lines and its
translations, dirty L1 copies recalled (R332, R333, R446). When field j of unit k is the first that fails its checks,
an address of another device behind one of this and poison (0x0D) among them, the units below are loaded; under .ff
with an active unit below k the load completes with VL = k units, otherwise VSTART = k and the trap of the check is
taken; vldsl does so by lines. R232: with the first units on another member device, aligned, under an owner with a
key, the load sends a record for each field of the units before the first that is not so (log 18, DEDUCED), by the
model's choice after the seat's older stores (log 4, DEDUCED), and waits; answered, it completes with the numbers; a
unit on a third device or misaligned stops it (0x07, 0x03), and a failure reported at record e takes 0x12 at its unit
or, under .ff, shortens VL, but for a link that did not answer (0x05). The first unit takes 0x03, 0x07 or 0x14 before
anything is sent. -/
def Obligations.VectorLoads : Prop :=
  ∀ (s : State) (vd vi : VReg) (a b : SReg) (nf : BitVec 3) (wid : MWidth) (pat : SparsePat) (md : VMod) (mo : MOrd)
    (loc : Nat → Nat → Loc), let w := s.th.ew; let z := w / 8; let vt := s.th.vt; let base := s.th.x a
    let ks := s.actives md s.th.vstart s.th.vlc; let m := nf.toNat + 1; let f := widBytes wid
    let segs := (List.range m).map (fun j => vd.toNat + j)
    let kept (ds : List Nat) (lo : Nat) (t : State) : Prop := ∀ r ∈ ds, ∀ j, lo ≤ j → j < s.th.vlcMax → t.th.elem r w j = s.th.elem r w j
    let short (ds : List Nat) (lo : Nat) (t : State) : Prop := Passes (modWords md) s t ∧ t.th.get .vstart = 0 ∧
      t.th.get .vl = BitVec.ofNat 64 (lo * unitElems (vtFmt vt)) ∧ kept ds lo t ∧ KeepsScalars [] s t
    let forms : List (Instr × (Nat → List Word) × List Nat × Nat × List Nat × Bool) :=
      [(.vld vd a wid md mo, fun k => [base + BitVec.ofNat 64 (k * z)], [vd.toNat], z, [], widMatches wid vt),
      (.vlds vd a b wid md mo, fun k => [base + BitVec.ofNat 64 (if 8 ≤ vtFmt vt then k * z else k) * s.th.x b], [vd.toNat], z, [],
        widMatches wid vt),
      (.vldx vd a vi wid md mo, fun k => [base + BitVec.ofNat 64 (s.th.elem vi.toNat w k * z)], [vd.toNat], z, [vi.toNat],
        widMatches wid vt),
      (.vlseg vd a nf wid md mo, fun k => (List.range m).map (fun j => base + BitVec.ofNat 64 ((k * m + j) * f)), segs, f, [],
        segMatches wid vt)]
    (∀ vas, let u := s.serveAt s.vctx vas
      { u with l1 := s.l1, slice := s.slice, lines := s.lines, openRows := s.openRows, fleet := s.fleet } = s) ∧
    (∀ p ∈ forms, let addrs := p.2.1; let ds := p.2.2.1; let n := p.2.2.2.1
      VectorReady s md true (ds ++ p.2.2.2.2.1) (p.2.2.2.2.2 && portClear vt) →
      let u := s.serveAt s.vctx ((ks.flatMap addrs).filter (fun va => decide (va.toNat % n = 0)))
      let conv (v : Nat) : Nat := if 8 * n < w ∧ vtFmt vt = 0 then low w (signed (8 * n) v) else v % 2 ^ w
      let mem (k j : Nat) : Nat := conv (loadValue u (loc k j).pa n)
      let below (lo : Nat) (v : Nat → Nat → Nat) (t : State) : Prop :=
        ∀ e ∈ ds.zipIdx, ∀ j ∈ ks, j < lo → t.th.elem e.1 w j = v j e.2
      let stops (v : State) (k : Nat) (x : Trap) (g : Nat → Nat → Nat) : Prop := ∃ t, exec p.1 s = .next (t.takeTrap x) ∧ t.th.vstart = k ∧
        below k g t ∧ kept ds k t ∧ VectorFrame ds [] v t
      (Reads u ks n addrs loc → LoadsElements p.1 s u md ds w s.th.vlcMax mem) ∧
      (∀ k j va x, k ∈ ks → (addrs k)[j]? = some va → (s.remoteOf va = none ∨ 0 < j ∨ ∃ i ∈ ks, i < k) → ReadFails u va n k x →
        Reads u (ks.filter (fun i => decide (i < k))) n addrs loc → Reads u [k] n (fun k => (addrs k).take j) loc →
        (mo = .ff → (∃ i ∈ ks, i < k) → (∃ t, exec p.1 s = .next t ∧ (short ds k t ∧ below k mem t))) ∧
        ((mo ≠ .ff ∨ ∀ i ∈ ks, k ≤ i) → stops u k x mem)) ∧
      (∀ k post dev j va, s.myRemotes = [] → ks = k :: post → (addrs k).head?.bind s.remoteOf = some dev → (addrs k)[j]? = some va →
        (∀ x ∈ (addrs k).take j, s.remoteOf x = some dev ∧ x.toNat % n = 0 ∧ s.member dev = true ∧ s.keys.contains s.th.owner = true) →
        let at_ (cause : BitVec 8) : Prop := stops s k { cause := cause, eval := va, elem := k, kind := 0 } mem
        (va.toNat % n ≠ 0 → at_ 0x03) ∧ (va.toNat % n = 0 → s.remoteOf va ≠ some dev ∨ s.member dev = false → at_ 0x07) ∧
        (va.toNat % n = 0 → s.remoteOf va = some dev → s.member dev = true → s.keys.contains s.th.owner = false → at_ 0x14)) ∧
      (∀ dev pre rest, s.member dev = true → s.keys.contains s.th.owner = true → pre ≠ [] → ks = pre ++ rest →
        let bad (va : Word) : Bool := decide (s.remoteOf va ≠ some dev ∨ va.toNat % n ≠ 0)
        (∀ k ∈ pre, (addrs k).any bad = false) → (∀ k ∈ rest.take 1, (addrs k).any bad = true) →
        (s.myRemotes = [] → exec p.1 s = .next ((s.drain.sendRemote dev s.th.owner 0x01
          ((pre.flatMap addrs).map (fun va => ⟨va.toNat % 2 ^ 57, widthCode n, 0⟩))).waitOn (.remote s.drain.nextTag true))) ∧
        (∀ o, s.myRemotes = [o] → o.done = true →
          let num (k j : Nat) : Nat := conv ((o.recs.map (fun r => r.data.toNat)).getD (pre.idxOf k * ds.length + j) 0)
          (o.fail = none → rest = [] → LoadsElements p.1 s s.dropRemotes md ds w s.th.vlcMax num) ∧
          (∀ k post va, o.fail = none → rest = k :: post → (addrs k).find? bad = some va →
            (mo = .ff → (∃ t, exec p.1 s = .next t ∧ (short ds k t ∧ below k num t))) ∧
            (mo ≠ .ff → stops s.dropRemotes k { cause := if va.toNat % n ≠ 0 then 0x03 else 0x07, eval := va, elem := k, kind := 0 } num)) ∧
          (∀ e sub, o.fail = some (e, sub) → e < (pre.flatMap addrs).length →
            let c := e / ds.length; let k := pre.getD c 0
            (mo = .ff → sub ≠ 0x05 → c ≠ 0 → (∃ t, exec p.1 s = .next t ∧ (short ds k t ∧ below k num t))) ∧
            ((mo ≠ .ff ∨ sub = 0x05 ∨ c = 0) → stops s.dropRemotes k
              { cause := 0x12, sub := BitVec.ofNat 8 sub, eval := (pre.flatMap addrs).getD e 0, elem := k, kind := 0 } num))))) ∧
    (let sp := sparseOf pat; let d := sp.dense; let addr (j : Nat) : Word := base + BitVec.ofNat 64 (128 * j)
      let js := (List.range ((s.th.vlc + d - 1) / d)).filter (fun j => (s.actives md 0 s.th.vlc).any (fun k => decide (k / d = j)))
      let u := s.serveAt s.vctx ((js.map addr).filter (fun va => decide (va.toNat % 128 = 0)))
      let line (k : Nat) : List Byte := (List.range 128).map (fun i =>
        forward s.th.lsq ((loc (k / d) 0).pa + i) (u.byteAs s.th.owner ((loc (k / d) 0).pa + i)))
      let dense (k _ : Nat) : Nat := sp.decode (line k) (k % d) % 2 ^ w
      let first (j : Nat) : Nat := Nat.max s.th.vstart (j * d)
      let read (j : Nat) : Prop := u.access u.vctx .load false (addr j) 128 (first j) = .ok (loc j 0) ∧
        u.poisoned s.th.owner (loc j 0) = false
      VectorReady s md true [vd.toNat] (sparseOk pat vt && portClear vt) →
      ((∀ j ∈ js, read j) → LoadsElements (.vldsl vd a pat md mo) s u md [vd.toNat] w s.th.vlcMax dense) ∧
      (∀ j x, j ∈ js → (∀ i ∈ js, i < j → read i) → ReadFails u (addr j) 128 (first j) x →
        let below (lo : Nat) (t : State) : Prop := ∀ k ∈ ks, k < lo → t.th.elem vd.toNat w k = dense k 0
        (mo = .ff → (∃ k ∈ ks, k / d < j) → (∃ t, exec (.vldsl vd a pat md mo) s = .next t ∧ (short [vd.toNat] (j * d) t ∧ below (j * d) t))) ∧
        ((mo ≠ .ff ∨ ∀ k ∈ ks, j ≤ k / d) → ∃ t, exec (.vldsl vd a pat md mo) s = .next (t.takeTrap x) ∧
          t.th.vstart = first j ∧ below (j * d) t ∧ kept [vd.toNat] (first j) t ∧ VectorFrame [vd.toNat] [] u t)))

/-- R214, R217, R218, R220, R221, R224, R225, R334, R345: a vector store, when ready and each active unit's fields
passing checks 1 to 4 on this device outside lattice regions in its turn, completes: after the seat's older stores (by
the model's choice, log 4, DEDUCED: R347 and R348 do not order them) the units are written in ascending order, lines
covered whole are clean and unread, no register changes but VSTART = 0 and RETIRED, and, for places in HBM lines of
the writer's own, every byte but those written reads as before and each holds what the last unit gave it. Under .ord,
when unit k fails, the units below are performed, those above are not, VSTART = k, and the trap of the check is taken;
without .ord each unit above that passes is performed or not, freely (R220; log 9, DESIGN CHOICE). R225, R386: in a
lattice region of the width, values at or above their cells in their turn are joined in order; under .ord the first
that is not stops the store at its unit with 0x08, sub-cause 0x00, its cell read at its coherence point, and a width
that is not the cell's with sub-cause 0x01. R232: with the first units on another member device and a key, the units
before the first that is not aligned there leave as one train, under .ord one at a time, VSTART then naming the one
sent (R221; log 18, DEDUCED), after the seat's older stores, and the seat waits; answered, it completes, stops at that
first unit (0x03, 0x07), or takes remote train error at the failing unit. -/
def Obligations.VectorStores : Prop :=
  ∀ (s : State) (vs vi : VReg) (a b : SReg) (nf : BitVec 3) (wid : MWidth) (md : VMod) (mo : MOrd) (pa : Nat → Nat → Nat),
    let w := s.th.ew; let z := w / 8; let vt := s.th.vt; let base := s.th.x a; let m := nf.toNat + 1; let f := widBytes wid
    let ks := s.actives md s.th.vstart s.th.vlc
    let own (k : Nat) : List Nat := [s.th.elem vs.toNat w k]
    let regs := (List.range m).map (fun j => vs.toNat + j)
    let field (v : Nat) : Nat := if w < 8 * f ∧ vtFmt vt = 0 then low (8 * f) (signed w v) else v % 2 ^ (8 * f)
    let forms : List (Instr × (Nat → List Word) × (Nat → List Nat) × Nat × List Nat × Bool) :=
      [(.vst vs a wid md mo, fun k => [base + BitVec.ofNat 64 (k * z)], own, z, [vs.toNat], widMatches wid vt),
      (.vsts vs a b wid md mo, fun k => [base + BitVec.ofNat 64 (if 8 ≤ vtFmt vt then k * z else k) * s.th.x b], own, z,
        [vs.toNat], widMatches wid vt),
      (.vstx vs a vi wid md mo, fun k => [base + BitVec.ofNat 64 (s.th.elem vi.toNat w k * z)], own, z,
        [vs.toNat, vi.toNat], widMatches wid vt),
      (.vsseg vs a nf wid md mo, fun k => (List.range m).map (fun j => base + BitVec.ofNat 64 ((k * m + j) * f)),
        fun k => regs.map (fun r => field (s.th.elem r w k)), f, regs, segMatches wid vt)]
    ∀ p ∈ forms, VectorReady s md true p.2.2.2.2.1 (p.2.2.2.2.2 && portClear vt) →
      let n := p.2.2.2.1
      let us : List (Nat × List (Word × Nat)) := ks.map (fun k => (k, (p.2.1 k).zip (p.2.2.1 k)))
      let start := storeStart s n us
      let unit (k : Nat) : StoreUnit := (k, ((p.2.1 k).zip (p.2.2.1 k)).zipIdx.map (fun e => (e.1.1, pa k e.2, e.1.2)))
      ((∀ k ∈ ks.take 1, ∀ va ∈ (p.2.1 k).take 1, s.remoteOf va = none) →
      (InTurn (putUnit n) (unitOk n) start (ks.map unit) →
        let u := storesDone start n (ks.map unit)
        exec p.1 s = .next (u.finish (u.th.pushVq.set .vstart 0) (modWords md)) ∧
        (∃ t, exec p.1 s = .next t ∧ (Passes (modWords md) s t ∧ t.th.get .vstart = 0 ∧ t.th.lsq = [] ∧
          StoreFrame [] [] n (ks.map unit) s t))) ∧
      (∀ pre k post x, mo = .ord → ks = pre ++ k :: post → InTurn (putUnit n) (unitOk n) start (pre.map unit) →
        (∀ va, p.2.1 k = [va] → (let v := (pre.map unit).foldl (putUnit n) start
          v.access v.vctx .store false va n k = .error x)) → (p.2.1 k).length = 1 →
        let u := storesDone start n (pre.map unit)
        exec p.1 s = .next ((u.setCsr .vstart (BitVec.ofNat 64 k)).takeTrap x)) ∧
      (∀ pre k post x, ks = pre ++ k :: post → InTurn (putUnit n) (unitOk n) start (pre.map unit) →
        let v := (pre.map unit).foldl (putUnit n) start
        v.checkFields n k ((p.2.1 k).zip (p.2.2.1 k)) = .error x →
        exec p.1 s = .next (storeStopped v n mo (pre.map unit) k (post.map (fun k => (k, (p.2.1 k).zip (p.2.2.1 k)))) x)) ∧
      (∀ rs : List (Nat × Word × Loc × Region × Nat), ks ≠ [] → n = z → (∀ k ∈ ks, (p.2.1 k).length = 1) →
        rs.map (fun e => (e.1, [(e.2.1, e.2.2.2.2)])) = ks.map (fun k => (k, (p.2.1 k).zip (p.2.2.1 k))) →
        let join (u : State) (e : Nat × Word × Loc × Region × Nat) : State :=
          u.joinCell u.th.owner e.2.2.2.1 (dieOf (coreOf u.cur)) e.2.2.1.pa e.2.2.2.2
        let cellOk (u : State) (e : Nat × Word × Loc × Region × Nat) : Prop :=
          u.access u.vctx .store false e.2.1 n e.1 = .ok e.2.2.1 ∧ e.2.2.1.region = some e.2.2.2.1 ∧ e.2.2.2.1.width = n
        let above (u : State) (e : Nat × Word × Loc × Region × Nat) : Bool :=
          e.2.2.2.1.le (u.cellAt u.th.owner e.2.2.2.1 e.2.2.1.pa) (e.2.2.2.1.canon e.2.2.2.2)
        (InTurn join (fun u e => cellOk u e ∧ above u e = true) start rs → let u := rs.foldl join start
          exec p.1 s = .next (u.finish (u.th.pushVq.set .vstart 0) (modWords md))) ∧
        (∀ pre e post, mo = .ord → rs = pre ++ e :: post → InTurn join (fun u e => cellOk u e ∧ above u e = true) start pre →
          let u := pre.foldl join start
          let refused (v : State) (sub : BitVec 8) (bad : Prop) [Decidable bad] : Prop := exec p.1 s = .next ((v.setCsr .vstart (BitVec.ofNat 64 e.1)).takeTrap
            { cause := 0x08, sub := sub, eval := e.2.1, elem := e.1, kind := 1, poisons := if bad then some e.2.2.1.pa else none })
          (cellOk u e → above u e = false → refused (u.serveAt u.vctx [e.2.1]) 0x00 (u.view u.th.owner e.2.2.1.pa = .poison)) ∧
          (u.access u.vctx .store false e.2.1 n e.1 = .ok e.2.2.1 → e.2.2.1.region = some e.2.2.2.1 → e.2.2.2.1.width ≠ n →
            refused u 0x01 False)))) ∧
      (∀ dev pre rest, s.member dev = true → s.keys.contains s.th.owner = true → pre ≠ [] → ks = pre ++ rest → (∀ k ∈ ks, p.2.1 k ≠ []) →
        let bad (va : Word) : Bool := decide (s.remoteOf va ≠ some dev ∨ va.toNat % n ≠ 0)
        let fields (ks : List Nat) : List (Nat × List (Word × Nat)) := ks.map (fun k => (k, (p.2.1 k).zip (p.2.2.1 k)))
        let sent := if mo = .ord then pre.take 1 else pre
        (∀ k ∈ pre, (p.2.1 k).any bad = false) → (∀ k ∈ rest.take 1, (p.2.1 k).any bad = true) →
        let sends (d : State) (ks : List Nat) : State := (d.sendRemote dev s.th.owner 0x04 (unitRecs n (fields ks))).waitOn (.remote d.nextTag true)
        (s.myRemotes = [] → exec p.1 s = .next (sends s.drain sent)) ∧
        (∀ o, s.myRemotes = [o] → o.done = true → let u := s.dropRemotes
          (∀ e, o.fail = some e → let at_ := unitAt (fields sent) e.1
            exec p.1 s = .next ((u.setCsr .vstart (BitVec.ofNat 64 at_.1)).takeTrap
              { cause := 0x12, sub := BitVec.ofNat 8 e.2, eval := at_.2, elem := at_.1, kind := 1 })) ∧
          (o.fail = none →
            (∀ k more, pre.drop sent.length = k :: more → exec p.1 s = .next (sends (u.setCsr .vstart (BitVec.ofNat 64 k)).drain [k])) ∧
            (pre.drop sent.length = [] → rest = [] → exec p.1 s = .next (u.finish (u.th.pushVq.set .vstart 0) (modWords md))) ∧
            (∀ k post va, pre.drop sent.length = [] → rest = k :: post → (p.2.1 k).find? bad = some va →
              exec p.1 s = .next ((u.setCsr .vstart (BitVec.ofNat 64 k)).takeTrap
                { cause := if va.toNat % n ≠ 0 then 0x03 else 0x07, eval := va, elem := k, kind := 1 })))))

/-- R71, R72, R229, R230: vstp, with VSTART a multiple of D and each line in its turn passing its checks, writes line
by line the pruned values and metadata of D dense positions, zero where inactive or beyond VLc, as many lines as the
limit in sl holds, and none when every unit is inactive (R223); vstc writes the active units to consecutive slots, as
many as the limit holds, those from VSTART on. A line or slot that fails its checks in its turn, a lattice region
under vstp among them (0x08, 0x01), stops the store: those below are done, under .ord none above, else each freely
(R220; log 9), VSTART is its first unit, sl and VSTAT stay, and the trap is taken. That the seat's older stores are
performed first is the model's choice (log 4, DEDUCED). Complete, each sets sl to the bytes used from the base, and
VSTAT bit 1 when the limit cut it short; VSTART becomes 0. -/
def Obligations.SparseAndCompactStores : Prop :=
  ∀ (s : State) (vs : VReg) (a sl : SReg) (pat : SparsePat) (wid : MWidth) (md : VMod) (mo : MOrd) (pa : Nat → Nat),
    let w := s.th.ew; let z := w / 8; let vt := s.th.vt; let base := s.th.x a; let vl := s.th.vlc; let cap := (s.th.x sl).toNat
    let ends (u : State) (used : Nat) (cut : Bool) : State :=
      u.finish ((((u.th.setX sl (BitVec.ofNat 64 used)).setVstat 1 cut).pushVq).set .vstart 0) (modWords md)
    (let sp := sparseOf pat; let d := sp.dense
      let val (i : Nat) : Nat := if i < vl ∧ s.th.active md i = true then s.th.elem vs.toNat w i else 0
      let total := if s.actives md 0 vl = [] then 0 else (vl + d - 1) / d
      let fit := Nat.min total (cap / 128)
      let js := (List.range fit).filter (fun j => decide (s.th.vstart / d ≤ j))
      let addr (j : Nat) : Word := base + BitVec.ofNat 64 (128 * j)
      let bytes (j : Nat) : List Byte := sp.encode (fun k => val (j * d + k)) (fun k => magnitude (vtFmt vt) w (val (j * d + k)))
      let put (u : State) (j : Nat) : State := u.writePhys u.th.owner (pa j) (bytes j)
      let ok (u : State) (j : Nat) : Prop := ∃ l, u.access u.vctx .store false (addr j) 128 (j * d) = .ok l ∧ l.region = none ∧ l.pa = pa j
      let start := s.drain.reach s.vctx 128 (js.map addr)
      VectorReady s md true [vs.toNat] (sparseOk pat vt && decide (s.th.vstart % d = 0) && portClear vt) →
      (∀ pre j post x, js = pre ++ j :: post → InTurn put ok start pre → let u := pre.foldl put start
        (u.access u.vctx .store false (addr j) 128 (j * d) = .error x ∨ ∃ l r, u.access u.vctx .store false (addr j) 128 (j * d) = .ok l ∧
          l.region = some r ∧ r.width ≠ 128 ∧ x = { cause := 0x08, sub := 0x01, eval := addr j, elem := j * d, kind := 1 }) →
        let v := if mo = .ord then u else (runAbove lineUnit (fun _ _ => false) [] u (post.map (fun i => (i * d, (addr i, bytes i))))).1
        exec (.vstp vs a sl pat md mo) s = .next ((v.setCsr .vstart (BitVec.ofNat 64 (j * d))).takeTrap x)) ∧
      (InTurn put ok start js →
      exec (.vstp vs a sl pat md mo) s = .next (ends (js.foldl put start) (128 * fit) (decide (fit < total))) ∧
      (∃ t, exec (.vstp vs a sl pat md mo) s = .next t ∧ (Passes (modWords md) s t ∧ KeepsVectors s t ∧ KeepsScalars [sl] s t ∧
        KeepsFloats [] s t ∧ KeepsCsrs [.vstart, .retired, .vstat] s t)))) ∧
    (let acts := s.actives md 0 vl
      let fit := Nat.min acts.length (cap / z)
      let us : List StoreUnit := ((acts.take fit).zipIdx.filter (fun e => decide (s.th.vstart ≤ e.1))).map (fun e =>
        (e.1, [(base + BitVec.ofNat 64 (e.2 * z), pa e.2, s.th.elem vs.toNat w e.1)]));
      let start := storeStart s z (us.map (fun u => (u.1, u.2.map (fun f => (f.1, f.2.2)))))
      VectorReady s md true [vs.toNat] (widMatches wid vt && decide (vtFmt vt ≤ 7) && portClear vt) →
      (∀ pre (e : StoreUnit) post x, us = pre ++ e :: post → InTurn (putUnit z) (unitOk z) start pre → let v := pre.foldl (putUnit z) start
        v.checkFields z e.1 (e.2.map (fun f => (f.1, f.2.2))) = .error x → exec (.vstc vs a sl wid md mo) s =
          .next (storeStopped v z mo pre e.1 (post.map (fun e => (e.1, e.2.map (fun f => (f.1, f.2.2))))) x)) ∧
      (InTurn (putUnit z) (unitOk z) start us →
      exec (.vstc vs a sl wid md mo) s = .next (ends (storesDone start z us) (z * fit) (decide (fit < acts.length))) ∧
      (∃ t, exec (.vstc vs a sl wid md mo) s = .next t ∧ (Passes (modWords md) s t ∧ t.th.get .vstart = 0 ∧
        StoreFrame [sl] [.vstat] z us s t))))

/-- R225 to R227, R233, R234, R386: vamo, when ready and each active unit in its turn passing its checks, performs the
units in ascending order, each replacing the number at its address by the operation's result, and gives each active
unit the old value. vstj, with each active unit in a lattice region of its width, joins each value into its cell, in
order. Either stops at the first unit that fails: those below are done, VSTART names it, under .ord none above is
done, else each freely (R220; log 9), with the cause of its check, 0x08 sub-cause 0x02 (vamo in a lattice region),
0x03 (vstj outside) or 0x01 (another width), or 0x0D. vstxr checks alignment, device and key of every unit before it
sends (0x03, 0x07, 0x14). With every unit on this device it stores them in order, or joins them in lattice regions,
the lines covered whole clean; with units of other member devices it sends each, in the order of their first units,
one train of its units' records, and waits; a train on a port that can send leaves as a flit of records and a tail;
answered without a failure it performs its own device's units so and completes; the lowest failing unit takes 0x12
with its sub-cause, VSTART 0. That the seat's older stores are performed first is the model's choice (log 4, DEDUCED);
so are the forms of the trains (log 18, DEDUCED). -/
def Obligations.VectorAtomicsAndJoins : Prop :=
  (∀ (s : State) (op : VAmoOp) (dbl : Bool) (vd vi : VReg) (a : SReg) (wid : MWidth) (md : VMod) (mo : MOrd) (loc : Nat → Loc),
    let w := s.th.ew; let z := w / 8; let vt := s.th.vt; let ks := s.actives md s.th.vstart s.th.vlc
    let idx (k : Nat) : Word := s.th.x a + BitVec.ofNat 64 (s.th.elem vi.toNat w k * z)
    let v (k : Nat) : Nat := s.th.elem vd.toNat w k
    let ends (u : State) : State := u.finish (u.th.pushVq.set .vstart 0) (modWords md)
    let all : List (Nat × List (Word × Nat)) := ks.map (fun k => (k, [(idx k, v k)]))
    (let old (u : State) (k : Nat) : Nat := leNat (u.readAt u.th.owner [] (loc k).pa z)
      let put (u : State) (k : Nat) : State := u.writePhys u.th.owner (loc k).pa (natLe z (amoNew op w (v k) (old u k)));
      let ok (u : State) (k : Nat) : Prop := u.remoteOf (idx k) = none ∧ u.access u.vctx .atomic false (idx k) z k = .ok (loc k) ∧
        (loc k).region = none ∧ u.poisoned u.th.owner (loc k) = false
      let start := s.drain.atomicServe s.drain.vctx z (ks.map idx)
      VectorReady s md true [vd.toNat, vi.toNat] (decide (vtFmt vt ≤ 1) && decide (w = if dbl then 64 else 32) && portClear vt) →
      (∀ pre k post x, ks = pre ++ k :: post → InTurn put ok start pre → let u := pre.foldl put start
        let made (cause sub : BitVec 8) (at_ : Option Nat) : Trap :=
          { cause := cause, sub := sub, eval := idx k, elem := k, poisons := at_, kind := 1 }
        ((u.remoteOf (idx k)).isSome = true ∧ x = made (if (idx k).toNat % z ≠ 0 then 0x03 else 0x07) 0 none) ∨
          (u.remoteOf (idx k) = none ∧ (u.access u.vctx .atomic false (idx k) z k = .error x ∨
            ∃ l, u.access u.vctx .atomic false (idx k) z k = .ok l ∧ ((l.region.isSome = true ∧ x = made 0x08 0x02 none) ∨
              (l.region = none ∧ u.poisoned u.th.owner l = true ∧ x = made 0x0D 0 (if l.psn then none else some l.pa))))) →
        let v' := if mo = .ord then u else (runAbove (amoUnit op z) (fun x y => decide (x.1 = y.1)) [] u
          (post.map (fun i => (i, (idx i, v i))))).1
        ∃ t, exec (.vamo op dbl vd a vi md mo) s = .next (t.takeTrap x) ∧ t.th.vstart = k ∧ t.mem = v'.mem ∧ t.lines = v'.lines ∧
          t.vspTags = v'.vspTags ∧ t.th.lsq = [] ∧ KeepsRegisters [vd.toNat] s t ∧ KeepsScalars [] s t ∧ KeepsFloats [] s t ∧
          KeepsCsrs [.vstart] s t ∧ (∀ b i c, pre = b ++ i :: c → t.th.elem vd.toNat w i = old (b.foldl put start) i % 2 ^ w) ∧
          (∀ i, k ≤ i → i < s.th.vlcMax → t.th.elem vd.toNat w i = v i)) ∧
      (InTurn put ok start ks →
      let u := ks.foldl put start
      (∃ t, exec (.vamo op dbl vd a vi md mo) s = .next t ∧ (Passes (modWords md) s t ∧ t.th.get .vstart = 0 ∧ t.mem = u.mem ∧
        t.lines = u.lines ∧ t.vspTags = u.vspTags ∧ t.th.lsq = [] ∧ KeepsRegisters [vd.toNat] s t ∧ KeepsScalars [] s t ∧
        KeepsFloats [] s t ∧ KeepsCsrs [.vstart, .retired] s t ∧
        (∀ pre k post, ks = pre ++ k :: post → t.th.elem vd.toNat w k = old (pre.foldl put start) k % 2 ^ w) ∧
        (∀ k, k < s.th.vlcMax → (k < s.th.vstart ∨ s.th.vlc ≤ k ∨ (s.th.active md k = false ∧ vtMd vt = false)) →
          t.th.elem vd.toNat w k = v k))))) ∧
    (∀ p ∈ ([(.vstj vd a wid md mo, fun k => s.th.x a + BitVec.ofNat 64 (k * z), []), (.vstjIndexed vd a vi wid md mo, idx, [vi.toNat])] :
        List (Instr × (Nat → Word) × List Nat)),
      let put (u : State) (k : Nat) : State := match (loc k).region with
        | some r => u.joinCell u.th.owner r (dieOf (coreOf u.cur)) (loc k).pa (v k) | none => u
      let start := storeStart s z (ks.map (fun k => (k, [(p.2.1 k, v k)])))
      let fits (r : Region) : Prop := r.width = z ∨ (r.typ = 5 ∧ 16 ≤ r.width ∧ w = 64)
      let ok (u : State) (k : Nat) : Prop := u.access u.vctx .store false (p.2.1 k) z k = .ok (loc k) ∧ ∃ r, (loc k).region = some r ∧ fits r
      VectorReady s md true (vd.toNat :: p.2.2) (widMatches wid vt && portClear vt) →
      (∀ pre k post x, ks = pre ++ k :: post → (s.remoteOf (p.2.1 k) = none ∨ pre ≠ []) → InTurn put ok start pre → let u := pre.foldl put start
        (u.access u.vctx .store false (p.2.1 k) z k = .error x ∨ ∃ l, u.access u.vctx .store false (p.2.1 k) z k = .ok l ∧
          ((l.region = none ∧ x = { cause := 0x08, sub := 0x03, eval := p.2.1 k, elem := k, kind := 1 }) ∨
            ∃ r, l.region = some r ∧ ¬ fits r ∧ x = { cause := 0x08, sub := 0x01, eval := p.2.1 k, elem := k, kind := 1 })) →
        let v' := if mo = .ord then u else (runAbove (joinUnit State.vctx (decide (w = 64)) z) (fun _ _ => false) [] u
          (post.map (fun i => (i, [(p.2.1 i, v i)])))).1
        exec p.1 s = .next ((v'.setCsr .vstart (BitVec.ofNat 64 k)).takeTrap x)) ∧
      (InTurn put ok start ks →
      exec p.1 s = .next (ends (ks.foldl put start)) ∧
      ∃ t, exec p.1 s = .next t ∧ Passes (modWords md) s t ∧ KeepsVectors s t ∧
        KeepsScalars [] s t ∧ KeepsFloats [] s t ∧ KeepsCsrs [.vstart, .retired] s t)) ∧
    (VectorReady s md true [vd.toNat, vi.toNat] (widMatches wid vt && decide (s.th.vstart = 0) && portClear vt) →
      (∀ pre k post dev, s.myRemotes = [] → ks = pre ++ k :: post →
        let good (k : Nat) : Prop := (idx k).toNat % z = 0 ∧
          ∀ d, s.remoteOf (idx k) = some d → s.member d = true ∧ s.keys.contains s.th.owner = true;
        (∀ i ∈ pre, good i) →
        let stops (cause : BitVec 8) : Prop := exec (.vstxr vd a vi wid md mo) s =
          .next ((s.setCsr .vstart (BitVec.ofNat 64 k)).takeTrap { cause := cause, eval := idx k, elem := k, kind := 1 })
        ((idx k).toNat % z ≠ 0 → stops 0x03) ∧ ((idx k).toNat % z = 0 → s.remoteOf (idx k) = some dev →
          (s.member dev = false → stops 0x07) ∧ (s.member dev = true → s.keys.contains s.th.owner = false → stops 0x14))) ∧
      (s.myRemotes = [] → (∀ k ∈ ks, (idx k).toNat % z = 0 ∧ ∀ dev, s.remoteOf (idx k) = some dev → s.member dev = true) →
        s.keys.contains s.th.owner = true → (∃ k ∈ ks, s.remoteOf (idx k) ≠ none) →
        exec (.vstxr vd a vi wid md mo) s = .next (((ks.filterMap (fun k => s.remoteOf (idx k))).eraseDups.foldl (fun u dev =>
          u.sendRemote dev s.th.owner 0x04 ((ks.filter (fun k => decide (s.remoteOf (idx k) = some dev))).map
            (fun k => ⟨(idx k).toNat % 2 ^ 57, widthCode z, BitVec.ofNat 64 (v k)⟩))) s.drain).waitOn (.remote s.nextTag false)) ∧
        (∃ t, exec (.vstxr vd a vi wid md mo) s = .next t ∧ (
          (∃ n, t.th.run = .waiting (.remote n false)) ∧ t.th.pc = s.th.pc ∧ t.th.lsq = [] ∧ KeepsVectors s t ∧ KeepsScalars [] s t))) ∧
      (s.myRemotes ≠ [] ∨ (∀ k ∈ ks, s.remoteOf (idx k) = none ∧ (idx k).toNat % z = 0) →
        let d := (if s.myRemotes = [] then s.drain else s).dropRemotes
        let own := ks.filter (fun k => decide (s.remoteOf (idx k) = none))
        let mine : List (Nat × List (Word × Nat)) := own.map (fun k => (k, [(idx k, v k)]))
        let ws := d.unitsWrite z mine; let start := d.slotWhole ws
        let failed := s.myRemotes.foldl (fun b (o : RemoteOp) => lowerFail b
          (o.failure (all.filter (fun u => u.2.any (fun f => decide (s.remoteOf f.1 = some o.dev)))))) none
        let r := start.trainUnits d.vctx z mine; let place := placeUnit d.vctx z idx v loc
        ((∀ o ∈ s.myRemotes, o.fail = none) → InTurn place (placeOk d.vctx z idx loc) start own →
          exec (.vstxr vd a vi wid md mo) s = .next (ends ((own.foldl place start).cleanLines ws)) ∧
          ((∀ k ∈ own, ∃ l, d.access d.vctx .store false (idx k) z k = .ok l ∧ l.region = none ∧ l.pa = (loc k).pa) →
            ws = own.map (fun k => ((loc k).pa, natLe z (v k))))) ∧
        (∀ k va sub, lowerFail failed r.2 = some (k, va, sub) → exec (.vstxr vd a vi wid md mo) s =
          .next (((r.1.cleanLines ws).setCsr .vstart 0).takeTrap
            { cause := 0x12, sub := BitVec.ofNat 8 sub, eval := va, elem := k, kind := 1 }))))) ∧
  (∀ (s : State) (dev owner : Nat) (recs : List UnitRec), let port := s.portOf dev
    let q := Map.get Port.reset s.ports port
    q.up = true → 1 ≤ recs.length → recs.length ≤ 13 → (s.sendRemote dev owner 0x04 recs).outbox = s.outbox ++
      [(port, { unitFlit 0x04 s.devnum dev owner s.nextTag 0 recs with seq := q.txSeq }),
       (port, { unitFlit 0x05 s.devnum dev owner s.nextTag recs.length [] with seq := (q.txSeq + 1) % 2 ^ 32 })])

/-- R237, R239 to R243: with a legal VTYPE: while the named tile load is pending each of the three waits. Otherwise
tld, once every 64-byte piece of its rows passes its checks after the seat's older stores, completes: the tile takes
the format's tag, this owner, no poison, and a pending load of exactly those pieces, row by row; the row stride is sb,
or the row's bytes for s0. twait completes when the load left no poison, and else takes poison consumed with EVAL and
EELEM of the poisoned piece. tzero completes with the tile zero, tag 0, owned by this owner and not poisoned. No other
register, tile or byte changes but by the seat's older stores under tld, which change memory as they do without it.
With a piece on another member device, under an owner with a key, tld sends its requests (log 18, DEDUCED) and waits
(R239, R475); answered, its tile is pending with the bytes answered, or the failing piece traps (0x12; as poison for
sub-cause 0x04). The first piece that fails its checks, none before it remote, traps with EVAL its address, EELEM its
row, VSTART 0. That tld performs the seat's older stores first is the model's choice (log 4, DEDUCED): R240 and R145
ask only for forwarding. -/
def Obligations.TileInstructions : Prop :=
  ∀ (s : State) (tb : Bool) (a b : SReg) (fmt : TileFmt) (h : TileShape) (loc : Nat → Nat → Loc), vtypeLegal s.th.vt = true →
    tileShape (tileTag fmt) = some h →
    let x := s.th.tile tb
    let me : BitVec 10 := BitVec.ofNat 10 s.th.owner
    let keeps (t : State) : Prop := Passes 1 s t ∧ KeepsVectors s t ∧ KeepsScalars [] s t ∧ KeepsFloats [] s t ∧
      KeepsCsrs [.retired] s t ∧ t.th.tile (!tb) = s.th.tile (!tb)
    (x.pending.isSome = true → exec (.tld tb a b fmt) s = .next (s.waitOn (.tile tb false)) ∧
      exec (.twait tb) s = .next (s.waitOn (.tile tb true)) ∧ exec (.tzero tb) s = .next (s.waitOn (.tile tb false))) ∧
    (x.pending = none →
      (let row := h.n * h.bits / 8
        let stride : Word := if b = 0 then BitVec.ofNat 64 row else s.th.x b
        let va (k m : Nat) : Word := s.th.x a + BitVec.ofNat 64 k * stride + BitVec.ofNat 64 (64 * m)
        let u := s.drain.reach s.vctx 64 ((List.range h.k).flatMap (fun k => (List.range (row / 64)).map (va k)))
        let reads (k m : Nat) : Prop := s.remoteOf (va k m) = none ∧ u.access u.vctx .load false (va k m) 64 k = .ok (loc k m)
        let there (k m : Nat) : Prop := (va k m).toNat % 64 = 0 ∧ ∃ dev, s.remoteOf (va k m) = some dev ∧ s.member dev = true
        let loaded (t : State) : Prop := Passes 1 s t ∧ t.th.lsq = [] ∧ KeepsVectors s t ∧ KeepsScalars [] s t ∧ KeepsFloats [] s t ∧
          KeepsCsrs [.retired] s t ∧ KeepsStore u t ∧ t.th.tile (!tb) = s.drain.th.tile (!tb) ∧
          ((s.th.tile (!tb)).pending = none → t.th.tile (!tb) = s.th.tile (!tb)) ∧
          (t.th.tile tb).tag = BitVec.ofNat 4 (tileTag fmt) ∧ (t.th.tile tb).owner = some me ∧ (t.th.tile tb).poison = false;
        (s.myRemotes = [] →
        ((∀ k m, k < h.k → m < row / 64 → reads k m) →
        (∃ t, exec (.tld tb a b fmt) s = .next t ∧ (loaded t ∧ KeepsDevice u t ∧
          (t.th.tile tb).pending = some ((List.range h.k).flatMap (fun k => (List.range (row / 64)).map (fun m =>
            (⟨(loc k m).pa, va k m, k, (loc k m).psn, none, []⟩ : TilePiece))))))) ∧
        (∀ k m x, k < h.k → m < row / 64 → (∀ i j, i < h.k → j < row / 64 → i < k ∨ (i = k ∧ j < m) → reads i j) →
          (s.remoteOf (va k m) = none → u.access u.vctx .load false (va k m) 64 k = .error x) →
          (∀ dev, s.remoteOf (va k m) = some dev →
            ((va k m).toNat % 64 ≠ 0 ∧ x = { cause := 0x03, eval := va k m, elem := k, kind := 0 }) ∨
            ((va k m).toNat % 64 = 0 ∧ s.member dev = false ∧ x = { cause := 0x07, eval := va k m, elem := k, kind := 0 }) ∨
            ((va k m).toNat % 64 = 0 ∧ s.member dev = true ∧ s.keys.contains s.th.owner = false ∧
              x = { cause := 0x14, eval := va k m, elem := k, kind := 0 })) →
          exec (.tld tb a b fmt) s = .next ((u.setCsr .vstart 0).takeTrap x)) ∧
        ((∀ k m, k < h.k → m < row / 64 → reads k m ∨ there k m) → s.keys.contains s.th.owner = true →
          (∃ k m, k < h.k ∧ m < row / 64 ∧ s.remoteOf (va k m) ≠ none) →
          (∃ t, exec (.tld tb a b fmt) s = .next t ∧ (t.th.run = .waiting (.remote s.drain.nextTag false) ∧ t.th.pc = s.th.pc ∧
            t.th.lsq = [] ∧ KeepsVectors s t ∧ KeepsScalars [] s t ∧ KeepsFloats [] s t ∧ KeepsCsrs [] s t ∧
            KeepsStore u t ∧ KeepsTiles s.drain t)))) ∧
        (∀ ps, s.myRemotes ≠ [] → u.tilePieces (h.pieces (s.th.x a) stride) = (ps, none) →
          (u.tileFailure ps = none → (∃ t, exec (.tld tb a b fmt) s = .next t ∧ (loaded t ∧ t.remotes = s.dropRemotes.remotes ∧
            (t.th.tile tb).pending = some (s.myRemotes.foldl (fun ps o => o.fill ps) ps)))) ∧
          (∀ x, u.tileFailure ps = some x → exec (.tld tb a b fmt) s = .next ((u.dropRemotes.setCsr .vstart 0).takeTrap x)))) ∧
      (x.poison = false → (∃ t, exec (.twait tb) s = .next t ∧ (keeps t ∧ t.th.tile tb = x ∧ KeepsMemory s t ∧ KeepsDevice s t))) ∧
      (x.poison = true → Traps (.twait tb) s { cause := 0x0D, eval := x.paddr, elem := x.prow.toNat, kind := 0 }) ∧
      (∃ t, exec (.tzero tb) s = .next t ∧ (keeps t ∧ KeepsMemory s t ∧ KeepsDevice s t ∧
        (t.th.tile tb).data = 0 ∧ (t.th.tile tb).tag = 0 ∧ (t.th.tile tb).owner = some me ∧ (t.th.tile tb).poison = false ∧
        (t.th.tile tb).pending = none)))

/-- R76, R237, R238, R243 to R247: with its conditions met (VSTART 0, VTYPE suiting the tile, VL within the limit, the
scales in v1), no load pending on the tile and no poison in it, a row instruction completes: each output starts from
the old accumulator and, for every chunk of 32 indices up to the limit, adds the exact sum (of integers for an
unscaled integer tile) of the products of vector elements below VL and tile elements (row j for mxr, the row that vidx
element j names for mxri, column j for mxrt) and rounds once to nearest even in FP32, or FP64 for FP64 tiles. A tile
of another owner reads zero. The old accumulator enters unflushed under every FZ, which R247 does not list: the
model's reading (DEDUCED; log 46). With VL = 0 nothing is written. Without an enabled flag all outputs are written and
FFLAGS takes the flags; with one, the trap is taken and nothing is written. -/
def Obligations.MatrixRows : Prop :=
  ∀ (s : State) (vd vs vi : VReg) (tb : Bool), let t := s.th; let vt := t.vt; let x := t.tile tb; let tag := x.tag.toNat
    let h := t.tileDims tb; let f := tagAcc tag; let fz := vtFz vt; let w := f.bits
    let data : BitVec 524288 := if x.owner = some (BitVec.ofNat 10 t.owner) then x.data else 0
    let row (j : Nat) : Nat := t.elem vi.toNat t.ew j
    let forms : List (Instr × Nat × Nat × (Nat → Nat → Option (Nat × Nat)) × List VReg × Nat × Bool) :=
      [(.mxr vd vs tb, h.n, h.k, fun o j => some (j, o), [], (t.vl + 31) / 32 * h.n, true),
      (.mxri vd vs vi tb, h.n, h.k, fun o j => if row j < h.k then some (row j, o) else none, [vi], h.k / 32 * h.n,
        decide (tag ≠ 2 ∧ tag ≠ 3 ∧ tag ≠ 8)),
      (.mxrt vd vs tb, h.k, h.n, fun o j => some (o, j), [], h.k / 32 * h.n, true)]
    x.pending = none → x.poison = false → ∀ p ∈ forms,
      let outs := p.2.1; let limit := p.2.2.1; let place := p.2.2.2.1; let scales := p.2.2.2.2.2.1
      let g := t.accRegs outs w
      VectorReady s ⟨false, none⟩ (decide (vd.toNat % g = 0))
        (vs.toNat :: p.2.2.2.2.1.map (fun v => v.toNat) ++ groupRegs vd g)
        (p.2.2.2.2.2.2 && decide (t.vstart = 0) && tagFmtOk tag (vtFmt vt) (vtEwc vt) && decide (t.vl ≤ limit) &&
          decide (vtSfmt vt = 0) && (!vtScl vt || decide (6 ≤ tag)) &&
          (!(decide (9 ≤ tag) || vtScl vt) || decide (scales ≤ t.portion * t.lanes * 2))) →
      let chunk (o c : Nat) : List (FVal × FVal × BitVec 5) := (List.range 32).filterMap (fun j =>
        if 32 * c + j < t.vl then (place o (32 * c + j)).map (fun q => (t.rowVal vs (32 * c + j), t.tileVal tag h.n data q.1 q.2))
        else none)
      let out (o : Nat) : FOut := (List.range (limit / 32)).foldl (fun acc c =>
        let ts := chunk o c
        let sum := chunkSum (decide (tag = 0) || (decide (tag = 8) && !vtScl vt)) (ts.map (fun z => (z.1, z.2.1)))
        (fAdd f ⟨0, fz, false⟩ (f.read 0 acc.bits) sum.1).raise (acc.fl ||| sum.2 ||| ts.foldl (fun a z => a ||| z.2.2) 0))
        { bits := t.elem vd.toNat w o }
      (t.vl = 0 → (∃ u, exec p.1 s = .next u ∧ (Passes 1 s u ∧ KeepsVectors s u ∧ KeepsScalars [] s u ∧ KeepsFloats [] s u ∧
        KeepsCsrs [.retired] s u ∧ KeepsTiles s u ∧ KeepsMemory s u ∧ KeepsDevice s u))) ∧
      (t.vl ≠ 0 → WholeFloat p.1 s ⟨false, none⟩ [] (groupRegs vd g)
        ((List.range outs).foldl (fun a o => a ||| (out o).fl) 0) (fun _ => 0)
        (fun u => ∀ o, o < outs → u.th.elem vd.toNat w o = (out o).bits % 2 ^ w))

/-- R144, R256 to R260, R301, R362, R363: with a legal VTYPE and the slot table in memory: fbind of a resident
identifier of this owner, and funbind, unarm the slot's shadows and store the entry as a store of the seat; fdrop
removes the image and its contexts, a running fx keeping its own under a number of its own (R363); an identifier that
is not resident, or no identifier, takes 0x0A, sub-cause 0x01, from both, and one of another owner sub-cause 0x02;
fload of an address that is no multiple of 64 takes misaligned access, of one that cannot be read, its lines served by
their coherence points (R332), the trap of the check, of a readable image that passes the checks of R301, read with
the seat's own pending stores (R145), places it under an identifier that was free and returns that, or all ones when
there is no identifier or no room, and takes bad fabric image (0x0A) with the check's sub-cause and address when one
fails; fquery returns the entry, the tiles of the placement, the footprint, the number of free identifiers, the tiles
active, the clock of the first tile in MHz, or 0. No other register changes. -/
def Obligations.FabricSlots : Prop :=
  ∀ (s : State) (d a : SReg) (slot : BitVec 6) (hb bs : List Byte) (h : FHead) (g : FImage) (i : Image) (e : Refused),
    let pa := (s.th.get .slottab).toNat + 8 * slot.toNat; let tab := (s.th.get .slottab).toNat; let sa := s.th.x a
    let memory : Prop := paKind pa = .hbm ∨ paKind pa = .vsp
    let store (u : State) (v : Nat) : State := u.enqueue ⟨pa, natLe 8 v, u.th.owner, false, false⟩
    let ends (u : State) (t : Thread) : State := u.finish t.pushVq 1
    let q := s.slotServe slot.toNat; let entry := q.slotEntry slot.toNat; let u := s.areaServe sa 1
    let core := s.core (coreOf s.cur)
    let tiles : List Nat := match (if bitsOf entry 63 1 = 1 then core.placeOf (bitsOf entry 0 12) else none) with
      | some p => (List.range p.foot).map (fun r => p.base + r) | none => []
    let mask (ts : List Nat) : Word := BitVec.ofNat 64 (ts.foldl (fun n t => n + 2 ^ t) 0)
    let val (u : State) (v : Word) : State := ends u (u.th.setX d v)
    vtypeLegal s.th.vt = true →
    (memory → sa.toNat < 4096 → s.image sa.toNat = some i → i.owner = s.th.owner →
      (let u := store (s.unarm tab slot.toNat) (2 ^ 63 + sa.toNat); exec (.fbind slot a) s = .next (ends u u.th))) ∧
    (∀ p ∈ ([.fbind slot a, .fdrop a] : List Instr),
      ((s.image sa.toNat = none ∨ 4096 ≤ sa.toNat) → Traps p s { cause := 0x0A, sub := 0x01 }) ∧
      (sa.toNat < 4096 → s.image sa.toNat = some i → i.owner ≠ s.th.owner → Traps p s { cause := 0x0A, sub := 0x02 })) ∧
    (sa.toNat % 64 ≠ 0 → Traps (.fload d a) s { cause := 0x03, eval := sa, kind := 0 }) ∧
    (∀ x, sa.toNat % 64 = 0 → u.areaRead sa 1 = .error x → exec (.fload d a) s = .next (u.takeTrap x)) ∧
    (memory → (let u := store (s.unarm tab slot.toNat) 0; exec (.funbind slot) s = .next (ends u u.th))) ∧
    (sa.toNat < 4096 → s.image sa.toNat = some i → i.owner = s.th.owner →
      (let u := s.dropImage sa.toNat; exec (.fdrop a) s = .next (ends u u.th) ∧ u.image sa.toNat = none ∧
        (∀ c, ∀ e ∈ (u.core c).ctx, e.cid ≠ sa.toNat) ∧ (∀ n ∈ s.allSeats, ∀ r, (s.seat n).fx = some r → r.cid = sa.toNat →
          ∃ r', (u.seat n).fx = some r' ∧ r' = { r with cid := ghostId n })) ∧
      (∃ t, exec (.fdrop a) s = .next t ∧ (Passes 1 s t ∧ KeepsScalars [] s t ∧ KeepsVectors s t ∧ KeepsStore s t))) ∧
    (sa.toNat % 64 = 0 → u.areaRead sa 1 = .ok hb →
      (headerOf (wordsOf hb) = .error e → exec (.fload d a) s =
        .next (u.takeTrap { cause := 0x0A, sub := e.sub, eval := sa + BitVec.ofNat 64 e.off })) ∧
      (headerOf (wordsOf hb) = .ok h → let w := u.areaServe (sa + 64) (h.length / 64 - 1)
        (∀ x, w.areaRead (sa + 64) (h.length / 64 - 1) = .error x → exec (.fload d a) s = .next (w.takeTrap x)) ∧
        (w.areaRead (sa + 64) (h.length / 64 - 1) = .ok bs →
        (imageOf (wordsOf (hb ++ bs)) = .error e → exec (.fload d a) s =
          .next (w.takeTrap { cause := 0x0A, sub := e.sub, eval := sa + BitVec.ofNat 64 e.off })) ∧
        (imageOf (wordsOf (hb ++ bs)) = .ok g →
          ((s.freeIds = [] ∨ 2 ^ 23 < s.armoireUsed + g.length) → exec (.fload d a) s = .next (val w (BitVec.allOnes 64))) ∧
          (s.freeIds ≠ [] → s.armoireUsed + g.length ≤ 2 ^ 23 → ∃ id ∈ s.freeIds, exec (.fload d a) s =
            .next (val { w with images := Map.put none s.images id (some ⟨s.th.owner, g⟩) } (BitVec.ofNat 64 id))))))) ∧
    (memory → ∀ p ∈ ([(0, BitVec.ofNat 64 entry), (1, mask tiles),
        (2, if bitsOf entry 63 1 = 1 then ((s.image (bitsOf entry 0 12)).map (fun i => BitVec.ofNat 64 i.img.foot)).getD 0 else 0),
        (3, BitVec.ofNat 64 ((List.range 4096).countP (fun i => (s.image i).isNone))),
        (4, mask (tiles.filter (fun t => core.ctx.any (fun (c : TileCtx) =>
          decide (c.tile = t ∧ c.cid = bitsOf entry 0 12) && c.active)))),
        (5, match tiles with | [] => 0 | t :: _ => BitVec.ofNat 64 (500 + 50 * (core.clk.getD t 10).toNat))] : List (Nat × Word)),
      sa = BitVec.ofNat 64 p.1 → exec (.fquery d slot a) s = .next (val q p.2)) ∧
    (memory → 6 ≤ sa.toNat → exec (.fquery d slot a) s = .next (val q 0))

/-- R259, R264, R364, R375, R377: with a legal VTYPE, the slot table in memory, the slot valid, both images resident,
the shadow this owner's and its footprint no larger: when the active configuration is placed and every tile of the
shadow has an entry, the shadow is loaded on those that have not swapped, in the place of an earlier one, a started fx
of the slot that has input left or a swap under way carries the swap to it, the slot's entry takes SH and the shadow's
identifier, and the instruction completes; without a placement or an entry, or while one that waited before it looks
for entries (R322), the thread waits at its place, and the next one behind it looks. A slot that is not valid takes
0x09, an image that is not resident 0x0A sub-cause 0x01, a shadow of another owner 0x02, a larger footprint 0x04; each
lets the next one behind it look (R364). -/
def Obligations.FabricShadow : Prop :=
  ∀ (s : State) (slot : BitVec 6) (a : SReg) (i old : Image), let tab := (s.th.get .slottab).toNat
    let pa := tab + 8 * slot.toNat; let sa := s.th.x a
    let c := coreOf s.cur; let q := (s.core c).fxq; let ahead := q.takeWhile (· ≠ s.cur)
    let behind := (q.dropWhile (· ≠ s.cur)).drop 1; let own := s.setCore c { s.core c with fxq := ahead ++ behind }
    let v := own.slotServe slot.toNat; let e := v.slotEntry slot.toNat; let cid := bitsOf e 0 12
    let p := v.place s.cur cid old.img.foot
    let traps (u : State) (x : Trap) : Prop := exec (.fshadow slot a) s = .next ((u.wakeFirst behind).takeTrap x)
    vtypeLegal s.th.vt = true → (paKind pa = .hbm ∨ paKind pa = .vsp) →
    ((s.image sa.toNat = none ∨ 4096 ≤ sa.toNat) → traps own { cause := 0x0A, sub := 0x01 }) ∧
    (sa.toNat < 4096 → s.image sa.toNat = some i →
    (i.owner ≠ s.th.owner → traps own { cause := 0x0A, sub := 0x02 }) ∧ (i.owner = s.th.owner →
    (bitsOf e 63 1 = 0 → traps v { cause := 0x09, eval := slot.setWidth 64 }) ∧
    (bitsOf e 63 1 = 1 → s.image cid = none → traps v { cause := 0x0A, sub := 0x01 }) ∧
    (bitsOf e 63 1 = 1 → s.image cid = some old →
      (old.img.foot < i.img.foot → traps v { cause := 0x0A, sub := 0x04 }) ∧
      (i.img.foot ≤ old.img.foot →
        ((ahead.any v.looking = true ∨ p.2 = none) → exec (.fshadow slot a) s = .next (v.waitEntry ahead behind)) ∧
        (∀ b, ahead.any v.looking = false → p.2 = some b →
          let tiles := (List.range i.img.foot).map (fun r => b + r)
          let room (t : Nat) : Bool := ((p.1.core c).entries t).any (fun (x : TileCtx) => decide (x.shadow = some (p.1.slotTab, slot.toNat))) ||
            p.1.hasEntry c t
          (tiles.all room = false → exec (.fshadow slot a) s = .next (p.1.waitEntry ahead behind) ∧
            (s.cur ∉ behind → (∃ t, exec (.fshadow slot a) s = .next t ∧ (t.th.run = .waiting .fabricEntry ∧ t.th.pc = s.th.pc)))) ∧
          (tiles.all room = true →
            (let u := (tiles.foldl (fun u t => u.loadShadow c t sa.toNat tab slot.toNat) (p.1.disarm tab slot.toNat)).carrySwap c tab
                slot.toNat sa.toNat i.img.foot
              let u := u.enqueue ⟨pa, natLe 8 (2 ^ 63 + 2 ^ 62 + sa.toNat * 2 ^ 32 + cid), u.th.owner, false, false⟩;
              exec (.fshadow slot a) s = .next ((u.finish u.th.pushVq 1).wakeFirst behind)) ∧
            (s.cur ∉ behind → (∃ t, exec (.fshadow slot a) s = .next t ∧ (Passes 1 s t ∧ KeepsScalars [] s t ∧ KeepsFloats [] s t ∧
              KeepsVectors s t)))))))))

/-- R111, R261, R263, R362: with a legal VTYPE without ports, the sources and vd in the shape, the slot table in
memory, the slot's entry valid and naming a resident image of this owner: when every source has length 0 and FSTAT.REC
is 0 the fx completes with VL, VSTART and FSTAT.MORE 0; otherwise the thread waits, its run holding the configuration,
the streams of the sources from the recorded places on, and the argument, and its seat last in the core's fx queue. A
slot that is not valid takes 0x09, an image that is gone 0x0A sub-cause 0x01, one of another owner sub-cause 0x02. -/
def Obligations.FabricExecuteIssue : Prop :=
  ∀ (s : State) (vd va vb vc : VReg) (slot : BitVec 6) (len arg : SReg) (i : Image), let tab := (s.th.get .slottab).toNat
    let pa := tab + 8 * slot.toNat; let q := s.slotServe slot.toNat; let e := q.slotEntry slot.toNat; let cid := bitsOf e 0 12
    vtypeLegal s.th.vt = true → portClear s.th.vt = true → (paKind pa = .hbm ∨ paKind pa = .vsp) →
    let none_ (k : Nat) (srcs : List VReg) (ns : List Nat) : Prop := (∀ v ∈ vd :: srcs, v.toNat < s.th.nreg) ∧
      (i.img.port1 = true → vd.toNat + 1 < s.th.nreg) ∧ bitsOf e 63 1 = 1 ∧ s.image cid = some i ∧ i.owner = s.th.owner ∧
      (s.th.get .fstat).getLsbD 1 = false ∧ ns.length = k ∧ ∀ n ∈ ns, n = 0
    let empty (words : Nat) (t : State) : Prop := Passes words s t ∧ t.th.get .vl = 0 ∧
      t.th.get .vstart = 0 ∧ (t.th.get .fstat).getLsbD 0 = false ∧ KeepsCsrs [.vl, .vstart, .fstat, .retired] s t ∧
      KeepsScalars [] s t ∧ KeepsFloats [] s t ∧ KeepsVectors s t ∧ KeepsTiles s t ∧ KeepsMemory q t
    let given (j : Nat) : Nat := if len = 0 then s.th.vlc else
      unitsOf (vtFmt s.th.vt) (Nat.min (s.th.x (len + BitVec.ofNat 5 j)).toNat s.th.vlmax)
    (none_ 1 [va] [s.th.vlc] → ∃ t, exec (.fx vd va slot) s = .next t ∧ empty 1 t) ∧
    (none_ 1 [va, vb] [s.th.vlc] → ∃ t, exec (.fxTwo vd va vb slot) s = .next t ∧ empty 1 t) ∧
    (∀ src : FxSrcs, none_ (fxSources src).length (fxSources src) ((List.range (fxSources src).length).map given) →
      ∃ t, exec (.fxLong vd slot src len arg) s = .next t ∧ empty 2 t) ∧
    ∀ p ∈ ([(.fx vd va slot, [va], 0, 0, 1), (.fxTwo vd va vb slot, [va, vb], 0, 0, 1),
      (.fxLong vd slot (.one va) len arg, [va], len, arg, 2), (.fxLong vd slot (.two va vb) len arg, [va, vb], len, arg, 2),
      (.fxLong vd slot (.three va vb vc) len arg, [va, vb, vc], len, arg, 2)] : List (Instr × List VReg × SReg × SReg × Nat)),
    (∀ v ∈ vd :: p.2.1, v.toNat < s.th.nreg) →
    let held : State := q.withTh { q.th with slotValid := q.th.slotValid ||| (1#64 <<< slot.toNat) }
    let n (j : Nat) : Nat := if p.2.2.1 = 0 then s.th.vlc else
      unitsOf (vtFmt s.th.vt) (Nat.min (s.th.x (p.2.2.1 + BitVec.ofNat 5 j)).toNat s.th.vlmax)
    let more := (s.th.get .fstat).getLsbD 1
    let start (j : Nat) : Nat := if more then (s.th.get (fsx j)).toNat % 2 ^ 32 else 0
    (bitsOf e 63 1 = 0 → exec p.1 s = .next (held.takeTrap { cause := 0x09, eval := slot.setWidth 64 })) ∧
    (bitsOf e 63 1 = 1 →
      (s.image cid = none → exec p.1 s = .next (held.takeTrap { cause := 0x0A, sub := 0x01 })) ∧
      (s.image cid = some i → i.owner ≠ s.th.owner → exec p.1 s = .next (held.takeTrap { cause := 0x0A, sub := 0x02 })) ∧
      (s.image cid = some i → i.owner = s.th.owner → (i.img.port1 = true → vd.toNat + 1 < s.th.nreg) →
        (more = false → (∀ j, j < p.2.1.length → n j = 0) → (∃ t, exec p.1 s = .next t ∧ (Passes p.2.2.2.2 s t ∧ t.th.get .vl = 0 ∧
          t.th.get .vstart = 0 ∧ (t.th.get .fstat).getLsbD 0 = false ∧ KeepsCsrs [.vl, .vstart, .fstat, .retired] s t ∧
          KeepsScalars [] s t ∧ KeepsFloats [] s t ∧ KeepsVectors s t ∧ KeepsTiles s t ∧ KeepsMemory q t))) ∧
        ((more = true ∨ ∃ j, j < p.2.1.length ∧ n j ≠ 0) → (∃ t, exec p.1 s = .next t ∧ (t.th.run = .waiting .fx ∧ t.th.pc = s.th.pc ∧
          KeepsScalars [] s t ∧ KeepsVectors s t ∧ KeepsCsrs [] s t ∧ KeepsStore q t ∧
          ∃ r, t.th.fx = some r ∧ r.img = i.img ∧ r.cid = cid ∧ r.tab = tab ∧ r.slot = slot.toNat ∧ r.vd = vd ∧
            r.words = p.2.2.2.2 ∧ r.started = false ∧ r.arg = s.th.x p.2.2.2.1 ∧ r.sources = p.2.1.length ∧
            (∀ j v, p.2.1[j]? = some v → ∃ x, r.streams[j]? = some x ∧ x.next = start j ∧
              x.elems = (List.range (n j - start j)).map (fun k => BitVec.ofNat 64 (s.th.elem v.toNat s.th.ew (start j + k)))))))))

/-- R265 to R268, R379, R386, R397: with a legal VTYPE, on a cell that passes checks 1 to 4 in a region of its width
(or a part of a wide bit set): stj joins the value into the cell of this die's replica, after the seat's older stores
under .rel. ltw returns the cell's value and ltwn the number of cells at or above the threshold, when at least the
number asked for are, or when LTWTO cycles have passed; otherwise the thread waits at the instruction and the wait's
time counts on. lsync on a region address sends the die's change sets now. The first cell that fails its checks,
poison (0x0D) among them, gives the trap. Outside a region each takes lattice violation (0x08) sub-cause 0x03, at a
width that is not the cell's sub-cause 0x01; ltwn of more than 4,096 cells, or of cells past the end of the region,
takes 0x0B, sub-cause 0x02. What a translation takes is read first, and the coherence points serve the cells (R332,
R446). R379, R388: a join, whose line is in its slice or is read there without an error, only moves a cell upward in
its order, to the join of the two values, and writes nothing else. -/
def Obligations.LatticeInstructions : Prop :=
  ∀ (s : State) (d a b : SReg) (rel dbl : Bool) (l : Loc) (r : Region), let n := if dbl then 8 else 4; let va := s.th.x a
    let die := dieOf (coreOf s.cur)
    vtypeLegal s.th.vt = true →
    (let u := (if rel then s.drain else s).reach s.ctx n [va];
      (∀ x, u.access u.ctx .store false va n 0 = .error x → exec (.stj a b rel dbl) s = .next (u.takeTrap x)) ∧
      (u.access u.ctx .store false va n 0 = .ok l → l.region = some r → (r.width = n ∨ (r.typ = 5 ∧ 16 ≤ r.width ∧ dbl = true)) →
        (let v := u.joinCell u.th.owner r die l.pa ((s.th.x b).toNat % 2 ^ (8 * n));
          exec (.stj a b rel dbl) s = .next (v.finish v.th.pushVq 1)) ∧
        (∃ t, exec (.stj a b rel dbl) s = .next t ∧ (Passes 1 s t ∧ KeepsScalars [] s t ∧ KeepsFloats [] s t ∧ KeepsVectors s t ∧
          KeepsCsrs [.retired] s t))) ∧
      (u.access u.ctx .store false va n 0 = .ok l → l.region = none →
        exec (.stj a b rel dbl) s = .next (u.takeTrap { cause := 0x08, sub := 0x03, eval := va, kind := 1 })) ∧
      (u.access u.ctx .store false va n 0 = .ok l → l.region = some r → ¬ (r.width = n ∨ (r.typ = 5 ∧ 16 ≤ r.width ∧ dbl = true)) →
        exec (.stj a b rel dbl) s = .next (u.takeTrap { cause := 0x08, sub := 0x01, eval := va, kind := 1 }))) ∧
    (let v := s.reach s.ctx n [va]
      let fits (q : Region) : Prop := q.width = n ∨ (q.typ = 5 ∧ 16 ≤ q.width ∧ dbl = true)
      let fails (u : State) (i : Instr) (x : Trap) : Prop :=
        exec i s = .next ((u.withTh { u.th with waitStart := none, waitUsed := 0, wake := false }).takeTrap x)
      let wrong (u : State) (at_ : Word) (x : Trap) : Prop := u.access u.ctx .load false at_ n 0 = .error x ∨
        ∃ m, u.access u.ctx .load false at_ n 0 = .ok m ∧ ((m.region = none ∧ x = { cause := 0x08, sub := 0x03, eval := at_, kind := 0 }) ∨
          ∃ q, m.region = some q ∧ ¬ fits q ∧ x = { cause := 0x08, sub := 0x01, eval := at_, kind := 0 })
      (∀ x, wrong v va x → ∀ i ∈ ([.ltw d a b rel dbl, .ltwn d a b rel dbl] : List Instr), fails v i x) ∧
      (v.access v.ctx .load false va n 0 = .ok l → l.region = some r → fits r → ∀ (loc : Nat → Loc) (reg : Nat → Region),
        let thr := r.canon ((s.th.x b).toNat % 2 ^ r.bits)
        let late : Bool := decide ((s.th.get .ltwto).toNat ≠ 0 ∧
          (s.th.get .ltwto).toNat ≤ s.th.waitUsed + (s.cycle - s.th.waitStart.getD s.cycle))
        let c := (s.th.x d).toNat % 2 ^ 32
        let at_ (k : Nat) : Word := va + BitVec.ofNat 64 (k * r.width)
        let far : Prop := 4096 < c ∨ r.rb + r.pages * 4096 < l.pa - (l.pa - r.rb) % r.width + c * r.width
        (far → fails v (.ltwn d a b rel dbl) { cause := 0x0B, sub := 0x02, eval := va, kind := 0 }) ∧
        ∀ p ∈ ([(.ltw d a b rel dbl, 1, 1, false), (.ltwn d a b rel dbl, c, Nat.min ((s.th.x d).toNat / 2 ^ 32) c, true)] :
          List (Instr × Nat × Nat × Bool)), (p.2.2.2 = true → ¬ far) →
        let u := v.serveAt v.ctx ((List.range p.2.1).map at_)
        let good (k : Nat) : Prop := u.access u.ctx .load false (at_ k) n 0 = .ok (loc k) ∧ (loc k).region = some (reg k) ∧ fits (reg k) ∧
          u.poisoned u.th.owner (loc k) = false
        let cell (k : Nat) : Nat := u.cellAt u.th.owner (reg k) (loc k).pa
        let count : Nat := (List.range p.2.1).countP (fun k => r.le thr (cell k))
        let value : Word := if p.2.2.2 then BitVec.ofNat 64 count
          else if r.typ = 2 then BitVec.ofInt 64 (signed r.bits (cell 0)) else BitVec.ofNat 64 (cell 0)
        ((∀ k, k < p.2.1 → good k) →
          ((p.2.2.1 ≤ count ∨ late = true) → ∃ t, exec p.1 s = .next t ∧ Passes 1 s t ∧ (d ≠ 0 → t.th.x d = value) ∧ KeepsScalars [d] s t ∧
            KeepsFloats [] s t ∧ KeepsVectors s t ∧ KeepsCsrs [.retired] s t ∧ KeepsTiles s t ∧ KeepsMemory u t ∧ KeepsDevice u t ∧
            t.th.waitStart = none) ∧
          (count < p.2.2.1 → late = false → ∃ t, exec p.1 s = .next t ∧ t.th.pc = s.th.pc ∧ (∃ k, t.th.run = .waiting k) ∧
            t.th.waitStart = some (s.th.waitStart.getD s.cycle) ∧ KeepsScalars [] s t ∧ KeepsCsrs [] s t ∧ KeepsMemory u t ∧
            KeepsDevice u t)) ∧
        (∀ k x, k < p.2.1 → (∀ j, j < k → good j) → (wrong u (at_ k) x ∨ ∃ m q, u.access u.ctx .load false (at_ k) n 0 = .ok m ∧
            m.region = some q ∧ fits q ∧ u.poisoned u.th.owner m = true ∧
            x = { cause := 0x0D, eval := at_ k, poisons := if m.psn then none else some m.pa, kind := 0 }) → fails u p.1 x))) ∧
    (let v := s.walked s.ctx [va];
      (∀ x, v.access v.ctx .load false va 1 0 = .error x → exec (.lsync a) s = .next (v.takeTrap x)) ∧
      (v.access v.ctx .load false va 1 0 = .ok l →
      (l.region = some r → exec (.lsync a) s = .next ((v.lsyncRegion r die).adv 1) ∧
        (∃ t, exec (.lsync a) s = .next t ∧ (Passes 1 s t ∧ KeepsScalars [] s t ∧ KeepsCsrs [.retired] s t ∧ KeepsVectors s t))) ∧
      (l.region = none → exec (.lsync a) s = .next (v.takeTrap { cause := 0x08, sub := 0x03, eval := va, kind := 0 })))) ∧
    (∀ (q : Region) (old x : Nat), q.le old old = true ∧ q.le old (q.join old x) = true ∧ (q.le old x = true → q.join old x = x) ∧
      (q.le old x = false → q.join old x = old ∨ q.typ = 5)) ∧
    (∀ (u : State) (q : Region) (o e pa v : Nat), q.width ∈ [4, 8, 16, 32, 64] → pa % (q.bits / 8) = 0 → paKind pa = .hbm →
      Map.get LineTag.reset (u.slotLine o pa (q.bits / 8)).lines (pa / 128) = ⟨some o, false⟩ → q.canon v < 2 ^ q.bits →
      let old := u.cellAt o q pa; let w := u.joinCell o q e pa v
      w.cellAt o q pa = q.join old (q.canon v) ∧ q.le old (w.cellAt o q pa) = true ∧
      (∀ p, paKind p = .hbm → (p < pa ∨ pa + q.bits / 8 ≤ p) → w.rawByte p = u.rawByte p))

/-- R269, R270, R320: with a legal VTYPE, wait and wait.y complete at once where the thread already holds an event;
otherwise wait suspends it with its registers, and wait.y returns its octets, with GRANT, VL and VSTART 0 and every
vector register invalid, drops its reservations, and suspends it. cbar in a group arrives: its thread waits, and the
first arrival of a generation fixes the participants, the threads of the group on the core, those saved off their
seats among them (log 32, DEDUCED); a later arrival changes no other thread. Released, or without a group, and with no
copy of the seat under way, cbar completes after the seat's older stores. -/
def Obligations.WaitsAndBarriers : Prop :=
  ∀ (s : State), vtypeLegal s.th.vt = true →
    (let ends (t : State) : Prop := Passes 1 s t ∧ KeepsScalars [] s t ∧ KeepsFloats [] s t ∧ KeepsTiles s t ∧
        t.th.waitStart = none ∧ t.th.wake = false;
      (s.th.wake = true → (∃ t, exec .wait s = .next t ∧ (ends t ∧ KeepsVectors s t ∧ KeepsCsrs [.retired] s t ∧ KeepsMemory s t)) ∧
        (∃ t, exec .waitY s = .next t ∧ (ends t ∧ t.th.get .grant = 0 ∧ t.th.get .vl = 0 ∧ t.th.vvalid = 0))) ∧
      (s.th.wake = false →
        (∃ t, exec .wait s = .next t ∧ (t.th.run = .waiting (.event false) ∧ t.th.pc = s.th.pc ∧ t.th.waitStart = some s.cycle ∧
          KeepsScalars [] s t ∧ KeepsFloats [] s t ∧ KeepsVectors s t ∧ KeepsCsrs [] s t ∧ KeepsTiles s t ∧ KeepsMemory s t ∧
          KeepsDevice s t)) ∧
        (∃ t, exec .waitY s = .next t ∧ (t.th.run = .waiting (.event true) ∧ t.th.pc = s.th.pc ∧ t.th.waitStart = some s.cycle ∧
          t.th.get .grant = 0 ∧ t.th.get .vl = 0 ∧ t.th.get .vstart = 0 ∧ t.th.vvalid = 0 ∧
          KeepsCsrs [.grant, .vl, .vstart] s t ∧ KeepsScalars [] s t ∧ KeepsFloats [] s t ∧ KeepsTiles s t ∧ KeepsStore s t)))) ∧
    ((s.th.cbarPassed = true ∨ s.th.grp = none) → (∀ c ∈ s.copies, c.seat = s.cur → c.status.isSome = true) →
      (∃ t, exec .cbar s = .next t ∧ (Passes 1 s t ∧ t.th.lsq = [] ∧ t.th.cbarPassed = false ∧ KeepsScalars [] s t ∧ KeepsFloats [] s t ∧
        KeepsVectors s t ∧ KeepsCsrs [.retired] s t))) ∧
    (∀ g, s.th.cbarPassed = false → s.th.grp = some g → (∃ t, exec .cbar s = .next t ∧ (t.th.run = .waiting .cbar ∧ t.th.pc = s.th.pc ∧
      KeepsScalars [] s t ∧ KeepsVectors s t ∧ KeepsCsrs [] s t ∧
      (((∀ n ∈ seatsOf (coreOf s.cur), (s.seat n).grp = some g → (s.seat n).cbarIn = false) ∧
          (∀ x ∈ s.saved, x.inGroup (coreOf s.cur) g = true → x.th.cbarIn = false)) →
        t.th.cbarIn = true ∧ t.th.cbarArrived = true ∧
        (∀ n ∈ seatsOf (coreOf s.cur), ((s.seat n).grp = some g → (t.seat n).cbarIn = true) ∧
          ((s.seat n).grp ≠ some g → (t.seat n).cbarIn = (s.seat n).cbarIn)) ∧
        t.saved = s.saved.map (fun (x : Saved) => if x.inGroup (coreOf s.cur) g then { x with th := { x.th with cbarIn := true } } else x)) ∧
      (((∃ n ∈ seatsOf (coreOf s.cur), (s.seat n).grp = some g ∧ (s.seat n).cbarIn = true) ∨
          (∃ x ∈ s.saved, x.inGroup (coreOf s.cur) g = true ∧ x.th.cbarIn = true)) →
        t.th.cbarArrived = s.th.cbarIn ∧ t.saved = s.saved ∧ ∀ n, n ≠ s.cur → t.seat n = s.seat n))))

/-- R271, R272, R355: with a legal VTYPE and addresses of which at most one names another device, a member of the
domain, and fewer than 16 copies of the seat under way: acopy, with one row, or rows and strides under COPY2D,
completes after all the seat's older stores (the model's choice, log 4, DEDUCED: R355 orders only those to the copy's
own bytes): sd takes a handle one above the last, and a copy with this thread's context is under way. With 16 under
way it waits. Two other devices, or one that is no member, take access violation. aquery returns the status word of a
known handle, code 0xFE while it runs, 0xFF for an unknown one; await returns the same once the copy has ended,
forgets it, and waits while it runs. -/
def Obligations.CopyInstructions : Prop :=
  ∀ (s : State) (d a b c rows ss ds : SReg), vtypeLegal s.th.vt = true →
    let running := s.copies.filter (fun (k : Copy) => decide (k.seat = s.cur) && k.status.isNone)
    let h := s.th.copySeq + 1
    ((s.copyRefused (s.th.x a) (s.th.x b) = none → running.length < 16 → ∃ t, exec (.acopy d a b c) s = .next t ∧ Passes 1 s t ∧
        (d ≠ 0 → t.th.x d = BitVec.ofNat 64 h) ∧ t.th.copySeq = h ∧ t.th.lsq = [] ∧ KeepsScalars [d] s t ∧ KeepsFloats [] s t ∧
        KeepsVectors s t ∧ KeepsCsrs [.retired] s t ∧
        ∃ k ∈ t.copies, k.seat = s.cur ∧ k.handle = h ∧ k.status = none ∧ k.dst = s.th.x a ∧ k.src = s.th.x b ∧
          k.len = Nat.min (s.th.x c).toNat (2 ^ 40) ∧ k.rows = 1 ∧ k.sstr = 0 ∧ k.dstr = 0 ∧ k.owner = s.th.owner ∧
          k.asid = (s.th.get .asid).toNat) ∧
      (s.copyRefused (s.th.x a) (s.th.x b) = none → 16 ≤ running.length → exec (.acopy d a b c) s = .next (s.waitOn .copyRoom))) ∧
    ((s.copyRefused (s.th.x a) (s.th.x b) = none → running.length < 16 → ∃ t, exec (.acopy2d d a b c rows ss ds) s = .next t ∧ Passes 2 s t ∧
        (d ≠ 0 → t.th.x d = BitVec.ofNat 64 h) ∧ t.th.copySeq = h ∧ t.th.lsq = [] ∧ KeepsScalars [d] s t ∧ KeepsFloats [] s t ∧
        KeepsVectors s t ∧ KeepsCsrs [.retired] s t ∧
        ∃ k ∈ t.copies, k.seat = s.cur ∧ k.handle = h ∧ k.status = none ∧ k.dst = s.th.x a ∧ k.src = s.th.x b ∧
          k.len = Nat.min (s.th.x c).toNat (2 ^ 40) ∧ k.rows = (s.th.x rows).toNat ∧ k.sstr = s.th.x ss ∧ k.dstr = s.th.x ds ∧ k.owner = s.th.owner ∧
          k.asid = (s.th.get .asid).toNat) ∧
      (s.copyRefused (s.th.x a) (s.th.x b) = none → 16 ≤ running.length → exec (.acopy2d d a b c rows ss ds) s = .next (s.waitOn .copyRoom))) ∧
    (∀ i ∈ ([.acopy d a b c, .acopy2d d a b c rows ss ds] : List Instr),
      (s.remoteOf (s.th.x a) ≠ none → s.remoteOf (s.th.x b) ≠ none → Traps i s { cause := 0x07, eval := s.th.x a }) ∧
      (∀ dev, s.remoteOf (s.th.x a) = some dev → s.remoteOf (s.th.x b) = none → s.member dev = false →
        Traps i s { cause := 0x07, eval := s.th.x a }) ∧
      (∀ dev, s.remoteOf (s.th.x a) = none → s.remoteOf (s.th.x b) = some dev → s.member dev = false →
        Traps i s { cause := 0x07, eval := s.th.x b })) ∧
    (let n := (s.th.x a).toNat;
      (s.copyOf n = none → (∃ t, exec (.aquery d a) s = .next t ∧ Passes 1 s t ∧ (d ≠ 0 → t.th.x d = 0xFF) ∧ KeepsScalars [d] s t ∧
        KeepsFloats [] s t ∧ KeepsVectors s t ∧ KeepsCsrs [.retired] s t ∧ KeepsMemory s t) ∧
        (∃ t, exec (.await d a) s = .next t ∧ Passes 1 s t ∧ (d ≠ 0 → t.th.x d = 0xFF) ∧ KeepsScalars [d] s t ∧
        KeepsFloats [] s t ∧ KeepsVectors s t ∧ KeepsCsrs [.retired] s t ∧ KeepsMemory s t)) ∧
      (∀ k, s.copyOf n = some k →
        (k.status = none → (∃ t, exec (.aquery d a) s = .next t ∧ Passes 1 s t ∧ (d ≠ 0 → t.th.x d = 0xFE) ∧ KeepsScalars [d] s t ∧
        KeepsFloats [] s t ∧ KeepsVectors s t ∧ KeepsCsrs [.retired] s t ∧ KeepsMemory s t) ∧
          exec (.await d a) s = .next (s.waitOn (.copy n))) ∧
        (∀ w, k.status = some w → (∃ t, exec (.aquery d a) s = .next t ∧ Passes 1 s t ∧ (d ≠ 0 → t.th.x d = w) ∧ KeepsScalars [d] s t ∧
        KeepsFloats [] s t ∧ KeepsVectors s t ∧ KeepsCsrs [.retired] s t ∧ KeepsMemory s t) ∧
          (∃ t, exec (.await d a) s = .next t ∧ Passes 1 s t ∧ (d ≠ 0 → t.th.x d = w) ∧ KeepsScalars [d] s t ∧
        KeepsFloats [] s t ∧ KeepsVectors s t ∧ KeepsCsrs [.retired] s t ∧ KeepsMemory s t) ∧
          (∃ t, exec (.await d a) s = .next t ∧ (∀ k ∈ t.copies, ¬ (k.seat = s.cur ∧ k.handle = n))))))

/-- R273, R337 to R339: with a legal VTYPE without ports and the register in the shape: vsend to a living neighbour
with room in its 16 KiB buffer completes, and the message, the elements below VL with their type and this owner, is on
its way; without room the thread waits; without a neighbour it takes stream fault sub-cause 0x01, to a dead one 0x04.
vrecv with a message of this owner, of this element width and no longer than VLMAX completes: the message leaves the
buffer, its elements are in vd, VL is its length and VSTART 0; with none it waits; one of another owner is dropped
with sub-cause 0x02, one of another width or too long stays with 0x03. That packed formats carry containers, that one
with more containers than vd holds is too long, and that the upper half of a last INT4 container stays, are the
model's readings (DEDUCED; log 31). -/
def Obligations.MessageInstructions : Prop :=
  ∀ (s : State) (v : VReg), vtypeLegal s.th.vt = true → portClear s.th.vt = true → v.toNat < s.th.nreg →
    let w := s.th.ew; let c := coreOf s.cur
    ∀ next : Bool, let send : Instr := if next then .vsendNx v else .vsendPv v; let recv : Instr := if next then .vrecvNx v else .vrecvPv v
      let es : List Word := (List.range s.th.vlc).map (fun i => BitVec.ofNat 64 (s.th.elem v.toNat w i))
      let m : Msg := { vl := s.th.vl, ew := BitVec.ofNat 2 (vtEwc s.th.vt), fmt := BitVec.ofNat 4 (vtFmt s.th.vt), owner := s.th.owner, elems := es };
      (neighbour c next = none → Traps send s { cause := 0x0E, sub := 0x01 } ∧ Traps recv s { cause := 0x0E, sub := 0x01 }) ∧
      (∀ d, neighbour c next = some d →
        let buf := (s.core d).buf (!next);
        (s.coreDead d = true → Traps send s { cause := 0x0E, sub := 0x04 }) ∧
        (s.coreDead d = false → 16384 < buf.used + m.bytes → exec send s = .next (s.waitOn (.sendRoom next))) ∧
        (next = true → s.coreDead d = false → buf.used + m.bytes ≤ 16384 → ∃ t, exec (.vsendNx v) s = .next t ∧ Passes 1 s t ∧ KeepsScalars [] s t ∧
          KeepsFloats [] s t ∧ KeepsVectors s t ∧ KeepsCsrs [.retired] s t ∧ KeepsTiles s t ∧ KeepsStore s t ∧
          ((t.core d).buf (!next)).flight = buf.flight ++ [m] ∧ ((t.core d).buf (!next)).msgs = buf.msgs) ∧
        (next = false → s.coreDead d = false → buf.used + m.bytes ≤ 16384 → ∃ t, exec (.vsendPv v) s = .next t ∧ Passes 1 s t ∧ KeepsScalars [] s t ∧
          KeepsFloats [] s t ∧ KeepsVectors s t ∧ KeepsCsrs [.retired] s t ∧ KeepsTiles s t ∧ KeepsStore s t ∧
          ((t.core d).buf (!next)).flight = buf.flight ++ [m] ∧ ((t.core d).buf (!next)).msgs = buf.msgs) ∧
        let b := (s.core c).buf next;
        (b.dead = true → Traps recv s { cause := 0x0E, sub := 0x04 }) ∧
        (b.dead = false → b.msgs = [] → exec recv s = .next (s.waitOn (.message next))) ∧
        (∀ x rest, b.dead = false → b.msgs = x :: rest →
          let u := s.setCore c ((s.core c).setBuf next { b with msgs := rest });
          (x.owner ≠ s.th.owner → exec recv s = .next (u.takeTrap { cause := 0x0E, sub := 0x02 })) ∧
          (x.owner = s.th.owner → (x.ew.toNat ≠ vtEwc s.th.vt ∨ s.th.vlmax < x.vl ∨ s.th.vlcMax < x.elems.length) → Traps recv s { cause := 0x0E, sub := 0x03 }) ∧
          (next = true → x.owner = s.th.owner → x.ew.toNat = vtEwc s.th.vt → x.vl ≤ s.th.vlmax → x.elems.length ≤ s.th.vlcMax →
            (∃ t, exec (.vrecvNx v) s = .next (u.finish t 1)) ∧ ∃ t, exec (.vrecvNx v) s = .next t ∧ Passes 1 s t ∧
              t.th.get .vl = BitVec.ofNat 64 x.vl ∧ t.th.get .vstart = 0 ∧ KeepsRegisters [v.toNat] s t ∧ KeepsScalars [] s t ∧
              KeepsFloats [] s t ∧ KeepsCsrs [.vl, .vstart, .retired] s t ∧ KeepsTiles s t ∧ KeepsStore s t ∧
              (∀ i y, x.elems[i]? = some y → t.th.elem v.toNat w i =
                (if x.fmt = 8 ∧ x.vl < 2 * i + 2 then y.toNat % 16 + s.th.elem v.toNat w i / 16 * 16 else y.toNat) % 2 ^ w) ∧
              (∀ i, x.elems.length ≤ i → i < s.th.vlcMax → t.th.elem v.toNat w i = s.th.elem v.toNat w i)) ∧
          (next = false → x.owner = s.th.owner → x.ew.toNat = vtEwc s.th.vt → x.vl ≤ s.th.vlmax → x.elems.length ≤ s.th.vlcMax →
            (∃ t, exec (.vrecvPv v) s = .next (u.finish t 1)) ∧ ∃ t, exec (.vrecvPv v) s = .next t ∧ Passes 1 s t ∧
              t.th.get .vl = BitVec.ofNat 64 x.vl ∧ t.th.get .vstart = 0 ∧ KeepsRegisters [v.toNat] s t ∧ KeepsScalars [] s t ∧
              KeepsFloats [] s t ∧ KeepsCsrs [.vl, .vstart, .retired] s t ∧ KeepsTiles s t ∧ KeepsStore s t ∧
              (∀ i y, x.elems[i]? = some y → t.th.elem v.toNat w i =
                (if x.fmt = 8 ∧ x.vl < 2 * i + 2 then y.toNat % 16 + s.th.elem v.toNat w i / 16 * 16 else y.toNat) % 2 ^ w) ∧
              (∀ i, x.elems.length ≤ i → i < s.th.vlcMax → t.th.elem v.toNat w i = s.th.elem v.toNat w i))))

/-- R274, R275, R428, R430, R431, R438: with a legal VTYPE, launch of a record that cannot be read takes the trap of
the check that fails (R144); of a readable one, with OWNER in the record's place, returns 2 for a record that R431
refuses, 1 when its queue is disabled or holds 256 records, and 0 when it is accepted: then, after the seat's older
stores (the record is read with them, R145), with no copy under way (else it waits for the oldest first), it is last
in its queue with the next sequence number. exit, with no tile load pending, performs the seat's stores and ends the
thread: its seat is free, it waits for nothing, and its group counts it; with one pending it waits. -/
def Obligations.LaunchAndExit : Prop :=
  ∀ (s : State) (d a : SReg) (bs : List Byte), vtypeLegal s.th.vt = true →
    let u := s.areaServe (s.th.x a) 1
    (∀ x, u.areaRead (s.th.x a) 1 = .error x → exec (.launch d a) s = .next (u.takeTrap x)) ∧
    (u.areaRead (s.th.x a) 1 = .ok bs →
      let word (k : Nat) : Word := BitVec.ofNat 64 (leNat ((bs.drop (8 * k)).take 8))
      let raw := recOf word
      let r : LaunchRec := { raw with ctrl := (raw.ctrl &&& ~~~(0x3FF#64 <<< 51)) ||| (BitVec.ofNat 64 s.th.owner <<< 51) }
      let q := s.queue r.queue
      let answers (v : Word) (u t : State) : Prop := t = u.finish ((u.th.setX d v).pushVq) 1
      (r.valid q.owner = false → ∃ t, exec (.launch d a) s = .next t ∧ answers 2 u t) ∧
      (r.valid q.owner = true → (q.en = false ∨ 256 ≤ q.recs.length) → ∃ t, exec (.launch d a) s = .next t ∧ answers 1 u t) ∧
      (r.valid q.owner = true → q.en = true → q.recs.length < 256 →
        (∀ c ∈ s.copies, c.seat = s.cur → c.status.isSome = true) → ∃ t, exec (.launch d a) s = .next t ∧
          answers 0 (u.drain.setQueue r.queue { q with recs := q.recs ++ [(q.seq, r)], seq := (q.seq + 1) % 2 ^ 32 }) t) ∧
      (r.valid q.owner = true → q.en = true → q.recs.length < 256 → ∀ c rest, u.drain.outstanding s.cur = c :: rest →
        exec (.launch d a) s = .next (u.drain.waitOn (.copy c.handle)))) ∧
    (s.th.tb0.pending = none → s.th.tb1.pending = none →
      exec .exit s = .next ((s.drain.retired s.cur 1).endThread s.cur) ∧
      (∃ t, exec .exit s = .next t ∧ (t.th = Thread.free ∧ (∀ r ∈ t.remotes, r.seat ≠ s.cur) ∧
        ∀ q k, s.th.grp = some (q, k) → t.groups = s.groups.map (fun g =>
          if g.queue = q ∧ g.seq = k then g.ended s.th.removed (dieOf (coreOf s.cur)) else g)))) ∧
    (s.th.tb0.pending.isSome = true → exec .exit s = .next (s.waitOn (.tile false false))) ∧
    (s.th.tb0.pending = none → s.th.tb1.pending.isSome = true → exec .exit s = .next (s.waitOn (.tile true false)))

/-- R166, R248, R255, R279, R308, R309, R315 to R318, R330 to R332, R343, R345, R351, R384, R445: each event, where
the rules let it happen, answers the next state given: a line that a seat has fetched, or loaded, and its coherence
point still holds enters an L1 (log 10 for the line it displaces), no other does; a line its slice lacks is read from
HBM, where it opens a row, counts in HBMRD, may be poisoned by its ECC, found only then (log 53), and enters a slice
of 16 ways (log 10); a row closes; a pending store with no older store to a common byte, a release only as the oldest,
is performed, a fabric node's past the L1; a walk reads its tables and installs its translation in the die's TLB,
freely in the core's (log 16), and caches the descriptor of a lattice page; a VSPCFG write takes effect after every
pending store of the device; the oldest entry not dispatched, no row instruction, is dispatched, the next group of a
dispatched entry that its elders let enter enters, and the oldest entry that can complete does; the matrix unit takes
the ready seat after the one last served; a tile load ends; returned octets are free; the first short seat that can be
served is, and where none can the Bench reclaims for each (R325); ceilings that reclaim lowered rise by the free
octets, to at most 8. -/
def Obligations.CoreEvents : Prop :=
  ∀ (s : State) (core seat line k : Nat) (tb : Bool), let c := s.core core; let t := s.seat seat
    ((core, line) ∉ s.fetches → exec (.instructionFetchReturn core line) s = .next s) ∧
    ((core, line) ∈ s.fetches → let v : State := { s with fetches := s.fetches.filter (fun e => e ≠ (core, line)) }
      ((paKind (128 * line) = .hbm ∧ s.inSlice line = false) ∨ v.tagOf line = none →
        exec (.instructionFetchReturn core line) s = .next v) ∧
      ∀ o, (paKind (128 * line) ≠ .hbm ∨ s.inSlice line = true) → v.tagOf line = some o → exec (.instructionFetchReturn core line) s =
        .next (v.setCore core { c with icache := ((line, o, (List.range 128).map (fun i => s.rawByte (128 * line + i))) ::
          c.icache.filter (fun e => e.1 ≠ line)).take 256 })) ∧
    ((core, line) ∈ s.loads → let v : State := { s with loads := s.loads.filter (fun e => e ≠ (core, line)) }
      (paKind (128 * line) = .hbm → s.inSlice line = false → exec (.loadReturn core line) s = .next v) ∧
      (paKind (128 * line) ≠ .hbm ∨ s.inSlice line = true → exec (.loadReturn core line) s = .next (v.fillL1 core line false))) ∧
    (∀ o, let u := s.fetchLine o line; let tag (v : State) (p : Nat) := Map.get LineTag.reset v.lines p
      (paKind (128 * line) ≠ .hbm ∨ s.inSlice line = true → u = s) ∧
      (paKind (128 * line) = .hbm → s.inSlice line = false → u.inSlice line = true ∧
        Map.get 0 u.fleet.cnt (0x1100 + 16 * stackOf (128 * line)) = Map.get 0 s.fleet.cnt (0x1100 + 16 * stackOf (128 * line)) + 128 ∧
        (∃ b r, u.openRows = Map.put 0 s.openRows b (r + 1)) ∧ ((tag s line).owner ≠ some o → (tag u line).poison = true) ∧
        (u.lines = s.lines ∨ (tag u line).poison = true) ∧ (∀ p, p ≠ line → tag u p = tag s p) ∧
        u.mem = s.mem ∧ u.th = s.th ∧ u.seats = s.seats ∧ u.cores = s.cores ∧
        let way (v : State) := (v.slice.filter (fun e => decide (homeCore (128 * e.1) = homeCore (128 * line) ∧ e.1 % 2048 = line % 2048))).length
        (way s ≤ 16 → way u ≤ 16))) ∧
    (∀ stack, exec (.hbmRefresh stack k) s = .next { s with openRows := Map.put 0 s.openRows (stack * 65536 + k % 65536) 0 }) ∧
    (∀ p, t.lsq[k]? = some p → (∀ q ∈ t.lsq.take k, q.pa + q.bytes.length ≤ p.pa ∨ p.pa + p.bytes.length ≤ q.pa) →
      (p.rel = true → k = 0) →
      let u := (s.readTiles seat).writePhys p.owner p.pa p.bytes
      let u : State := if p.rel = true ∨ p.node = true then u else u.fillL1 (seat / 8) (p.pa / 128) true
      exec (.storePerformed seat k) s = .next (u.setSeat seat { u.seat seat with lsq := (u.seat seat).lsq.eraseIdx k })) ∧
    (∀ (cr d : Nat) (dirty : Bool), let u := s.fillL1 cr d dirty
      (d, cr, dirty) ∈ u.l1 ∧ { u with l1 := s.l1 } = s ∧ (∀ e ∈ u.l1, e ∈ s.l1 ∨ e = (d, cr, dirty)) ∧
      (u.l1.filter (fun e => decide (e.1 = d ∧ e.2.1 = cr))).length = 1 ∧
      ((∀ z, (s.l1.filter (fun e => decide (e.2.1 = cr ∧ e.1 % 64 = z % 64))).length ≤ 8) →
        (u.l1.filter (fun e => decide (e.2.1 = cr ∧ e.1 % 64 = d % 64))).length ≤ 8)) ∧
    (let x := t.ctx (seat / 8); let die := dieTlb (dieOf (seat / 8)); let v := s.walkAt { x with tlb := die } k
      k < 2 ^ 57 → (∀ e ∈ s.tlb, e.hit die x k = false) →
      (∀ w, v.walk x.ptbase k = .ok w → let put (place : Nat) : TlbEntry := ⟨place, x.asid, k / 2 ^ w.size, w.size, w.base, BitVec.ofNat 64 w.leaf⟩
        let p := x.lrtbase + 64 * bitsOf w.leaf 52 12; let d := v.serveTable p
        (∃ u, exec (.walkComplete seat k) s = .next u ∧ (
          (u = { v with tlb := u.tlb } ∨ (bitsOf w.leaf 7 1 = 1 ∧ u = { d with tlb := u.tlb, descs := u.descs })) ∧
          put die ∈ u.tlb ∧ (∀ e ∈ u.tlb, e ∈ s.tlb ∨ e = put die ∨ e = put (seat / 8) ∨ e = put (vecTlb (seat / 8))) ∧
          (bitsOf w.leaf 7 1 = 0 → u.descs = s.descs) ∧
          (bitsOf w.leaf 7 1 = 1 → paKind p = .hbm → paKind (p + 63) = .hbm → (∀ y ∈ s.descs, y.1 ≠ p) →
            u.descs = (p, (List.range 64).map (fun i => d.tableByte (p + i))) :: s.descs)))) ∧
      (∀ f, v.walk x.ptbase k = .error f → exec (.walkComplete seat k) s = .next v)) ∧
    (∀ n v, c.vspPending = some (n, v) →
      let u := s.allSeats.foldl (fun u m => u.drainSeat m) s
      let u := u.setCore core { u.core core with vspcfg := v, vspPending := none }
      exec (.vspcfgTakesEffect core) s = .next (if (u.seat n).run = .waiting .vspcfg then u.finishSeat n (u.seat n) 1 else u)) ∧
    (∀ pre e post, t.vq = pre ++ e :: post → (∀ x ∈ pre, x.dispatched = true) → e.dispatched = false → e.unit ≠ .matrix →
      exec (.vectorDispatch seat) s = .next (s.setSeat seat { t with vq := pre ++ { e with dispatched := true } :: post })) ∧
    (∀ pre e post, t.vq = pre ++ e :: post → pre.length = k → e.dispatched = true → e.entered < e.groups →
      (∀ p ∈ pre, p.lets e = true) → exec (.elementGroupEntry seat k) s = .next (s.setSeat seat { t with vq := pre ++ { e with entered := e.entered + 1 } :: post })) ∧
    (∀ pre e post, t.vq = pre ++ e :: post → (∀ j, j < pre.length → t.mayComplete j = false) → e.dispatched = true →
      e.groups ≤ e.entered → e.held = false → (∀ p ∈ pre, p.inOrder = false ∧ e.inOrder = false ∧ ∀ r ∈ p.writes, r ∉ e.reads ++ e.needs ++ e.writes) →
      exec (.vectorComplete seat) s = .next (s.setSeat seat { t with vq := pre ++ post })) ∧
    (∀ i n, (∀ n ∈ seatsOf core, (s.seat n).rowBusy = false) → i < 8 →
      let at_ (j : Nat) : Nat := 8 * core + (c.matLast + 1 + j) % 8
      (s.seat (at_ i)).rowReady = some n → (∀ j, j < i → (s.seat (at_ j)).rowReady = none) →
      exec (.matrixRowStart core) s = .next ((s.setCore core { c with matLast := at_ i % 8 }).setSeat (at_ i)
        ((s.seat (at_ i)).setVq n (fun e => { e with dispatched := true })))) ∧
    (let v := s.readTiles seat; let x := v.seat seat; let y := x.setTile tb { x.tile tb with pending := none };
      (t.tile tb).pending.isSome = true → (x.tile tb).pending.isSome = true → exec (.tileLoadComplete seat tb) s =
        .next (v.setSeat seat (if x.run = .waiting (.tile tb false) ∨ x.run = .waiting (.tile tb true) then { y with run := .running }
          else y))) ∧
    exec (.reflowComplete core seat) s = .next (s.setCore core { c with returning := dropSeat seat c.returning }) ∧
    (∀ n q os since, s.nextShort core = some (n, since) → s.servable n = some os →
      ((s.seat n).run = .waiting (.lanes q) → exec (.shortSeatServe core) s =
        .next (({ s with sched := .seat n :: s.sched } : State).setSeat n { s.seat n with run := .running })) ∧
      (((s.seat n).run = .waiting (.firstLanes q) ∨ (s.seat n).run = .waiting (.restoreLanes q)) → exec (.shortSeatServe core) s =
        .next (let u := (s.benchTake n os).demand n os.length q; u.setSeat n { u.seat n with run := .running }))) ∧
    (s.nextShort core = none → exec (.shortSeatServe core) s = .next (c.shortQ.foldl (fun u e => u.redemand e.1) s)) ∧
    (∀ n q, ((s.seat n).run = .waiting (.lanes q) → s.redemand n = s.demand n 0 (Nat.min q (s.ceiling n))) ∧
      ((s.seat n).run = .waiting (.firstLanes q) → s.redemand n = s.demand n 0 q) ∧
      ((s.seat n).run = .waiting (.restoreLanes q) → s.redemand n = s.demand n (s.seat n).octets q)) ∧
    (c.shortQ = [] → c.resv = [] → s.freeOctets core ≠ [] →
      let free := (s.freeOctets core).length
      exec (.gceilRaise core) s = .next ((seatsOf core).foldl (fun (u : State) n =>
        let ceil := Nat.min 8 (((u.seat n).get .gceil).toNat + free)
        if (u.seat n).lowered = false then u
        else u.setSeat n { (u.seat n).set .gceil (BitVec.ofNat 64 ceil) with ceilFell := none, lowered := decide (ceil < 8) }) s))

/-- R261, R262, R264, R289 to R291, R293, R295, R296, R298 to R300, R322, R365, R367, R371, R376: the first waiting fx
of a core whose tiles, entries and clocks are ready, before which no fshadow looks for entries, starts with its
contexts fetched, and, while its entry has SH and a shadow is armed for its slot, carries the swap to SID; a node or
port that can fire does, and the run goes on, is capped, or faults at its last commit point; with end of stream at
output port 0 and nothing left to fire (log 30; one place fires at each event) the fx completes: VL is the number of
outputs in elements, at most VLMAX, VSTART 0, FSTAT holds REM and DISC, FFLAGS takes the run's flags, the outputs are
in vd, and the tiles are free; a run with VLMAX outputs is capped: it completes with VL VLMAX, MORE and REC set and
its records in FSX; on data tokens an element-wise node delivers its operation's result (IMM for an unlinked input 1),
steer, filter, merge, carry, invariant, isect and umerge the token they choose, cnt, idx and red count, number and
fold, ld delivers the loaded value and st stores and delivers it (R290 to R296); a run to be cut stops at a marker
with its records and VSTART, to be issued again; a tile no fx occupies takes its clock. -/
def Obligations.FabricEvents : Prop :=
  ∀ (s : State) (seat tile node core : Nat), let u := s.focus seat
    (∀ v b r, (s.core (seat / 8)).fxq.find? (fun n => (s.startable n).isSome || s.looking n) = some seat → s.startable seat = some (v, b, r) →
      (∃ t, exec (.fxStart seat) s = .next t ∧ (
        let w := v.setCore (seat / 8) { v.core (seat / 8) with useStamp := (v.core (seat / 8)).useStamp + 1 }
        let w := (List.range r.img.foot).foldl (fun w i => w.fetchCtx (seat / 8) (b + i) r.cid) w
        t = ((w.focus seat).withRun ((w.focus seat).startRun b r)).focus w.cur))) ∧
    (∀ (v : State) b (r : FxRun), let x := v.startRun b r; let e := v.slotEntry r.slot
      let carries : Prop := bitsOf e 63 1 = 1 ∧ bitsOf e 62 1 = 1 ∧ ∃ y ∈ (v.core (coreOf v.cur)).ctx, y.shadow = some (r.tab, r.slot)
      x.base = b ∧ x.started = true ∧ (¬ carries → x = { r with base := b, started := true }) ∧
      (carries → x.swap = true ∧ x.sid = bitsOf e 32 12)) ∧
    (∀ r, u.th.fx = some r → r.started = true →
      (u.firePlace r tile node = none → exec (.nodeFire seat tile node) s = .next (u.focus s.cur)) ∧
      (∀ v x, u.firePlace r tile node = some (.ok v x) → exec (.nodeFire seat tile node) s = .next ((v.withRun x).focus s.cur)) ∧
      (∀ v x e, u.firePlace r tile node = some (.fault v x e) → (∃ t, exec (.nodeFire seat tile node) s = .next t ∧ (
        ∃ w : State, t = (w.takeTrap { e with elem := x.committed }).focus s.cur ∧ w.th.vstart = x.committed % 2 ^ 64 ∧
          (w.th.get .fstat).getLsbD 0 = false ∧ (w.th.get .fstat).getLsbD 1 = true ∧ w.th.fx = none))) ∧
      (r.atEnd = true → u.nextPlace r = none → ∃ v, exec (.fxEndOfStream seat) s = .next (v.focus s.cur) ∧ Passes r.words u v ∧
        v.th.get .vl = BitVec.ofNat 64 (Nat.min ((r.out + r.out0.length) * unitElems (vtFmt u.th.vt)) u.th.vlmax) ∧
        v.th.get .vstart = 0 ∧ v.th.get .fstat = BitVec.ofNat 64 (r.rem % 2 ^ 32 * 2 ^ 32 + Nat.min r.disc 65535 * 2 ^ 16) ∧
        v.th.get .fflags = u.th.get .fflags ||| r.flags.setWidth 64 ∧ v.th.fx = none ∧ KeepsScalars [] u v ∧ KeepsFloats [] u v ∧
        KeepsCsrs [.vl, .vstart, .fstat, .fflags, .retired] u v ∧
        (r.img.port1 = false → r.vd.toNat < u.th.nreg → 0 < r.w → r.out + r.out0.length ≤ u.th.regBits / r.w * u.th.lanes →
          ∀ i x, r.out0[i]? = some x → v.th.elem r.vd.toNat r.w (r.out + i) = x.toNat % 2 ^ r.w)) ∧
      (r.cut = true → r.img.marked = true → ((r.head (nodeKey 0 24) 0).map FTok.isMark) = some true → r.caughtUp r.out0.length = true →
        ∃ v, exec (.preemptionCut seat) s = .next (v.focus s.cur) ∧ v.th.pc = u.th.pc ∧ v.th.run = .running ∧ v.th.fx = none ∧
          v.th.vstart = (r.out + r.out0.length) % 2 ^ 64 ∧ (v.th.get .fstat).getLsbD 1 = true ∧ (v.th.get .fstat).getLsbD 0 = false ∧
          v.th.get .fout = BitVec.ofNat 64 ((r.out + r.out0.length) % 2 ^ 32) ∧ KeepsScalars [] u v)) ∧
    (∀ x : FxRun, x.vlmax ≤ x.total → let v := u.withRun x
      Passes x.words u v ∧ v.th.get .vl = BitVec.ofNat 64 u.th.vlmax ∧ v.th.get .vstart = 0 ∧ v.th.fx = none ∧
      (v.th.get .fstat).getLsbD 0 = true ∧ (v.th.get .fstat).getLsbD 1 = true ∧ v.th.get .fout = 0 ∧
      v.th.get .fflags = u.th.get .fflags ||| x.flags.setWidth 64 ∧ KeepsScalars [] u v ∧ KeepsFloats [] u v ∧
      (∀ j, j < 4 → let z := x.settled.records.getD j (0, 0)
        v.th.get (fsx j) = BitVec.ofNat 64 (z.1 % 2 ^ 32 + z.2 % 2 ^ 32 * 2 ^ 32)) ∧
      ((x.img.plain = false ∨ ∀ m ∈ x.img.nodes, m.expanding = false) → x.settled = x) ∧
      (x.img.port1 = false → x.vd.toNat < u.th.nreg → 0 < x.w → x.total ≤ u.th.regBits / x.w * u.th.lanes →
        ∀ i y, x.out0[i]? = some y → v.th.elem x.vd.toNat x.w (x.out + i) = y.toNat % 2 ^ x.w)) ∧
    (∀ x : FxRun, x.total < x.vlmax → x.swap = false → u.withRun x = u.withTh { u.th with fx := some x }) ∧
    (∀ (r : FxRun) (k : Nat) (n : FNode) (tk : Nat → FTok), (r.st k).close = none → (r.st k).ended = false → (r.st k).skip = false →
      r.room n.key [0] = true →
      (u.th.fx = some r → r.started = true → node < 20 → r.img.nodes.findIdx? (fun m => decide (m.tile = tile ∧ m.node = node)) = some k →
        r.img.nodes[k]? = some n → isMemOp n.op = false → r.fireNode k n ≠ r →
        exec (.nodeFire seat tile node) s = .next ((u.withRun (r.fireNode k n)).focus s.cur)) ∧
      let is := r.linked n
      let w := 8 * 2 ^ n.ew
      let v (i : Nat) : Nat := if i ∈ is then (tk i).val % 2 ^ w else n.immB % 2 ^ w
      let gives (ins : List Nat) (o : Nat) (x : Nat) : FxRun :=
        (r.pops n.key ins).push n.key o (firedTok (.data (BitVec.ofNat 64 x)) (is.map tk))
      0 ∈ is → (∀ i ∈ is, r.head n.key i = some (tk i) ∧ (tk i).isData = true) →
      let i_ (x : Nat) : Int := if n.fmt = 0 then signed w x else x
      let a := v 0; let b := v 1
      let bit (c : Prop) [Decidable c] : Nat := if c then 1 else 0
      (n.fmt ≤ 1 → 2 ∉ is → ∀ p ∈ ([(0x01, (a + b) % 2 ^ w), (0x02, (a + 2 ^ w - b) % 2 ^ w), (0x03, a * b % 2 ^ w),
        (0x05, if i_ b < i_ a then b else a), (0x06, if i_ a < i_ b then b else a), (0x07, Nat.land a b), (0x08, Nat.lor a b),
        (0x09, Nat.xor a b), (0x0A, a * 2 ^ (b % w) % 2 ^ w), (0x0B, a / 2 ^ (b % w)),
        (0x0C, low w (signed w a / (2 ^ (b % w) : Nat))), (0x10, bit (a = b)), (0x11, bit (a ≠ b)), (0x12, bit (i_ a < i_ b)),
        (0x13, bit (i_ a ≤ i_ b)), (0x14, bit (a < b)), (0x15, bit (a ≤ b))] : List (Nat × Nat)), n.op = p.1 →
          r.fireNode k n = gives is 0 p.2) ∧
      (3 ≤ n.fmt → let f := if n.fmt = 4 then bf16 else fp32; let e : FEnv := ⟨0, 0, false⟩
        let x := f.read 0 a; let y := f.read 0 b
        let cmp (c : FltCmp) : FOut := { bits := if (fCmp c x y).1 then 1 else 0, fl := (fCmp c x y).2 }
        (∀ p ∈ ([(0x01, fAdd f e x y), (0x02, fSub f e x y), (0x03, fMul f e x y), (0x05, fMinMax f e false x y),
          (0x06, fMinMax f e true x y), (0x10, cmp .eq), (0x11, cmp .ne), (0x12, cmp .lt), (0x13, cmp .le), (0x1C, fExp2 f e x),
          (0x1D, fRece f x)] : List (Nat × FOut)), 2 ∉ is → n.op = p.1 → r.fireNode k n = (gives is 0 p.2.bits).orFlags p.2.fl) ∧
        (n.op = 0x04 → 2 ∈ is → let o := fFma f e false false x y (f.read 0 (v 2)); r.fireNode k n = (gives is 0 o.bits).orFlags o.fl)) ∧
      (is = [0, 1] → (tk 1).val ≠ 0 → (n.op = 0x20 ∨ n.op = 0x24) → r.fireNode k n = gives [0, 1] 0 a) ∧
      (is = [0, 1] → (tk 1).val = 0 → n.op = 0x24 → r.fireNode k n = r.pops n.key [0, 1]) ∧
      (is = [0, 1] → (tk 1).val = 0 → n.op = 0x20 → n.exit = false → r.room n.key [1] = true → r.fireNode k n = gives [0, 1] 1 a) ∧
      (is = [0, 1, 2] → n.op = 0x21 → n.exit = false → let j := if (tk 0).val ≠ 0 then 1 else 2
        r.fireNode k n = (r.pops n.key [0, j]).push n.key 0 (firedTok (.data (BitVec.ofNat 64 (v j))) [tk 0, tk j])) ∧
      (is = [0, 1, 2] → n.op = 0x22 → (r.st k).on = true →
        r.fireNode k n = (if (tk 2).val = 0 then (r.pop n.key 2).setSt k { r.st k with on := false }
          else (r.pops n.key [1, 2]).push n.key 0 (firedTok (.data (BitVec.ofNat 64 b)) [tk 1, tk 2]))) ∧
      (is = [0, 1] → n.op = 0x23 → r.fireNode k n = gives (if (tk 1).val = 0 then [0, 1] else [1]) 0 a) ∧
      (is = [0, 1] → n.op = 0x28 → n.fmt ≤ 1 → r.fireNode k n =
        (if i_ a = i_ b then gives [0, 1] 0 a else if i_ a < i_ b then r.pop n.key 0 else r.pop n.key 1)) ∧
      (is = [0, 1] → n.op = 0x29 → n.fmt ≤ 1 → r.fireNode k n = (if i_ a = i_ b then gives [0, 1] 0 a
        else let j := if i_ a < i_ b then 0 else 1; (r.pop n.key j).push n.key 0 (firedTok (.data (BitVec.ofNat 64 (v j))) [tk j]))) ∧
      (is = [0] → n.op = 0x2C → (r.st k).pend = none →
        r.fireNode k n = (r.pop n.key 0).setSt k { r.st k with cnt := (r.st k).cnt + 1 }) ∧
      (is = [0] → n.op = 0x2D → r.fireNode k n = (gives [0] 0 (r.st k).cnt).setSt k { r.st k with cnt := (r.st k).cnt + 1 }) ∧
      (is = [0] → n.op = 0x2B → n.fmt ≤ 1 → (r.st k).pend = none →
        let acc := ((r.st k).acc.map (fun y => y.toNat)).getD n.immB
        let folds (y : Nat) : FxRun := (r.pop n.key 0).setSt k { r.st k with acc := some (BitVec.ofNat 64 y) }
        (n.aux = 0 → r.fireNode k n = folds ((acc + a) % 2 ^ w)) ∧ (n.aux = 1 → r.fireNode k n = folds (if i_ a < i_ acc then a else acc)) ∧
        (n.aux = 2 → r.fireNode k n = folds (if i_ acc < i_ a then a else acc))) ∧
      (is = [0] → n.op = 0x40 → u.vspHeld = false → u.th.lsqFull = false → u.th.fxStores = [] → let va := BitVec.ofNat 64 (tk 0).val
        ∀ l, u.remoteOf va = none → let q := u.serveAt u.vctx [va]
        u.access u.vctx .load false va (w / 8) 0 = .ok l → q.access u.vctx .load false va (w / 8) 0 = .ok l →
        q.poisoned u.th.owner l = false → u.fireMem r k n = .ok q (gives [0] 0 (loadValue q l.pa (w / 8)))) ∧
      (is = [0, 1] → n.op = 0x41 → u.vspHeld = false → u.th.lsqFull = false → ∀ l, u.remoteOf (BitVec.ofNat 64 (tk 0).val) = none →
        u.access u.vctx .store false (BitVec.ofNat 64 (tk 0).val) (w / 8) 0 = .ok l → l.region = none →
        let q := u.walked u.vctx [BitVec.ofNat 64 (tk 0).val]
        ∃ x, u.fireMem r k n = .ok (q.enqueue ⟨l.pa, natLe (w / 8) b, u.th.owner, false, true⟩) x ∧
          { x with stores := r.stores } = gives [0, 1] 0 b ∧ x.stores = r.stores ++
            [((firedTok .marker [tk 0, tk 1]).pos, l.pa, q.readAt u.th.owner u.th.lsq l.pa (w / 8), natLe (w / 8) b)])) ∧
    (tile < 8 → core < 192 → s.occupant core tile = none → exec (.tileClockChangeComplete core tile) s =
      .next (s.setCore core { s.core core with clk := (s.core core).clk.setIfInBounds tile (BitVec.ofNat 8 (s.clockTarget core tile)) }))

/-- R267, R269 to R273, R337, R338, R355, R390, R391, R395, R397, R453, R454: a running local copy makes its transfer
and ends with its status, or waits for a page; a row within 64-byte blocks of which nothing is yet done, that can be
read and written, and that does not overwrite its source, moves its bytes; one from another device under an owner
without a key asks for nothing and ends with 0x14 (R478); before that any part of a copy may be read or written (log
12); a page fault of a copy is recorded under a fresh token, or ends it where no function takes records, and a page
changed before a tlbi lets it go on. A thread whose cells reach their threshold, whose wait is over, whose event,
message or room has come (a changed cell is found by comparison, log 36) goes on, and a barrier opens when every
participant has arrived or ended. A region's round that began last is run once (log 35): it sends the change sets, as
they stood when it began, of the pairs of its phase, or the home's to the ring; where every descriptor fails they
count in DROP. A block that arrives at a die with EN = 1 is joined, cell by cell, under the owner of the line, owner 0
where it has none (log 33), or counted in DROP when its region's descriptor fails. -/
def Obligations.CopySyncSettleEvents : Prop :=
  ∀ (s : State) (seat n : Nat), let go (u : State) (m : Nat) : State := u.setSeat m { u.seat m with run := .running }
    (∀ (c : Copy) (h : Nat), s.copies.find? (fun (k : Copy) => decide (k.seat = seat ∧ k.handle = h) && k.status.isNone && k.fault.isNone) = some c →
      (s.remoteOf c.dst = none → s.remoteOf c.src = none →
        (∀ t w, s.copyRun c = .status t w → exec (.acopyComplete seat h) s = .next (t.endCopy c w)) ∧
        (∀ va st, s.copyRun c = .page va st → exec (.acopyComplete seat h) s = .next s) ∧
        (∀ l m, c.hand = [] → c.made = [] → c.wrote = [] → c.rows = 1 → 0 < c.len → c.len ≤ 64 - c.dst.toNat % 64 → c.len ≤ 64 - c.src.toNat % 64 →
          let u := s.serveCopy c (c.pieces 1); let v := u.walked c.ctx [c.dst];
          u.access c.ctx .load false c.src 1 0 = .ok l → u.poisoned c.owner l = false →
          v.access c.ctx .store false c.dst 1 0 = .ok m → m.region = none →
          (∀ j, j < c.len → c.writer (c.src + BitVec.ofNat 64 j) = none) →
          (let bs := u.readAt c.owner [] l.pa c.len;
            exec (.acopyComplete seat h) s =
              .next ((v.writePhys c.owner m.pa bs).endCopy c 0))) ∧
      (∀ dev, s.remoteOf c.dst = none → s.remoteOf c.src = some dev → c.tag = none → s.keys.contains c.owner = false →
        exec (.acopyComplete seat h) s = .next (s.endCopy c 0x14)) ∧
      (∀ off k, s.remoteOf c.src = none → let a := s.copyPart seat h off k false
        let ps := (c.unread c.rows).flatMap (fun p => p.within off (off + k)); let u := s.serveCopy c ps
        a = u.updCopy c (fun x => { x with hand := x.hand ++ (u.copySource c.ctx ps).1 })) ∧
      (∀ off k, s.remoteOf c.dst = none → let a := s.copyPart seat h off k true
        let ps := (c.todo c.rows).flatMap (fun p => p.within off (off + k)); let r := s.copyTarget c (handAt (s.copyHand c)) ps
        (r.2.2 = none → a = r.1.updCopy c (fun x => { x with made := x.made ++ [(off, k)], wrote := r.2.1 })) ∧
        (∀ e, r.2.2 = some e → a = r.1.updCopy c (fun x => { x with made := x.made ++ [(off, e.1 - off)], wrote := r.2.1 })))) ∧
      (∀ dev, s.remoteOf c.dst = some dev → exec (.acopyComplete seat h) s = .next (match (s.copyOut c dev).2 with
        | some w => (s.copyOut c dev).1.endCopy c w | none => (s.copyOut c dev).1)) ∧
      (∀ va st, s.copyPage c = some (va, st) →
        let d : Copy := { c with faultVa := va.toNat, faultStore := st }
        (s.recordFn c.owner = none → exec (.copyEnginePageFault seat h) s = .next (s.failCopy d)) ∧
        (∀ f, s.recordFn c.owner = some f → (∃ t, exec (.copyEnginePageFault seat h) s = .next t ∧ (∃ r,
          t = ((s.updCopy c (fun _ => { d with
            fault := some s.nextToken, faultPath := s.pathFrom va.toNat [4, 3, 2, 1, 0] c.ptbase, retry := false })).bumpToken).postRecord f r ∧ r.va = va ∧ r.token = s.nextToken ∧
          r.kind = 3 ∧ r.fatal = false ∧ r.cause = (if st then 0x05 else 0x04)))))) ∧
    (∀ (c : Copy) (token : Nat), s.copies.find? (fun (k : Copy) => decide (k.fault = some token)) = some c →
      exec (.copyPageRetry token) s = .next (if c.retry = true then s.updCopy c (fun k => { k with fault := none }) else s)) ∧
    (∀ core q k, let seats := (seatsOf core).filter (fun m => (s.seat m).grp = some (q, k))
      (∀ m ∈ seats, (s.seat m).cbarIn = true → (s.seat m).cbarArrived = true) →
      (∀ x ∈ s.saved, x.inGroup core (q, k) = true → x.th.cbarIn = true → x.th.cbarArrived = true) →
      exec (.cbarRelease core q k) s = .next (seats.foldl (fun u m =>
        let t := u.seat m
        let t := if t.cbarIn then { t with cbarIn := false, cbarArrived := false, cbarPassed := true } else t
        u.setSeat m (if t.run = .waiting .cbar then { t with run := .running } else t)) s)) ∧
    exec (.ltwSatisfied seat) s = .next (if (s.focus seat).cellsHold then go s seat else s) ∧
    (∀ d many va thr c m dbl acq, (s.seat seat).run = .waiting (.cells d many va thr c m dbl acq) →
      exec (.ltwtoExpiry seat) s = .next (if (s.focus seat).timedOut then go s seat else s)) ∧
    (∀ y, (s.seat seat).run = .waiting (.event y) →
      (((s.seat seat).wake = true ∨ (s.focus seat).cellsChanged = true ∨ (s.focus seat).timedOut = true) →
        exec (.waitResume seat) s = .next (s.finishSeat seat
          { s.seat seat with waitStart := none, waitUsed := 0, wake := false }.pushVq 1)) ∧
      ((s.seat seat).wake = false → (s.focus seat).cellsChanged = false → (s.focus seat).timedOut = false →
        exec (.waitResume seat) s = .next s)) ∧
    (∀ core side m rest, let b := (s.core core).buf side
      b.flight = m :: rest → (∃ t, exec (.messageArrival core side) s = .next t ∧ (
        let u := s.setCore core ((s.core core).setBuf side { b with msgs := b.msgs ++ [m], flight := rest })
        t = (seatsOf core).foldl (fun u i => let x := u.seat i
          if x.run = .waiting (.message side) then u.setSeat i { x with run := .running }
          else if (x.run = .waiting (.event true) ∨ x.run = .waiting (.event false)) ∧ x.lastRecv = some side then
            u.setSeat i { x with wake := true }
          else u) u))) ∧
    (∀ next d, (s.seat seat).run = .waiting (.sendRoom next) → neighbour (seat / 8) next = some d →
      (s.coreDead d = true ∨ ((s.core d).buf (!next)).used + ((s.seat seat).message 0).bytes ≤ 16384) →
      exec (.vsendRoom seat) s = .next (go s seat)) ∧
    (∀ (c : Copy) (f : Copy → Copy), let u := s.updCopy c f
      u = { s with copies := u.copies } ∧ u.copies = s.copies.map (fun k => if k.seat = c.seat ∧ k.handle = c.handle then f k else k)) ∧
    (∀ lrt idx, let p := s.roundPeriod lrt idx
      let k := s.cycle / p
      let done := Map.get 0 s.rounds (4096 * lrt + idx)
      let u : State := { s with rounds := Map.put 0 s.rounds (4096 * lrt + idx) (k * p + 1) };
      (k * p < done → exec (.settleRound lrt idx) s = .next s) ∧
      (s.regionAt lrt idx = none → done ≤ k * p → exec (.settleRound lrt idx) s = .next (u.runRound lrt idx (k * p) (k % 5)) ∧
        ∀ d, d < 6 → u.settles d = true → u.ringUp = true → Map.wf Die.reset s.dies = true → (∀ q, (u.changeSet lrt idx d q).any (fun c => decide (c.since ≤ k * p ∧ q ≠ 6)) = false) →
          (((u.runRound lrt idx (k * p) (k % 5)).die d).setDrop = min 65535 ((u.die d).setDrop +
            ((u.changeSet lrt idx d 6).filter (fun c => decide (c.since ≤ k * p))).length))) ∧
      ∀ r, s.regionAt lrt idx = some r → p = 900 * max 1 (max r.period ((r.pages + 15) / 16)) ∧
      (done ≤ k * p → r.domain = true → exec (.settleRound lrt idx) s = .next (if s.settles r.home then u.ringSend lrt idx (k * p) else u)) ∧
      (done ≤ k * p → r.domain = false → exec (.settleRound lrt idx) s = .next (((phasePairs (k % 5)).filter
        (fun p => s.settles p.1 && s.settles p.2)).foldl (fun v q =>
          (v.settleSend lrt idx (k * p) q.1 q.2).settleSend lrt idx (k * p) q.2 q.1) u))) ∧
    (∀ m r, s.settleMsgs[n]? = some m → let u : State := { s with settleMsgs := s.settleMsgs.eraseIdx n }
      m.dst ∉ s.fleet.deadDies →
      ((s.die m.dst).setEn = false → exec (.settleBlockReceive n) s = .next s) ∧ ((s.die m.dst).setEn = true →
      (s.descriptor m.lrt m.idx m.dst = none → exec (.settleBlockReceive n) s = .next (u.dropped m.dst 1)) ∧
      (s.descriptor m.lrt m.idx m.dst = some r → exec (.settleBlockReceive n) s =
        .next (if r.pages * 64 ≤ m.block then u.dropped m.dst 1 else u.joinBlock r m.dst (some m.src) m.block m.bytes)))) ∧
    (∀ (r : Region) (pa v : Nat), let own := (Map.get LineTag.reset s.lines (pa / 128)).owner.getD 0
      let new := r.join (s.cellAt own r pa) (r.canon v)
      s.joinReceived r pa v = if new = s.cellAt own r pa then (s, false) else (s.writePhys own pa (natLe (r.bits / 8) new), true))

/-- R427 to R437: with the device ready, the write of a record's last bytes by the host admits the record to its
queue, or counts it in QERR; QCTL takes a value without reserved bits. The head record of an enabled queue leaves it
as a group when its gate passes or fails. A waiting group's effective priority rises after each 2 ms. The dispatcher
places the next task of the group it chooses on its seat, or a whole gang on its run of cores; a gang waiting over 100
microseconds reserves a run. A group whose tasks and copies have all ended, or whose gate failed, joins its completion
cell, writes its entry, sends its message and is gone; under an owner without a key (R478) it joins and writes
nothing. What a gate's or a placement's translations take is read (R446). -/
def Obligations.LaunchEvents : Prop :=
  ∀ (s : State) (q : Nat), let x := s.queue q
    (∀ v : Word, s.ready = true → q < 64 → exec (.qctlWrite q v) s =
      .next (if v.toNat / 2 ^ 42 ≠ 0 ∨ v.toNat / 2 % 2 ^ 15 ≠ 0 then s else
        s.setQueue q { x with ctl := v, prev := if v.getLsbD 0 = true ∧ x.en = false then none else x.prev })) ∧
    (∀ (wide : Bool) (data : Word), s.ready = true → q < 64 →
      let last : Word := if wide then data else putBits (x.staging.getD 7 0) 32 32 data.toNat
      let y : Queue := { x with staging := x.staging.setIfInBounds 7 last }
      let r := recOf (fun k => y.staging.getD k 0)
      (r.queue = q → r.valid x.owner = true → x.en = true → x.recs.length < 256 → (∃ t, exec (.hostRecordCommit q wide data) s = .next t ∧ (
        let u := s.setQueue q y
        let rs := (u.queue q).recs ++ [((u.queue q).seq, r)]
        t = u.setQueue q { u.queue q with recs := rs, seq := ((u.queue q).seq + 1) % 2 ^ 32 }))) ∧
      ((s.setQueue q y).queue q = y → (r.queue ≠ q ∨ r.valid x.owner = false ∨ x.en = false ∨ 256 ≤ x.recs.length) → exec (.hostRecordCommit q wide data) s =
        .next ((s.setQueue q y).setQueue q { y with err := Nat.min 65535 (x.err + 1) }))) ∧
    (∀ k r rest, x.recs = (k, r) :: rest → x.en = true →
      let v := if r.gate = 2 then s.queueServe 0 x.owner x.asid x.pt.toNat x.lrt.toNat r.gcell else s
      (v.gate q r = some false → exec (.gateTest q) s = .next v) ∧
      (∀ g, v.gate q r = g → g ≠ some false → exec (.gateTest q) s =
        .next (({ v with groups := s.groups ++ [s.groupOf q k r g.isNone] } : State).setQueue q { x with recs := rest, prev := some k }))) ∧
    (∀ k, exec (.priorityAging q k) s = .next { s with groups := s.groups.map (fun (g : Group) =>
      if g.queue = q ∧ g.seq = k ∧ g.pending = true ∧ (g.boost + 1) * 3600000 ≤ s.cycle - g.since then { g with boost := g.boost + 1 }
      else g) }) ∧
    (∀ g n, s.dispatch = some (.task g) → s.taskSeat g = some n → exec .taskPlacement s = .next (((s.preferWalk g).placeTask g g.placed n).served g 1)) ∧
    (∀ (g : Group) (n task cycle : Nat), let t := g.thread n task cycle
      t.pc = g.r.entry.extractLsb' 0 57 ∧ t.get .taskid = BitVec.ofNat 64 task ∧ t.get .taskcnt = BitVec.ofNat 64 g.r.tasks ∧
      t.get .argptr = g.r.argptr ∧ t.get .owner = BitVec.ofNat 64 g.owner ∧ t.get .asid = g.asid ∧ t.priv = false ∧
      t.grp = some (g.queue, g.seq) ∧ t.vvalid = 0 ∧ t.prio = g.prioAt cycle) ∧
    (∀ (g : Group) (cycle : Nat), g.boost = 0 → g.prioAt cycle =
      if 6 ≤ g.r.prio then g.r.prio else min 6 (g.r.prio + (cycle - g.since) / 3600000)) ∧
    (∀ g c0, s.dispatch = some (.gang g) → s.gangRun g = some c0 → (∃ t, exec .gangPlacement s = .next t ∧ (
      let u := (List.range g.r.tasks).foldl (fun (u : State) k => match s.seatFor g.queue g.seq (c0 + k) with
        | some n => u.placeTask g k n | none => u) (s.preferWalk g)
      ∃ v, t = ({ u with gangResv := v } : State).served g g.r.tasks ∧ v ≠ some (g.queue, g.seq, c0)))) ∧
    (∀ g ∈ s.groups, let late (h : Group) : Prop := h.pending = true ∧ h.r.gang = true ∧ 180000 < s.cycle - h.since
      s.gangResv = none → late g → g.r.tasks ≤ 192 → (∀ h ∈ s.groups, late h → h ≠ g →
        s.before (.gang g) (.gang h) = true ∧ s.before (.gang h) (.gang g) = false) →
      (∃ t, exec .gangReservation s = .next t ∧ (∃ c0, t = { s with gangResv := some (g.queue, g.seq, c0) } ∧ c0 + g.r.tasks ≤ 192 ∧
        ∀ c1, c1 + g.r.tasks ≤ 192 → (List.range g.r.tasks).foldl (fun a k => a + (s.freeSeats (c1 + k)).length) 0 ≤
          (List.range g.r.tasks).foldl (fun a k => a + (s.freeSeats (c0 + k)).length) 0))) ∧
    (∀ g status, s.keys.contains g.owner = false →
      (s.completionJoin g).2 = false ∧ (s.completionJoin g).1.mem = s.mem ∧ s.writeEntry g status = s) ∧
    (∀ k g, s.groups.find? (fun (g : Group) => decide (g.queue = q ∧ g.seq = k)) = some g →
      (g.gateFailed = true ∨ (g.exited + g.removed = g.r.tasks ∧ ∀ c ∈ s.copies, c.grp = some (g.queue, g.seq) → c.status.isSome = true)) →
      let j := if g.r.cmpl && !g.gateFailed then s.completionJoin g else (s, true)
      let status := if g.gateFailed then 2 else if 0 < g.removed then 3 else if j.2 then 0 else 1
      let u := j.1.writeEntry g status
      let u : State := { u with groups := u.groups.filter (fun (y : Group) => !(decide (y.queue = q ∧ y.seq = k))) }
      exec (.groupCompletion q k) s = .next (if g.r.msi then u.sendMsi g.owner g.r.msiv else u))

/-- R319, R323, R450, R451, R453, R454, R459 to R463: the firmware, whose steps are single events, with EPC and UEPC
at a removal and the STATUS and VTYPE of a parked thread as log 37 says, parks a thread whose trap is forwarded, under
a fresh token that its record carries, and removes it for every other cause; where the function takes no record it
removes it without one; a trap in an exit routine ends the thread. The driver's answers release the parked thread at
EPC or behind its instruction, or remove it with cause 0x13; FQCONS takes its value. The watchdog removes a thread
over its runtime limit (after its fx is cut), one whose stop takes 1 ms (what completes under a stop completes first;
an exit routine ends) or one that had no answer for TMO ms. A removed thread with an EXITPC goes on there, in user
mode, without lanes and with a GCEIL of 0 that is not raised, with the cause in UCAUSE. A level-1 victim is stopped
after 20 microseconds, and what it has in hand completes first; a starved task stops the victim of R460, of a gang
only where all of it lies below; the dispatcher restores the saved thread it chooses. A record has 32 bytes with its
fields at their offsets. -/
def Obligations.FaultEvents : Prop :=
  ∀ (s : State) (seat token fn : Nat), let t := s.seat seat
    let ended (u : State) : State := (((u.dropFx seat).drainSeat seat).endThread seat).wakeFabric (seat / 8)
    let cause := (t.get .ecause).toNat % 256;
    (t.trapped = true → supervisorSeat seat = false → t.tb0.pending = none → t.tb1.pending = none →
      (t.exitRoutine = true → exec (.faultRecordPost seat) s = .next (ended s)) ∧
      (t.exitRoutine = false → s.recordFn t.owner = none → exec (.faultRecordPost seat) s = .next (s.removeSeat seat)) ∧
      (∀ f, t.exitRoutine = false → s.recordFn t.owner = some f →
        (cause ∈ [0x04, 0x05, 0x06, 0x0F, 0x10] → (∃ u, exec (.faultRecordPost seat) s = .next u ∧ (∃ r,
          u = (s.saveSeat seat t.untrap true (t.gang && t.stopping.isNone) f).postRecord f r ∧ r.va = t.get .eval ∧ r.asid = t.get .asid ∧ r.cause = cause ∧
          r.sub = (t.get .ecause).toNat / 256 % 256 ∧ r.token = s.nextToken ∧ r.fatal = false ∧ r.gang = t.gang ∧ r.seat = seat ∧
          r.elem = (t.get .eelem).toNat % 2 ^ 32 ∧ r.pc = t.get .epc ∧ r.kind = t.trapKind))) ∧
        (cause ∉ [0x04, 0x05, 0x06, 0x0F, 0x10] → exec (.faultRecordPost seat) s = .next ((s.postFatal t seat).removeSeat seat)))) ∧
    (let v := t.untrap;
      v.pc = (t.get .epc).extractLsb' 0 57 ∧ v.run = .running ∧ (∀ r, v.x r = t.x r) ∧ (∀ r, v.fr r = t.fr r) ∧ v.slices = t.slices ∧
      v.vvalid = t.vvalid) ∧
    (∀ c, let v := t.toExit c;
      v.pc = (t.get .exitpc).extractLsb' 0 57 ∧ v.run = .running ∧ v.priv = false ∧ v.removed = true ∧ v.exitRoutine = true ∧
      v.get .gceil = 0 ∧ v.lowered = false ∧ v.ceilHeld = true ∧ v.get .grant = 0 ∧ v.get .vl = 0 ∧ v.get .vstart = 0 ∧ v.vvalid = 0 ∧ v.get .status = 0 ∧ v.get .vtype = 0 ∧
      v.get .uepc = t.get .epc ∧ (v.get .ucause).toNat = cause + (t.get .ecause).toNat / 256 % 256 * 2 ^ 16 +
        (t.get .eelem).toNat % 2 ^ 32 * 2 ^ 32 ∧ v.tb0 = t.tb0 ∧ v.tb1 = t.tb1 ∧ (∀ r, v.x r = t.x r) ∧ (∀ r, v.fr r = t.fr r)) ∧
    (∀ (r : FaultRec), r.bytes.length = 32 ∧ (r.cause < 256 → r.bytes[10]? = some (BitVec.ofNat 8 r.cause)) ∧
      (r.sub < 256 → r.bytes[11]? = some (BitVec.ofNat 8 r.sub)) ∧ leNat (r.bytes.take 8) = r.va.toNat ∧
      (r.token < 2 ^ 32 → leNat ((r.bytes.drop 16).take 4) = r.token) ∧ leNat (r.bytes.drop 24) = r.pc.toNat) ∧
    (∀ x, s.ready = true → s.parkedThread fn token = some x →
      exec (.fqRetry fn token) s = .next (s.setSaved { x with parked := false, since := s.cycle }) ∧
      exec (.fqSkip fn token) s = .next (s.setSaved { x with
        th := { x.th with pc := x.th.pc + BitVec.ofNat 57 (s.skipBytes x) }, parked := false, since := s.cycle }) ∧
      (∀ w, s.fetchWord (x.th.ctx (coreOf x.seat)) x.th.pc = .ok w → s.skipBytes x = if wMajor w = 0x3E then 8 else 4) ∧
      exec (.fqRemove fn token) s = .next (s.watchdogSaved x 0x04)) ∧
    (∀ c, s.ready = true → s.parkedThread fn token = none → s.faultedCopy fn token = some c →
      exec (.fqRetry fn token) s = .next (s.updCopy c (fun k => { k with fault := none })) ∧
      exec (.fqRemove fn token) s = .next (s.failCopy c)) ∧
    (∀ (x : Saved) sub, let v := x.th.watchdog sub
      v.get .ecause = 0x13 + 0x100 * sub.setWidth 64 ∧
      (v.get .exitpc ≠ 0 → s.watchdogSaved x sub = (s.postFatal v x.seat).setSaved { x with
        th := v.toExit (s.postFatal v x.seat).cycle, parked := false, since := (s.postFatal v x.seat).cycle }) ∧
      (v.get .exitpc = 0 → s.watchdogSaved x sub = (s.postFatal v x.seat).endSaved { x with th := { v with removed := true } })) ∧
    (∀ x, s.saved.find? (fun (x : Saved) => decide (x.token = token) && x.parked) = some x → (s.fq x.fn).tmo ≠ 0 →
      (s.fq x.fn).tmo * 1800000 ≤ s.cycle - x.since → exec (.parkedTimeout token) s = .next (s.watchdogSaved x 0x03)) ∧
    (∀ v : Word, s.ready = true → fn < 17 → (s.fq fn).held = [] →
      exec (.fqconsWrite fn v) s = .next (s.setFq fn { s.fq fn with cons := v.toNat % 2 ^ 32 })) ∧
    (s.fleet.rtlim ≠ 0 → s.fleet.rtlim * 1800000 < t.held + (s.cycle - t.placedAt) → t.onSeat = true → t.priv = false →
      t.exitRoutine = false → supervisorSeat seat = false → s.mustComplete seat = false →
      ((t.fx = none ∨ ∃ r, t.fx = some r ∧ r.started = false) →
        exec (.runtimeLimitExpiry seat) s = .next (s.watchdogSeat seat 0x01)) ∧
      (∀ r, t.fx = some r → r.started = true →
        exec (.runtimeLimitExpiry seat) s = .next (s.setSeat seat { t with fx := some { r with cut := r.img.marked } }))) ∧
    (∀ c b, t.stopping = some (c, b) → 1800000 ≤ s.cycle - c → t.priv = false → s.mustComplete seat = false →
      exec (.stopTimeout seat) s = .next (if t.exitRoutine = true then ended s
        else s.watchdogSeat seat 0x02)) ∧
    (∀ sub, let m := s.mergeSeat seat; let v := (m.seat seat).watchdog sub
      s.watchdogSeat seat sub = ((m.postFatal v seat).setSeat seat v).removeSeat seat) ∧
    (t.exitRoutine = true → 1800000 ≤ s.cycle - t.placedAt →
      exec (.exitRoutineTimeout seat) s = .next (ended s)) ∧
    (∀ c, t.ceilFell = some c → t.stopping = none → 36000 ≤ s.cycle - c →
      exec (.level3SaveTimeout seat) s = .next (s.level3 seat false)) ∧
    (t.stopping.isSome = true → s.stopDone seat = true →
      exec (.level3SaveTimeout seat) s = .next (s.saveSeat seat t false false 0)) ∧
    (t.stopping.isSome = true → t.finishing = some t.pc → exec (.level3SaveTimeout seat) s = .next s) ∧
    (∀ (u : State) (k : WaitKind), (u.waitOn k).th.finishing = (match k with
      | .cells _ _ _ _ _ _ _ _ | .event _ | .lanes _ | .firstLanes _ | .restoreLanes _ | .fx | .tile _ true | .remote _ true => none
      | _ => some u.th.pc)) ∧
    (∀ q k p v, (∀ n ∈ s.allSeats, ∀ c, (s.seat n).stopping ≠ some (c, true)) → s.starved q k = some p → v ∈ s.allSeats →
      (let may (n : Nat) : Prop := supervisorSeat n = false ∧ (s.seat n).onSeat = true ∧ (s.seat n).prio < p ∧
          ((s.seat n).gang = true → (∀ m ∈ s.allSeats, (s.seat m).grp = (s.seat n).grp → (s.seat m).prio < p) ∧
            ∀ x ∈ s.saved, x.th.grp = (s.seat n).grp → x.th.prio < p);
        may v ∧ ∀ n ∈ s.allSeats, may n → n ≠ v → (s.seat v).prio < (s.seat n).prio ∨ ((s.seat v).prio = (s.seat n).prio ∧
          ((s.seat n).placedAt < (s.seat v).placedAt ∨ ((s.seat n).placedAt = (s.seat v).placedAt ∧ n < v)))) →
      exec (.seatPreemption q k) s = .next (s.level3 v true)) ∧
    (∀ x, s.dispatch = some (.saved x) → exec (.contextRestore x.token) s = .next ((s.savedWith x).foldl (fun (u : State) y =>
      match u.savedSeat y with
      | some n => u.restoreOn y n
      | none => u) s))

/-- R395, R427, R466 to R470, R477, R478, R481, R486, R491, R493, R494: an aligned write of a legal value sets its
register and one with a reserved value or an rs bit changes nothing; one of another size or misaligned completes as an
unsupported request; the places of the registers; the words that KSTAT (a count of keys modulo 1,024, log 41) and the
identity word read as; a TCLK word without a code above 30 sets its core's clocks; reads of QERR, SETCFG and the
cleared counters, whole or of either half, answer the value and, where they take bits of it, clear it, and other
counters answer their value; completions and the record of a discarded write are kept as log 40 says; a BAR2 write
within a block is performed under the function's owner, a read recalls dirty copies, fetches lines that their slice
lacks, answers its bytes, ones where poisoned, with the poison said, and is aborted outside HBM or without the owner's
key, where a write is discarded and, outside HBM, logged; SEATGO resumes a halted seat; a key command takes its ID, a
destroyed owner has no key from then on and no HBM line or VSP block after it, and the result is posted; a reset of a
virtual function leaves its owner with a new key and neither. Once CD0 is dead nothing is answered (R479). -/
def Obligations.HostEvents : Prop :=
  ∀ (s : State) (fn off n : Nat) (v : Word), s.ready = true →
    (∀ r, s.fnUp fn = true → off < 0x8000000 → off % 8 = 0 → s.hostReg fn off = some r → (∀ q, r ≠ .staging q 7) →
      exec (.registerWrite fn off 8 v) s = .next (if r.legal v = true then s.setHostReg r v else s)) ∧
    (∀ r k, s.fnUp fn = true → off < 0x8000000 → off % 8 = 4 * k → k < 2 → s.hostReg fn (off - 4 * k) = some r → (∀ q, r ≠ .staging q 7) →
      let w := if k = 0 then (s.hostValue r).extractLsb' 32 32 ++ v.setWidth 32 else v.setWidth 32 ++ (s.hostValue r).setWidth 32;
      exec (.registerWrite fn off 4 v) s = .next (if r.legal w = true then s.setHostReg r w else s)) ∧
    (∀ x < 16, s.hostReg 0 (0x20000 + 8 * x) = some (.vf x)) ∧ s.hostReg 0 0x20080 = some .pfown ∧ s.hostReg 0 0x20088 = some .pfwin ∧
    s.hostReg 0 0x30000 = some .fcfg ∧ (∀ x < 128, s.hostReg 0 (0x31000 + 8 * x) = some (.route x)) ∧
    s.hostReg 0 0x50000 = some .pcap ∧ s.hostReg 0 0x50010 = some .rtlim ∧ s.hostReg 0 0x50018 = some .hbcfg ∧
    s.hostReg fn 0x80000 = some (.fqbase fn) ∧ s.hostReg fn 0x80020 = some (.fqctl fn) ∧
    (∀ x < 64, s.hostReg 0 (0x100050 + 0x1000 * x) = some (.qpt x) ∧ s.hostReg 0 (0x100058 + 0x1000 * x) = some (.qlrt x) ∧
      s.hostReg 0 (0x100060 + 0x1000 * x) = some (.qslot x) ∧ s.hostReg 0 (0x100068 + 0x1000 * x) = some (.qcr x) ∧
      ∀ k < 8, s.hostReg 0 (0x100000 + 0x1000 * x + 8 * k) = some (.staging x k)) ∧
    (s.fnUp fn = true → ((n ≠ 4 ∧ n ≠ 8) ∨ off % n ≠ 0) →
      exec (.registerWrite fn off n v) s = .next { s with hostOut := .unsupported :: s.hostOut }) ∧
    s.hostRead 0 0 8 = some (.data (natLe 8 (0xD6A9 + 0x0612 * 2 ^ 16 + 0x01 * 2 ^ 32))) ∧
    s.hostRead 0 0x10008 8 = some (.data (natLe 8 ((if s.keyCmd.isSome = true then 2 ^ 63 else 0) + s.keys.length % 1024 * 2 ^ 32 +
      s.keyLid % 1024 * 2 ^ 16 + s.keyRes % 256))) ∧
    (∀ u : State, 0 ∈ u.fleet.deadDies → (∀ o k, u.hostRead fn o k = none) ∧ exec (.bar2Read fn off n) u = .next u ∧
      exec (.registerWrite fn off n v) u = .next u ∧ (∀ q p, exec (.setcfgRead ⟨q, p⟩) u = .next u ∧ exec (.qerrRead fn ⟨q, p⟩) u = .next u) ∧
      ∀ o p, exec (.fleetCounterRead ⟨o, p⟩) u = .next u) ∧
    ((0x8000000 ≤ off ∧ off < 0x10000000 ∧ off % 8 = 0) →
      exec (.registerWrite 0 off 8 v) s = .next (s.ctlWrite (0xF000000000000 + (off - 0x8000000)) 8 v.toNat)) ∧
    (∀ die i : Nat, die < 6 → i < 32 → exec (.tclkWrite die i v) s = .next (if ∃ k < 8, 30 < (v.extractLsb' (8 * k) 8).toNat then s else
      s.setCore (32 * die + i) { s.core (32 * die + i) with tclk := Vector.ofFn (fun (k : Fin 8) => v.extractLsb' (8 * k.val) 8) })) ∧
    (∀ (p : RegPart), let got (x : Nat) : List Byte := match p with
        | .whole => natLe 8 x | .low => natLe 4 x | .high => natLe 4 (x / 2 ^ 32)
      (∀ q, s.seesQueue fn q = true → s.fnUp fn = true → exec (.qerrRead fn ⟨q, p⟩) s = .next
        { (if p = .high then s else s.setQueue q { s.queue q with err := 0 }) with hostOut := .data (got (s.queue q).err) :: s.hostOut }) ∧
      (∀ d < 6, exec (.setcfgRead ⟨d, p⟩) s = .next
        { (if p = .low then s else s.setDie d { s.die d with setCarry := 0, setDrop := 0 }) with
          hostOut := .data (got (s.die d).setcfg) :: s.hostOut }) ∧
      (∀ o, let c := Map.get 0 s.fleet.cnt o
        (0x1300 ≤ o → o < 0x14A8 → exec (.fleetCounterRead ⟨o, p⟩) s = .next { s with
          fleet := { s.fleet with cnt := if p = .high then s.fleet.cnt else Map.put 0 s.fleet.cnt o 0 }
          hostOut := .data (got (min c (2 ^ 32 - 1))) :: s.hostOut }) ∧
        (o < 0x1300 ∨ 0x14A8 ≤ o →
          exec (.fleetCounterRead ⟨o, p⟩) s = .next { s with hostOut := .data (got (c % 2 ^ 64)) :: s.hostOut }))) ∧
    (∀ bs : List Byte, let own := s.fnOwner fn
      let pa := off + (if fn = 0 then s.pfwin.toNat else ((s.vf (fn - 1)).extractLsb' 41 22).toNat * 2 ^ 30)
      let ok (m : Nat) : Prop := s.fnUp fn = true ∧ own ∈ s.keys ∧ ∀ i < m, paKind (pa + i) = .hbm;
      (ok bs.length → bs ≠ [] → pa % 64 + bs.length ≤ 64 → s.pointDead pa = false →
        exec (.bar2Write fn off bs) s = .next (s.writePhys own pa bs)) ∧
      (¬ ok bs.length → exec (.bar2Write fn off bs) s = .next
        (if s.fnUp fn = true ∧ (∃ i < bs.length, paKind (pa + i) ≠ .hbm) then { s with aer := s.aer ++ [(fn, off)] } else s)) ∧
      (let ls := (paLines pa n).filter (fun l => !s.pointDead (128 * l))
       let u := ls.foldl (fun (u : State) l => if u.inSlice l then u else u.readLineAs own l) (s.recallL1 ls)
       let bad (i : Nat) : Prop := s.pointDead (pa + i) = true ∨ u.view own (pa + i) = .poison
       let b : List Byte := (List.range n).map (fun i => if bad i then 0xFF else u.byteAs own (pa + i))
       ok n → exec (.bar2Read fn off n) s = .next { u with hostOut := (if ∃ i < n, bad i then .poisoned b else .data b) :: s.hostOut }) ∧
      (∀ l, l ∈ paLines pa n → ∃ i < n, (pa + i) / 128 = l) ∧
      (¬ ok n → exec (.bar2Read fn off n) s = .next { s with hostOut := .abort :: s.hostOut })) ∧
    (let m := (v.extractLsb' 0 11).toNat;
      exec (.seatgo v) s = .next (if v.getLsbD 31 = true ∧ (s.seat m).run = .halted then s.setSeat m { s.seat m with run := .running }
        else s)) ∧
    (∀ id < 1024,
      (s.keyCmd = none → exec (.keyCreate id) s = .next { s with keyCmd := some (id, 1), keyLid := id } ∧
        (id ∈ s.keys → (∃ t, exec (.keyDestroy id) s = .next t ∧ (t.keyCmd = some (id, 2) ∧ t.keyLid = id ∧ id ∉ t.keys ∧
          ∀ k, k ≠ id → (k ∈ t.keys ↔ k ∈ s.keys)))) ∧
        (id ∉ s.keys → exec (.keyDestroy id) s = .next { s with keyCmd := some (id, 3), keyLid := id }))) ∧
    (∀ id, (s.keyCmd = some (id, 1) → exec .keyCommandDone s = .next (if id ∈ s.keys then { s with keyCmd := none, keyRes := 1 } else
        { s with keyCmd := none, keys := s.keys ++ [id], keyRes := 0 })) ∧
      (s.keyCmd = some (id, 2) → (∃ t, exec .keyCommandDone s = .next t ∧ (t.keyCmd = none ∧ t.keyRes = 0 ∧ t.keys = s.keys ∧ t.mem = s.mem ∧
        t.lines = s.lines.filter (fun e => decide (paKind (128 * e.1) = .vsp) || decide (e.2.owner ≠ some id)) ∧ t.vspTags = s.vspTags.filter (fun e => e.2 ≠ some id)))) ∧
      (s.keyCmd = some (id, 3) → exec .keyCommandDone s = .next { s with keyCmd := none, keyRes := 2 })) ∧
    (∀ x < 16, (∃ t, exec (.vfFunctionReset x) s = .next t ∧ (s.fnOwner (x + 1) ∈ t.keys ∧ t.vfs = s.vfs ∧
      (∀ e ∈ t.lines, paKind (128 * e.1) ≠ .vsp → e.2.owner ≠ some (s.fnOwner (x + 1))) ∧ (∀ e ∈ t.vspTags, e.2 ≠ some (s.fnOwner (x + 1))))))

/-- R481 to R487, R492: STCMD with its guard, a reset or a recovered trip starts the device, one event with its
outcomes (log 41), and it holds at release what R484 lists: the bits of memory without any owner, no key but that of
owner 0, every thread but the firmware's gone (the focus on core 0's, log 5, and registers as log 1 says), STATE READY
and STARTS one higher; a warm start keeps a latched failure, the indicators and the row repairs, a cold one clears
them. A failed cold start latches its code, detail and step, unless it fails before STEP 2 with an older failure
latched, and the device stays FAILED, where a counter's register reads zero. A failed warm attempt is counted and the
next begins; the third leads to a cold start. STCMD with another guard or while a start runs is ignored. -/
def Obligations.StartEvents : Prop :=
  ∀ (s : State), let cmd : Prop := s.start.state ≠ 1 ∧ s.start.tripped = false ∧ 0 ∉ s.fleet.deadDies
    let released (t : State) : Prop :=
      t.lines = [] ∧ t.vspTags = [] ∧ t.keys = [0] ∧ t.cur = 7 ∧ t.th = State.reset.th ∧ t.seats = State.reset.seats ∧ t.cores = [] ∧
      t.queues = [] ∧ t.fqs = [] ∧ t.vfs = [] ∧ t.pfown = 0 ∧ t.copies = [] ∧ t.groups = [] ∧ t.saved = [] ∧ t.images = [] ∧
      t.tlb = [] ∧ t.descs = [] ∧ t.l1 = [] ∧ t.slice = [] ∧ t.loads = [] ∧ t.fetches = [] ∧ t.cycle = 0 ∧ t.fleet.deadCores = [] ∧ t.fleet.deadDies = [] ∧ t.fleet.deadPeers = [] ∧
      t.fleet.power = 0 ∧ t.start.state = 2 ∧ t.start.tripped = false
    let warm (t : State) : Prop := released t ∧ t.mem = s.mem ∧ t.start.starts = (s.start.starts + 1) % 2 ^ 32 ∧ t.start.kind = 2 ∧
      t.start.wfail = 0 ∧ t.start.fcode = s.start.fcode ∧ t.start.fdet = s.start.fdet ∧
      t.start.step = (if s.start.fcode = 0 then 7 else s.start.step) ∧ t.fleet.replBits = s.fleet.replBits ∧
      t.fleet.spares = s.fleet.spares ∧ t.fleet.eccTotal = s.fleet.eccTotal
    let cold (t : State) : Prop := released t ∧ t.start.kind = 1 ∧ t.start.fcode = 0 ∧ t.start.step = 7 ∧ t.fleet.replBits = 0 ∧
      t.fleet.spares = []
    let coldAgain (t : State) : Prop := cold t ∧ t.mem = s.mem ∧ t.start.starts = (s.start.starts + 1) % 2 ^ 32
    (cmd → s.start.wfail < 3 → (∃ t, exec (.stcmdWarm 0x5354 []) s = .next t ∧ (warm t))) ∧
    (s.start.state ≠ 3 → s.start.tripped = false → s.start.wfail < 3 → (∃ t, exec (.warmReset []) s = .next t ∧ (warm t))) ∧
    (cmd → (∃ t, exec (.stcmdCold 0x5354 []) s = .next t ∧ (coldAgain t))) ∧
    (s.start.tripped = true → (∀ d < 6, (s.die d).temp < 85) → (∃ t, exec (.tripRecoveryStart []) s = .next t ∧ (coldAgain t))) ∧
    (∃ t, exec (.powerApplied []) s = .next t ∧ (cold t ∧ t.start.starts = 1 ∧ t.start.wfail = 0)) ∧
    (s.ready = false → 0 ∉ s.fleet.deadDies → ∀ o, exec (.fleetCounterRead ⟨o, .whole⟩) s = .next { s with hostOut := .data (natLe 8 0) :: s.hostOut }) ∧
    (∀ g o, g ≠ 0x5354 ∨ s.start.state = 1 → exec (.stcmdWarm g o) s = .next s ∧ exec (.stcmdCold g o) s = .next s) ∧
    (∀ step code det, failPossible true (.fail step code det) = true → cmd →
      (∃ t, exec (.stcmdCold 0x5354 [.fail step code det]) s = .next t ∧ (t.start.state = 3 ∧ t.start.kind = 1 ∧
        (2 ≤ step ∨ s.start.fcode = 0 → t.start.fcode = code ∧ t.start.fdet = det ∧ t.start.step = step) ∧
        (step < 2 → s.start.fcode ≠ 0 → t.start.fcode = s.start.fcode ∧ t.start.fdet = s.start.fdet ∧ t.start.step = s.start.step) ∧ t.mem = s.mem ∧ t.keys = s.keys ∧ t.fleet.replBits.getLsbD 4 = true ∧
        ∀ n, (t.seat n).run ≠ .running))) ∧
    (∀ step code det, s.start.wfail < 2 → failPossible false (.fail step code det) = true → cmd →
      (∃ t, exec (.stcmdWarm 0x5354 [.fail step code det]) s = .next t ∧ (t.start.state = 2 ∧ t.start.wcode = code ∧ t.start.wfail = 0 ∧
        t.start.kind = 2 ∧ t.start.starts = (s.start.starts + 2) % 2 ^ 32))) ∧
    (∀ a b c d, s.start.wfail = 0 → (∀ x ∈ [a, b, c], failPossible false x = true ∧ x ≠ .ok) → failPossible true d = true →
      cmd → (∃ t, exec (.stcmdWarm 0x5354 [a, b, c, d]) s = .next t ∧ (t.start.wfail = 0 ∧ t.start.kind = 1 ∧
        t.start.starts = (s.start.starts + 4) % 2 ^ 32 ∧ (d = .ok → t.start.state = 2) ∧ (d ≠ .ok → t.start.state = 3))))

/-- R474, R479, R480, R488 to R492, R495, R496: a heartbeat restarts its agent's time, one of a dead agent is counted
and ignored, and the device sends one on each port, where resends of flits with a failing CRC are counted and eight of
one flit fence the port (how many there were, and of how many flits, is free, log 54); an agent without a heartbeat
for 60 microseconds whose declaration HBCFG enables is dead, with the fencing its kind calls for; of other devices
those linked to this one, by the heartbeats of their ports (log 54). A power sample above the cap raises the throttle
level by one, up to 15, one more than 50 W below it lowers it by one; 100 degrees hold it at 8 or more until all
readings are below 95, and 110 hold it too and stop the device until a start. A port of a ready device that trains is
fenced no more and starts a new session (log 42). -/
def Obligations.FleetEvents : Prop :=
  ∀ (s : State),
    (∀ a, (∀ n, a ≠ .peer n) → exec (.heartbeatSend a) s = .next (if s.agentDead a = true then s.count 0x14A0 1 else
      { s with fleet := { s.fleet with beats := Map.put 0 s.fleet.beats (agentKey a) s.cycle } })) ∧
    ((∃ t, exec (.heartbeatSend (.peer s.devnum)) s = .next t ∧ (∃ dst : Nat → Nat, (∀ p, dst p < 128) ∧
      t = (List.range 12).foldl (fun (u : State) p => (u.linkErrors p).emit p (unitFlit 8 s.devnum (dst p) 0 0 0 [])) s))) ∧
    (∀ p, ((s.port p).up = false → s.linkErrors p = s) ∧ ((s.port p).up = true → ∃ k, s.linkErrors p = s.count (0x1440 + 8 * p) k ∨
      (8 ≤ k ∧ s.linkErrors p = (s.count (0x1440 + 8 * p) k).fencePort p))) ∧
    (∀ p, ((s.port p).fenced = true → s.fencePort p = s) ∧ ((s.port p).fenced = false → (s.port p).fences ≠ 2 → s.fencePort p =
      s.setPort p { s.port p with fenced := true, fences := (s.port p).fences + 1 }) ∧
      ((s.port p).fenced = false → (s.port p).fences = 2 → s.fencePort p =
        (s.setPort p { s.port p with fenced := true, fences := 3 }).indicate 2 p)) ∧
    (∀ a, 108000 ≤ s.cycle - Map.get 0 s.fleet.beats (agentKey a) → s.agentDead a = false →
      (∀ n, a = .core n → n < 192 → s.fleet.hbcfg.getLsbD 0 = true → (∃ t, exec (.agentDeath a) s = .next t ∧ (
        t = (({ s with fleet := { s.fleet with deadCores := s.fleet.deadCores ++ [n] } } : State).killCore n).indicate 1 n))) ∧
      (∀ n, a = .die n → n < 6 → s.fleet.hbcfg.getLsbD 1 = true → (∃ t, exec (.agentDeath a) s = .next t ∧ (
        t = ((List.range 32).foldl (fun (u : State) k => u.killCore (32 * n + k)) { s with
          fleet := { s.fleet with deadDies := s.fleet.deadDies ++ [n] }, changes := s.changes.filter (fun (c : Change) => c.die ≠ n),
          settleMsgs := s.settleMsgs.filter (fun (m : SettleMsg) => m.src ≠ n ∧ m.dst ≠ n) }).indicate 1 (0xC0 + n)))) ∧
      (∀ n, a = .peer n → n < 128 → (∃ p < 12, (s.port p).peer = some n) → n ≠ s.devnum → s.fleet.hbcfg.getLsbD 2 = true →
        (∃ t, exec (.agentDeath a) s = .next t ∧ (t = ({ s with fleet := { s.fleet with deadPeers := s.fleet.deadPeers ++ [n] } } : State).fencePeer n ∧
          n ∈ t.fleet.deadPeers ∧ t.mem = s.mem)))) ∧
    (∀ n, let linked := (List.range 12).filter (fun p => decide ((s.port p).peer = some n))
      (∀ r ∈ s.remotes, r.dev ≠ n ∨ r.done = true) → s.fencePeer n = linked.foldl (fun (u : State) p => u.fencePort p) s) ∧
    (∀ w < 65536, (∃ t, exec (.powerSample w) s = .next t ∧ (
      t = { s with fleet := { s.fleet with power := w, thr := t.fleet.thr } } ∧
      (s.fleet.thermHold = false →
        (25 * s.fleet.pcap < w → t.fleet.thr = min (s.fleet.thr + 1) 15) ∧
        (w + 50 < 25 * s.fleet.pcap → t.fleet.thr = s.fleet.thr - 1) ∧
        (w ≤ 25 * s.fleet.pcap → 25 * s.fleet.pcap ≤ w + 50 → t.fleet.thr = s.fleet.thr)) ∧
      (s.fleet.thermHold = true → 8 ≤ t.fleet.thr ∧ (t.fleet.thr = 8 ∨ t.fleet.thr ≤ s.fleet.thr + 1))))) ∧
    (∀ ts : List Nat, ts.length = 6 → (∀ x ∈ ts, x < 256) →
      let u := (List.range 6).foldl (fun (u : State) d => u.setDie d { u.die d with temp := ts.getD d 0 }) s
      ((∀ d < 6, (u.die d).temp = ts.getD d 0) →
        ((∀ x ∈ ts, x < 95) → exec (.temperatureSample ts) s = .next { u with fleet := { s.fleet with thermHold := false } }) ∧
        ((∀ x ∈ ts, x < 100) → (∃ x ∈ ts, 95 ≤ x) → exec (.temperatureSample ts) s = .next u) ∧
        ((∀ x ∈ ts, x < 110) → (∃ x ∈ ts, 100 ≤ x) → exec (.temperatureSample ts) s =
          .next { u with fleet := { s.fleet with thermHold := true, thr := max 8 s.fleet.thr } }) ∧
        ((∃ x ∈ ts, 110 ≤ x) → s.start.tripped = false → (∃ t, exec (.temperatureSample ts) s = .next t ∧ (t.start.tripped = true ∧
          t.fleet.replBits.getLsbD 3 = true ∧ t.fleet.thermHold = true ∧ 8 ≤ t.fleet.thr ∧ t.queues = [] ∧ t.copies = [] ∧ t.groups = [] ∧ t.mem = s.mem ∧ t.th.run = .dead ∧ t.seats = []))) ∧
        ((∃ x ∈ ts, 110 ≤ x) → s.start.tripped = true → exec (.temperatureSample ts) s =
          .next { u with fleet := { s.fleet with thermHold := true, thr := max 8 s.fleet.thr } }))) ∧
    (∀ p < 12, s.ready = true → (∃ t, exec (.portTraining p) s = .next t ∧ (∃ x : Port, t = s.setPort p x ∧ x.trained = true ∧ x.fenced = false ∧ x.txSeq = 0 ∧
      x.fences = (s.port p).fences)))

/-- R396, R470 to R476, R234: on a port that is up a well-formed flit for this device is counted and given to its
type's rule: a load request or store is performed and answered with what was done, the first failure and its sub-cause
(a load up to its first failure, each once its line is served; a store's records each; under the tables of log 18);
train records are performed in order, as a store's are, and the tail's answer compares their number; a response, an
acknowledgement or a timeout ends the request it names; a lattice exchange is joined into the replica, or counted in
DROP where its region does not agree (log 34); a peer's heartbeat is taken, and counted where the peer is dead. A port
that is down or fenced takes none. A flit for another member goes on; a malformed one is dropped and counted. A unit
of an owner without a key is refused with sub-cause 0x02, without tables or a translation with 0x01, by another check
of its access with 0x02; one that meets a lattice region joins a cell of its width. -/
def Obligations.LinkEvents : Prop :=
  ∀ (s : State) (port : Nat) (f : Flit), let u := s.count (0x1208 + 16 * port) 1
    let forms : List (Instr × Nat) := [(.loadRequest port f, 1), (.loadResponse port f, 2), (.store port f, 3), (.trainUnits port f, 4),
      (.trainTail port f, 5), (.acknowledgement port f, 6), (.latticeExchange port f, 7), (.peerHeartbeat port f, 8)]
    let ans (v : State) (ty n : Nat) (fail : Option (Nat × Nat)) (recs : List UnitRec) (bytes : List Byte) : State :=
      let g := unitFlit ty v.devnum f.src f.owner f.tag (answerAux n fail) recs
      v.emit (v.portOf f.src) (if bytes.isEmpty then g else { g with line := true, len := bytes.length, addr := f.addr, bytes := bytes })
    let ended (r r2 : RemoteOp) : State :=
      let v : State := { u with remotes := u.remotes.map (fun (x : RemoteOp) => if x.tag = r.tag then r2 else x) }
      if r2.done then v.wakeRemote r2 else v
    let served (v : State) (addr n : Nat) : State := v.remoteServe f.owner addr n
    let servedTo (k : Nat) : State := (f.recs.take k).foldl (fun v x => served v x.addr (2 ^ x.width)) u
    let loads (k : Nat) (ds : List (List Byte)) : Prop := ds.length = k ∧ ∀ j x, j < k → f.recs[j]? = some x → ∃ b, ds[j]? = some b ∧
      (servedTo (j + 1)).remoteLoad f.owner x.addr (2 ^ x.width) = .ok b
    let answered (k : Nat) (ds : List (List Byte)) : List UnitRec :=
      ((f.recs.take k).zip ds).map (fun e => ⟨e.1.addr, e.1.width, BitVec.ofNat 64 (leNat e.2)⟩)
    let walked (v : State) (x : UnitRec) : State := v.remoteWalk f.owner x.addr (2 ^ x.width)
    let put (v : State) (x : UnitRec) : State := match (walked v x).remoteStore f.owner x with | .ok w => w | .error _ => walked v x
    let performTo (k : Nat) : State := (f.recs.take k).foldl put u
    let failed : List (Nat × Nat) := (List.range f.recs.length).filterMap (fun k => (f.recs[k]?).bind (fun x =>
      match (walked (performTo k) x).remoteStore f.owner x with | .ok _ => none | .error e => some (k, e)))
    let perform (v : State) : State := f.recs.foldl put v;
    let me (i : Inbound) : Bool := decide (i.src = f.src ∧ i.tag = f.tag);
    let i0 : Inbound := (s.inbound.find? me).getD ⟨f.src, f.tag, 0, 0, none⟩
    ((s.port port).trained = true → (s.port port).fenced = false →
      (∀ e ∈ forms, flitOk f = false ∨ f.type ≠ e.2 → exec e.1 s = .next (u.count (0x1440 + 8 * port) 1)) ∧
      (∀ e ∈ forms, flitOk f = true → f.type = e.2 → f.dst ≠ s.devnum →
        exec e.1 s = .next (if s.member f.dst = true then u.emit (s.portOf f.dst) f else u.count (0x1440 + 8 * port) 1)) ∧
      (flitOk f = true → f.dst = s.devnum →
        (f.type = 1 → f.line = true → let w := served u f.addr 128
          (∀ bs, w.remoteLoad f.owner f.addr 128 = .ok bs → exec (.loadRequest port f) s = .next (ans w 2 1 none [] bs)) ∧
          (∀ t sub, w.remoteLoad f.owner f.addr 128 = .error (t, sub) →
            exec (.loadRequest port f) s = .next (ans t 2 0 (some (0, sub)) [] []))) ∧
        (f.type = 1 → f.line = false → ∀ x, f.recs = [x] → let w := served u x.addr (2 ^ x.width)
          (∀ bs, w.remoteLoad f.owner x.addr (2 ^ x.width) = .ok bs → exec (.loadRequest port f) s =
            .next (ans w 2 1 none [⟨x.addr, x.width, BitVec.ofNat 64 (leNat bs)⟩] [])) ∧
          (∀ t sub, w.remoteLoad f.owner x.addr (2 ^ x.width) = .error (t, sub) → exec (.loadRequest port f) s =
            .next (ans t 2 0 (some (0, sub)) [] []))) ∧
        (f.type = 3 → f.line = true → let w := u.remoteWalk f.owner f.addr 128
          (∀ t, w.remoteStoreLine f.owner f.addr f.bytes = .ok t → exec (.store port f) s = .next (ans t 6 1 none [] [])) ∧
          (∀ sub, w.remoteStoreLine f.owner f.addr f.bytes = .error sub →
            exec (.store port f) s = .next (ans w 6 0 (some (0, sub)) [] []))) ∧
        (f.type = 3 → f.line = false → ∀ x, f.recs = [x] → let w := walked u x
          (∀ t, w.remoteStore f.owner x = .ok t → exec (.store port f) s = .next (ans t 6 1 none [] [])) ∧
          (∀ sub, w.remoteStore f.owner x = .error sub → exec (.store port f) s = .next (ans w 6 0 (some (0, sub)) [] []))) ∧
        (f.type = 1 → f.line = false → let n := f.recs.length
          (∀ ds, loads n ds → exec (.loadRequest port f) s = .next (ans (servedTo n) 2 n none (answered n ds) [])) ∧
          (∀ j x ds t sub, f.recs[j]? = some x → loads j ds →
            (servedTo (j + 1)).remoteLoad f.owner x.addr (2 ^ x.width) = .error (t, sub) →
            exec (.loadRequest port f) s = .next (ans t 2 j (some (j, sub)) (answered j ds) [])) ∧
          ∃ v n fail recs, exec (.loadRequest port f) s = .next (ans v 2 n fail recs [])) ∧
        (f.type = 3 → f.line = false →
          exec (.store port f) s = .next (ans (perform u) 6 (f.recs.length - failed.length) failed.head? [] [])) ∧
        (f.type = 4 → (∃ t, exec (.trainUnits port f) s = .next t ∧ (t = { perform u with inbound := t.inbound } ∧ ∃ i : Inbound, i.src = f.src ∧ i.tag = f.tag ∧
          i.got = i0.got + f.recs.length ∧ i.bad = i0.bad + failed.length ∧
          (i0.failAt = none → i.failAt = failed.head?.map (fun e => (f.aux + e.1, e.2))) ∧ i ∈ t.inbound ∧ (∀ j ∈ t.inbound, me j = true → j = i) ∧
          (∀ p sub, i0.failAt = some (p, sub) → i.failAt = some (p, sub))))) ∧
        (f.type = 5 → exec (.trainTail port f) s = .next (ans ({ u with inbound := s.inbound.filter (fun (x : Inbound) => !me x) } : State) 6
          (i0.got - i0.bad) (if i0.got ≠ f.aux % 2 ^ 32 then some (0, 0x06) else i0.failAt) [] [])) ∧
        (∀ r, s.remotes.find? (fun (r : RemoteOp) => decide (r.tag = f.tag) && !r.done) = some r → r.dev = f.src →
          let sub := f.aux / 2 ^ 56 % 256
          let fail := if sub = 0 then none else some (r.got + f.aux / 2 ^ 32 % 2 ^ 24, sub)
          (f.type = 2 → r.load = true → f.line = false → exec (.loadResponse port f) s = .next (ended r { r with
            got := r.got + f.recs.length, fail := fail, done := fail.isSome || decide (r.count ≤ r.got + f.recs.length)
            recs := r.recs ++ f.recs })) ∧
          (f.type = 2 → r.load = true → f.line = true → exec (.loadResponse port f) s = .next (ended r { r with
            got := r.got + 1, fail := fail, done := fail.isSome || decide (r.count ≤ r.got + 1)
            recs := r.recs ++ lineRecs f.addr f.bytes })) ∧
          (f.type = 6 → r.load = false → exec (.acknowledgement port f) s = .next (ended r { r with
            got := r.got + f.aux % 2 ^ 32, fail := fail, done := fail.isSome || decide (r.count ≤ r.got + f.aux % 2 ^ 32) }))) ∧
        (f.type = 7 → u.exchangeRegion f = none → ∃ d, exec (.latticeExchange port f) s = .next (u.dropped d (f.bytes.length / 64))) ∧
        (∀ r, f.type = 7 → u.exchangeRegion f = some r → s.settles r.home = true → f.owner ∈ s.keys → r.vbase ≤ f.addr → f.addr % 64 = 0 →
          f.addr - r.vbase + f.bytes.length ≤ r.pages * 4096 → exec (.latticeExchange port f) s =
            .next ((List.range (f.bytes.length / 64)).foldl (fun (v : State) k => v.joinBlock r r.home
              (if s.ringNext = some f.src then some 6 else none) ((f.addr - r.vbase) / 64 + k) ((f.bytes.drop (64 * k)).take 64)) u)) ∧
        (f.type = 8 → exec (.peerHeartbeat port f) s = .next ((u.setPort port { u.port port with peer := some f.src }).beat (.peer f.src))))) ∧
    ((s.port port).trained = false ∨ (s.port port).fenced = true → ∀ e ∈ forms, e.2 ≠ 8 → exec e.1 s = .next s) ∧
    ((s.port port).trained = true → (s.port port).fenced = true → flitOk f = true → f.type = 8 → exec (.peerHeartbeat port f) s =
      .next (if f.src ∈ s.fleet.deadPeers then s.count 0x14A0 1 else s)) ∧
    (∀ (owner addr n : Nat) c, owner ∈ s.keys → s.remoteCtx owner = some c →
      s.remoteWalk owner addr n = s.reach c n [BitVec.ofNat 64 addr] ∧
      let sub (k : Acc) (a : Nat) : Nat := match s.translate c k a with | .error _ => 0x01 | .ok _ => 0x02
      (∀ e, addr % n = 0 → addr < 2 ^ 57 → s.access c .load false (BitVec.ofNat 64 addr) n 0 = .error e →
        s.remoteLoad owner addr n = .error (s, sub .load addr)) ∧
      ∀ (x : UnitRec) e, x.addr % 2 ^ x.width = 0 → x.addr < 2 ^ 57 →
        s.access c .store false (BitVec.ofNat 64 x.addr) (2 ^ x.width) 0 = .error e → s.remoteStore owner x = .error (sub .store x.addr)) ∧
    (∀ (owner addr n : Nat) c l, let w := s.remoteWalk owner addr n
      owner ∈ w.keys → w.remoteCtx owner = some c → w.access c .load false (BitVec.ofNat 64 addr) n 0 = .ok l →
      s.remoteServe owner addr n = if l.psn = true ∨ w.pointDead l.pa = true then w else w.serveLines owner [l.pa / 128]) ∧
    (∀ (owner addr n : Nat) c l, owner ∈ s.keys → s.remoteCtx owner = some c →
      s.access c .load false (BitVec.ofNat 64 addr) n 0 = .ok l →
      (s.poisoned owner l = false → s.remoteLoad owner addr n = .ok (s.readAt owner [] l.pa n)) ∧
      (s.poisoned owner l = true → s.remoteLoad owner addr n = .error (if l.psn = true then s else s.poisonLine l.pa, 0x04))) ∧
    (∀ (owner : Nat) (x : UnitRec) (addr n : Nat),
      (owner ∉ s.keys → s.remoteStore owner x = .error 0x02 ∧ s.remoteLoad owner addr n = .error (s, 0x02)) ∧
      (owner ∈ s.keys → s.remoteCtx owner = none → s.remoteStore owner x = .error 0x01 ∧ s.remoteLoad owner addr n = .error (s, 0x01)) ∧
      (∀ c l, owner ∈ s.keys → s.remoteCtx owner = some c → s.access c .store false (BitVec.ofNat 64 x.addr) (2 ^ x.width) 0 = .ok l →
        (l.region = none → s.remoteStore owner x = .ok (s.writePhys owner l.pa (natLe (2 ^ x.width) x.data.toNat))) ∧
        (∀ r, l.region = some r → (r.width = 2 ^ x.width →
            s.remoteStore owner x = .ok (s.joinCell owner r (dieOf c.core) l.pa x.data.toNat)) ∧
          (r.width ≠ 2 ^ x.width → r.typ ≠ 5 → s.remoteStore owner x = .error 0x03)))) ∧
    (∀ tag r, s.remotes.find? (fun (r : RemoteOp) => decide (r.tag = tag) && !r.done) = some r → s.lto * 1800 ≤ s.cycle - r.sent →
      exec (.linkTimeout tag) s = .next (({ s with remotes := s.remotes.map (fun (x : RemoteOp) => if x.tag = tag then
        { r with fail := some (r.got, 0x05), done := true } else x) } : State).wakeRemote { r with fail := some (r.got, 0x05), done := true }))

/-- R23, R43, R98, R99, R109, R113, R114, R173: a vector-queue instruction with a register pair that must be even
under every VTYPE and is not takes illegal instruction with sub-cause 0x01; under a VTYPE that breaks R29 sub-cause
0x07; with a misaligned group whose size VTYPE, tag or grant gives 0x01 (that this comes after 0x07, and the group
sizes outside the tables: logs 14, 56); with a register beyond the shape cause 0x11; and with a format, width, port,
tile or VSTART it does not take (logs 23, 56), or as the second half of a pair reached alone, sub-cause 0x05; nothing
else happens. R144, R326, R383, R440 to R444: an access that is misaligned takes 0x03, one beyond 57 bits 0x07; a walk
reads one entry for each level (the first member of a group may serve for all, log 11) and ends, at an entry with V =
0, in the page fault of the access's kind, and at a malformed entry, or a table outside HBM, in 0x07; a leaf that
forbids the access, an unbacked place, or device control space for any but a supervisor's scalar access of 4 or 8
bytes, gives 0x07; a descriptor that fails 0x0B with sub-cause 0x01, an address outside the region 0x02; a store to a
dead coherence point 0x07, an owner without a key 0x14 (log 17). -/
def Obligations.VectorIssueTraps : Prop :=
  (∀ (s : State) (d a c e f : SReg) (vd va vb : VReg) (b : VSrc) (wid : MWidth) (md : VMod) (mo : MOrd) (iop : RedOp) (fop : FRedOp)
    (cc : IntCmp) (fc : FltCmp) (src : SrcFmt) (x y : PairHalf) (nf : BitVec 3) (sp : SparsePat) (aop : VAmoOp) (tb dbl q : Bool)
    (slot : BitVec 6) (fs : FxSrcs) (tf : TileFmt), let t := s.th; let vt := t.vt
    let once := !modP md; let clear := portClear vt && once; let zero := decide (t.vstart = 0)
    let int := decide (vtFmt vt ≤ 1) && clear
    let fmt := decide (2 ≤ vtFmt vt) && decide (vtFmt vt ≤ 5)
    let port := fmt && portOk vt b && xClear md vd.toNat 1 && once
    let flt := fmt && clear && xClear md vd.toNat 1
    let two := vd.toNat :: va.toNat :: srcRegs b; let one := [vd.toNat, va.toNat]; let xs := xRegs md
    let mem := widMatches wid vt && clear
    let rows (pairOk al : Bool) (rs : List Nat) (ok : Bool) (is : List Instr) : List (Instr × Bool × Bool × List Nat × Bool) :=
      is.map (fun i => (i, pairOk, al, rs, ok))
    let row (h : Nat) (other : List Nat) (i : Instr) (lim scales : Nat) (more : Bool) : List (Instr × Bool × Bool × List Nat × Bool) :=
      let tag := (t.tile tb).tag.toNat; let g := t.accRegs h (tagAcc tag).bits
      rows true (decide (vd.toNat % g = 0)) (va.toNat :: other ++ groupRegs vd g) (more && zero && tagFmtOk tag (vtFmt vt) (vtEwc vt) &&
        decide (t.vl ≤ lim) && decide (vtSfmt vt = 0) && (!vtScl vt || decide (6 ≤ tag)) &&
        (!(decide (9 ≤ tag) || vtScl vt) || decide (scales ≤ t.portion * t.lanes * 2))) [i]
    let dims := t.tileDims tb; let tag := (t.tile tb).tag.toNat
    let cvt (narrow : Bool) : List (Instr × Bool × Bool × List Nat × Bool) :=
      let ws := srcBits src; let r := if narrow && decide (t.wd < ws) then ws / t.wd else 1
      rows true (decide (va.toNat % r = 0)) (vd.toNat :: groupRegs va r ++ xs) (cvtOk (srcCode src) (vtFmt vt) && clear &&
        xClear md vd.toNat 1 && (if narrow then decide (t.wd < ws) else decide (ws ≤ t.wd)))
        [if narrow then .vfncvt vd va src md else .vfcvt vd va src md]
    let el (ok : Bool) (i : Instr) : List (Instr × Bool × Bool × List Nat × Bool) :=
      let r := elGroup src vt
      rows true (decide (va.toNat % r = 0)) (vd.toNat :: groupRegs va r) (ok && clear && decide (t.vstart % 8 = 0) && (modX md).isNone) [i]
    let wr := widenRegs (vtFmt vt); let lr := if vtFmt vt = 4 then 2 else 1
    ∀ p ∈ rows true true two int [.vadd vd va b md, .vsub vd va b md, .vrsub vd va b md, .vmul vd va b md, .vmulh vd va b md,
        .vmulhu vd va b md, .vmacc vd va b md, .vnmsac vd va b md, .vdiv vd va b md, .vdivu vd va b md, .vrem vd va b md, .vremu vd va b md,
        .vmin vd va b md, .vmax vd va b md, .vminu vd va b md, .vmaxu vd va b md, .vand vd va b md, .vor vd va b md, .vxor vd va b md,
        .vsll vd va b md, .vsrl vd va b md, .vsra vd va b md, .vsadd vd va b md, .vsaddU vd va b md, .vssub vd va b md, .vssubU vd va b md,
        .vaadd vd va b md, .vaaddU vd va b md, .vsmul vd va b md, .vssrl vd va b md, .vssra vd va b md, .vcmp cc vd va b md] ++
      rows true true one int [.vclz vd va md, .vpopc vd va md] ++
      rows (decide (vd.toNat % 2 = 0)) true ([vd.toNat, vd.toNat + 1] ++ va.toNat :: srcRegs b) (int && decide (vtEwc vt ≤ 2))
        [.vwadd vd va b md, .vwaddU vd va b md, .vwsub vd va b md, .vwsubU vd va b md, .vwmul vd va b md, .vwmulU vd va b md,
         .vwmulSu vd va b md, .vwmacc vd va b md, .vwmaccU vd va b md, .vwmaccSu vd va b md] ++
      rows (decide (va.toNat % 2 = 0)) true (vd.toNat :: [va.toNat, va.toNat + 1] ++ srcRegs b) (int && decide (vtEwc vt ≤ 2))
        [.vnsrl vd va b md, .vnsra vd va b md, .vnclip vd va b md, .vnclipU vd va b md] ++
      rows true true two (int && zero) [.vcmpBrk cc vd va b md] ++
      rows true true [vd.toNat, va.toNat, vb.toNat] clear [.mkAnd vd va vb md, .mkOr vd va vb md, .mkXor vd va vb md, .mkAndn vd va vb md] ++
      rows true true one clear [.mkNot vd va md, .vmv vd va md] ++ rows true true two clear [.vmerge vd va b md] ++
      rows true true [va.toNat] (clear && zero) [.mcount d va md, .mfirst d va md] ++
      rows true true one (clear && zero) [.vrank vd va md, .vslideu vd va a md, .vslided vd va a md, .vtopk vd va a md] ++
      rows true true [vd.toNat] clear [.vindex vd md, .vmvScalar vd a md, .vmvVs vd a md] ++ rows true true [va.toNat] clear [.vmvSv d va md] ++
      rows true true [vd.toNat, va.toNat, vb.toNat] (clear && zero) [.vperm vd va vb md, .vcompr vd va vb md, .vexpd vd va vb md] ++
      rows true true [va.toNat] (int && zero) [.vred iop d va a md] ++ rows true true one (int && zero) [.vscan iop vd va a md] ++
      rows true true (two ++ xs) port [.vfadd vd va b md, .vfsub vd va b md, .vfmul vd va b md, .vfmacc vd va b md, .vfnmacc vd va b md,
        .vfmsac vd va b md, .vfnmsac vd va b md, .vfmin vd va b md, .vfmax vd va b md, .vfcmp fc vd va b md] ++
      rows true true (two ++ xs) flt [.vfdiv vd va b md, .vfsgnj vd va b md, .vfsgnjN vd va b md, .vfsgnjX vd va b md] ++
      rows true true (one ++ xs) flt [.vfsqrt vd va md, .vfrsqe vd va md, .vfrece vd va md, .vfexp2 vd va md, .vfclass vd va md] ++
      cvt false ++ cvt true ++
      rows true (decide (vd.toNat % wr = 0)) (groupRegs vd wr ++ va.toNat :: srcRegs b ++ xs) (decide (3 ≤ vtFmt vt) && decide (vtFmt vt ≤ 7) &&
        portOk vt b && xClear md vd.toNat wr && once) [.vfwadd vd va b md, .vfwmul vd va b md, .vfwmacc vd va b md] ++
      rows true true (va.toNat :: xs) (fmt && clear && zero) [.vfred fop d va a md, .vfredoSum d va a md] ++
      rows true true (one ++ xs) (flt && zero) [.vfscan fop vd va a md] ++
      rows true (decide (vd.toNat % lr = 0)) (groupRegs vd lr ++ [va.toNat, va.toNat + 1] ++ xs) (decide (vtFmt vt = 3 ∨ vtFmt vt = 4) &&
        clear && zero && xClear md vd.toNat lr) [.vlrec vd va a md] ++
      el (isEl (vtFmt vt) && decide (2 ≤ srcCode src) && decide (srcCode src ≤ 5)) (.vlq vd va src md) ++
      el (isEl (vtFmt vt) && isEl (srcCode src)) (.vlrq vd va src md) ++ el (fmt && isEl (srcCode src)) (.vlx vd va src md) ++
      rows true true (halfRegs x ++ halfRegs y) (s.halfOk x firstMod && s.halfOk y (secondMod y.x) && xClear (secondMod y.x) x.vd.toNat 1)
        [.pair x y] ++
      rows true true [vd.toNat] mem [.vld vd a wid md mo, .vlds vd a c wid md mo, .vst vd a wid md mo, .vsts vd a c wid md mo,
        .vstj vd a wid md mo] ++
      rows true true [vd.toNat, vb.toNat] mem [.vldx vd a vb wid md mo, .vstx vd a vb wid md mo, .vstjIndexed vd a vb wid md mo] ++
      rows true true (segRegs vd (nf.toNat + 1)) (segMatches wid vt && clear) [.vlseg vd a nf wid md mo, .vsseg vd a nf wid md mo] ++
      rows true true [vd.toNat] (sparseOk sp vt && clear) [.vldsl vd a sp md mo] ++
      rows true true [vd.toNat] (sparseOk sp vt && clear && decide (t.vstart % (sparseOf sp).dense = 0)) [.vstp vd a c sp md mo] ++
      rows true true [vd.toNat] (mem && decide (vtFmt vt ≤ 7)) [.vstc vd a c wid md mo] ++
      rows true true [vd.toNat, vb.toNat] (int && decide (t.ew = if dbl then 64 else 32)) [.vamo aop dbl vd a vb md mo] ++
      rows true true [vd.toNat, vb.toNat] (mem && zero) [.vstxr vd a vb wid md mo] ++
      row dims.n [] (.mxr vd va tb) dims.k ((t.vl + 31) / 32 * dims.n) true ++
      row dims.n [vb.toNat] (.mxri vd va vb tb) dims.k (dims.k / 32 * dims.n) (decide (tag ≠ 2 ∧ tag ≠ 3 ∧ tag ≠ 8)) ++
      row dims.k [] (.mxrt vd va tb) dims.n (dims.k / 32 * dims.n) true ++
      rows true true [va.toNat, vd.toNat] (portClear vt) [.fx vd va slot] ++ rows true true [va.toNat, vb.toNat, vd.toNat] (portClear vt) [.fxTwo vd va vb slot] ++
      rows true true ((fxSources fs).map (fun v => v.toNat) ++ [vd.toNat]) (portClear vt) [.fxLong vd slot fs a c] ++
      rows true true [vd.toNat] (portClear vt) [.vsendNx vd, .vsendPv vd, .vrecvNx vd, .vrecvPv vd] ++
      rows true true [] true [.tld tb a c tf, .twait tb, .tzero tb, .fbind slot a, .funbind slot, .fload d a, .fdrop a, .fshadow slot a,
        .fquery d slot a, .stj a c q dbl, .ltw d a c q dbl, .ltwn d a c q dbl, .wait, .waitY, .cbar, .await d a, .aquery d a, .launch d a,
        .exit, .acopy d a c e, .acopy2d d a c e f a c],
      (p.2.1 = false → Traps p.1 s (.illegal 0x01)) ∧
      (p.2.1 = true → vtypeLegal vt = false → Traps p.1 s (.illegal 0x07)) ∧
      (vtypeLegal vt = true → p.2.1 = true → p.2.2.1 = false → Traps p.1 s (.illegal 0x01)) ∧
      (vtypeLegal vt = true → p.2.1 = true → p.2.2.1 = true → (∃ r ∈ p.2.2.2.1, t.nreg ≤ r) → Traps p.1 s { cause := 0x11 }) ∧
      (vtypeLegal vt = true → p.2.1 = true → p.2.2.1 = true → (∀ r ∈ p.2.2.2.1, r < t.nreg) → p.2.2.2.2 = false →
        Traps p.1 s (.illegal 0x05))) ∧
  (∀ (s : State) (c : Ctx) (k : Acc) (ctl : Bool) (va : Word) (al elem : Nat),
    let stops (cause sub : BitVec 8) (e : Nat) : Prop := s.access c k ctl va al elem = .error
      { cause := cause, sub := sub, eval := va, elem := e, kind := match k with | .load => 0 | .fetch => 2 | _ => 1 }
    let bit (v n : Nat) : Prop := v / 2 ^ n % 2 = 1
    let held := s.cached c.tlb c va.toNat = none ∧ s.cached (dieTlb (dieOf c.core)) c va.toNat = none
    (va.toNat % al ≠ 0 → stops 0x03 0 elem) ∧
    (va.toNat % al = 0 → 2 ^ 57 ≤ va.toNat → stops 0x07 0 elem) ∧
    (va.toNat % al = 0 → va.toNat < 2 ^ 57 →
      (held → s.walk c.ptbase va.toNat = .error .invalid →
        stops (match k with | .load => 0x04 | .fetch => 0x06 | _ => 0x05) 0 elem) ∧
      (held → s.walk c.ptbase va.toNat = .error .malformed → stops 0x07 0 elem) ∧
      (held → s.lookup c va.toNat = s.walk c.ptbase va.toNat) ∧
      ∀ x : Xlat, s.lookup c va.toNat = .ok x →
        let ends (l : Loc) : Prop :=
          let allowed : Prop := (c.priv = true ∨ bit x.leaf 5) ∧ (match k with
            | .load => bit x.leaf 2 | .store => bit x.leaf 3 ∧ bit x.leaf 2 ∧ ¬ bit x.leaf 8 | .atomic => bit x.leaf 3 ∧ bit x.leaf 2
            | .fetch => bit x.leaf 4 ∧ ¬ bit x.leaf 7)
          let reach : Prop := paKind l.pa ≠ .unbacked ∧ (paKind l.pa = .ctl → ctl = true) ∧
            (k = .store → paKind l.pa ≠ .ctl → s.pointDead l.pa = false)
          (¬ (allowed ∧ reach) → stops 0x07 0 elem) ∧ (allowed → reach → c.owner ∉ s.keys → stops 0x14 0 elem) ∧
          (allowed → reach → c.owner ∈ s.keys → s.access c k ctl va al elem = .ok l)
        (¬ bit x.leaf 7 → ends ⟨x.base + va.toNat % 2 ^ x.size, none, decide (bit x.leaf 8)⟩) ∧
        (bit x.leaf 7 → (s.descriptorFor va.toNat c.lrtbase (bitsOf x.leaf 52 12) (dieOf c.core) = none → stops 0x0B 0x01 0) ∧
          ∀ r, s.descriptorFor va.toNat c.lrtbase (bitsOf x.leaf 52 12) (dieOf c.core) = some r →
            (va.toNat < r.vbase ∨ r.vbase + r.pages * 4096 ≤ va.toNat → stops 0x0B 0x02 0) ∧
            (r.vbase ≤ va.toNat → va.toNat < r.vbase + r.pages * 4096 → ends ⟨r.rb + (va.toNat - r.vbase), some r, decide (bit x.leaf 8)⟩)))) ∧
  (∀ (s : State) (va table level : Nat) (ls : List Nat), let i := bitsOf va (12 + 9 * level) 9; let e := s.rawNat (table + 8 * i) 8
    let w := s.walkFrom va (level :: ls) table
    (∀ p, s.walk p va = s.walkFrom va [4, 3, 2, 1, 0] p) ∧
    (paKind table ≠ .hbm → w = .error .malformed) ∧
    (paKind table = .hbm → s.groupXlat level i (table + 8 * i) = none →
      (e % 2 = 0 → w = .error .invalid) ∧
      (e % 4 = 3 → level ≠ 0 → e / 4 % 2 ^ 10 = 0 → e / 2 ^ 52 % 2 ^ 12 = 0 → w = s.walkFrom va ls (frameOf e)) ∧
      (e % 4 = 3 → level = 0 ∨ e / 4 % 2 ^ 10 ≠ 0 ∨ e / 2 ^ 52 % 2 ^ 12 ≠ 0 → w = .error .malformed) ∧
      (e % 4 = 1 → let ok := leafOk e level (if bitsOf e 9 2 = 0 then 0 else i % groupSize level)
        (3 ≤ level ∨ ok = false → w = .error .malformed) ∧
        (level < 3 → ok = true → w = .ok ⟨frameOf e, if level = 0 then 12 else if level = 1 then 21 else 30, e⟩))) ∧
    (∀ n, s.ctlAllowed n = true ↔ s.th.priv = true ∧ (n = 4 ∨ n = 8)))

/-- R78, R109, R112, R113: when the words at the pc decode to instruction i (one word, a prefix and its base word, or
a pair), the fetch gives i (that the word after one that can lead a pair is fetched with it: log 49); a word the
decoder refuses gives illegal instruction with its sub-cause, and a failing fetch its own trap. Two halves that make
no pair, or a pair with a third half behind it (log 47), and that pass their own checks take sub-cause 0x05. A step in
which the seat in focus has the turn, runs and is not being stopped, and nothing holds its issue (R305, R330, R489),
is, on the state in which time has passed, the lines of its words are fetched (R331), and the instruction has issued
(its queue entry is made; older tile loads have read where it accesses memory), exec of what is fetched, or the entry
of the fetch's trap; where it stopped at a unit k, younger instructions may have written lanes (R449). One without a
queue entry, or that waits for older vector work (R26, R33, R275), waits, and what frees one goes on. R307: scalar
instructions run ahead of a waiting one, what they did showing once it completes (log 3). Which agent moves is the
model's schedule (log 5): a scheduled event of the table is exec of that event (younger instructions may have chained
on an fx that faults), one that a stopped device does not know is skipped, a part of a copy is made, a seat without a
turn to take idles, a waiting one has the event it waits for. A stopped device runs nothing but what ends that. -/
def Obligations.StepRunsDecodedInstruction : Prop :=
  ∀ (s : State), let runs (u : State) : Prop := u.th.run = .running ∧ u.stopDone u.cur = false ∧ u.issueHeld = false
    let merged (u : State) : State := u.mergeSeat u.cur
    let performs (m : State) : Prop := let u := m.fetchLines
      (∀ i, u.fetch = .run i → u.mustWait i = false →
        step s = match exec i (u.issue i) with | .next t => .next (u.chainWrites i t) | o => o) ∧
      (∀ i, u.fetch = .run i → u.mustWait i = true → (∀ e, u.freeing.find? u.enabled = some e → step s = exec e u) ∧
        (u.freeing.find? u.enabled = none → step s = .next u)) ∧
      (∀ x, u.fetch = .trap x → step s = .next (u.takeTrap x)) ∧
      (∀ a b, u.fetch = .badPair a b → step s = .next (u.takeTrap (u.pairTrap a b)))
    let occurs (u : State) (i : Instr) : Prop :=
      ((∀ n a b, i ≠ .nodeFire n a b) → step s = exec i u) ∧
      (∀ n a b t, i = .nodeFire n a b → exec i u = .next t → (∀ f, (u.focus n).fetch = .run f →
          step s = .next (((u.focus n).chainWrites f (t.focus n)).focus t.cur)) ∧
        ((∀ f, (u.focus n).fetch ≠ .run f) → step s = .next t))
    let ends (k : Nat) : Prop := match s.wordAt k with | .ok p => isPairPrefix p = false | .error _ => True
    let alone (i : Instr) (k : Nat) : Prop := match s.wordAt k with | .ok p => isPairPrefix p = false | .error _ => leadsPair i = false;
    (s.sched = [] → runs (merged s.tick) → performs (merged s.tick)) ∧
    (∀ n rest, s.sched = .seat n :: rest → let u := merged (({ s.tick with sched := rest } : State).focus n)
      (runs u → performs u) ∧ (u.stopDone u.cur = true → step s = .next (u.finishStop u.cur)) ∧
      (u.stopDone u.cur = false →
        (u.th.run = .running → u.issueHeld = true → step s = .next u) ∧
        ((u.th.run = .free ∨ u.th.run = .halted ∨ u.th.run = .dead ∨ u.th.run = .parked) → step s = .next u) ∧
        ∀ k, u.th.run = .waiting k → (∀ e, u.waitEvent u.cur k = some e → occurs u e) ∧ (u.waitEvent u.cur k = none → step s = .next u))) ∧
    (∀ i rest, s.sched = .event i :: rest → i.isEvent = true → (s.stopped = true → worksStopped i = true) →
      occurs { s.tick with sched := rest } i) ∧
    (∀ i rest, s.sched = .event i :: rest → i.isEvent = false ∨ (s.stopped = true ∧ worksStopped i = false) →
      step s = .next { s.tick with sched := rest }) ∧
    (∀ n rest, s.sched = .ahead n :: rest → step s = .next (({ s.tick with sched := rest } : State).runAhead n)) ∧
    (∀ k i, let a := s.th.ahead.getD (s.th.aheadStart i); let u := (s.onAhead a).fetchLines; let t := s.aheadStep k i
      (t.th.pc = s.th.pc ∧ t.th.s = s.th.s ∧ t.th.f = s.th.f ∧ t.th.csr = s.th.csr ∧ t.th.run = s.th.run) ∧
      ∀ j v, u.fetch = .run j → u.mustWait j = false → u.mayPass k j = true → a.dst = none →
        (((encode j).getLast?).bind u.scalarSpan) = none → exec j (u.issue j) = .next v → ranAhead j u v = true → v.th.lsq = u.th.lsq →
        ∃ b, t.th.ahead = some b ∧ b.pc = v.th.pc ∧ b.s = v.th.s ∧ b.f = v.th.f ∧ b.count = a.count + 1) ∧
    (∀ a, s.th.ahead = some a → let m := merged s
      ((s.th.run ≠ .running ∨ s.th.pc ≠ a.start) → m = s) ∧
      (s.th.run = .running → s.th.pc = a.start → m.th.pc = a.pc ∧ m.th.f = a.f ∧ m.th.lsq = s.th.lsq ++ a.lsq ∧ m.th.ahead = none ∧
        (a.dst = none → m.th.s = a.s) ∧ (∀ d, a.dst = some d → m.th.x d = s.th.x d))) ∧
    (∀ (a d : SReg) sc ks q (n : BitVec 12), n.toNat ∈ [0, 1, 2, 3, 4, 6, 8, 9, 0xB, 0x10, 0x11, 0x12, 0x13, 0x14, 0x15] →
      ∀ i ∈ ([.fence sc ks, .fencei, .halt, .exit, .ctxsv a, .ctxld a, .vshape q, .xrd d n, .xwr n a, .xset d n a, .xclr d n a] : List Instr),
      (∃ e ∈ s.th.vq, e.held = false) → s.mustWait i = true) ∧
    (∀ n h off k wr rest, s.sched = .part n h off k wr :: rest → let u : State := { s.tick with sched := rest }
      step s = .next (if u.stopped = true then u else u.copyPart n h off k wr)) ∧
    (s.sched = [] → s.start.state = 3 ∨ s.start.tripped = true → step s = .fault .deviceStopped) ∧
    (∀ i, let v := s.issue i
      (accessesMemory i = false → v = s.withTh { s.th with vq := v.th.vq }) ∧
      (accessesMemory i = true → v = (s.withTh { s.th with vq := (s.th.enterVq i).vq }).readTiles s.cur)) ∧
    (∀ i t, let v := s.chainWrites i t
      v = { t with th := { t.th with slices := v.th.slices, vvalid := v.th.vvalid } } ∧ (t.th.vstart = 0 → v = t)) ∧
    (∀ w0 i, s.wordAt 0 = .ok w0 → wMajor w0 ≠ 0x3E → alone i 4 → decodeWords [w0] = .ok i → s.fetch = .run i) ∧
    (∀ w0 w1 i, s.wordAt 0 = .ok w0 → wMajor w0 = 0x3E → s.wordAt 4 = .ok w1 → alone i 8 →
      decodeWords [w0, w1] = .ok i → s.fetch = .run i) ∧
    (∀ w0 p w1 i, s.wordAt 0 = .ok w0 → wMajor w0 ≠ 0x3E → s.wordAt 4 = .ok p → isPairPrefix p = true → s.wordAt 8 = .ok w1 →
      decodeWords [w0, p, w1] = .ok i → (ends 12 → s.fetch = .run i) ∧
      (∀ q b j, s.wordAt 12 = .ok q → isPairPrefix q = true → s.wordAt 16 = .ok b → decodeWords [q, b] = .ok j → s.fetch = .badPair i j)) ∧
    (∀ w0 e, s.wordAt 0 = .ok w0 → wMajor w0 ≠ 0x3E → decodeWords [w0] = .error e → s.fetch = .trap (.illegal e.sub)) ∧
    (∀ w0 p w1 i j, s.wordAt 0 = .ok w0 → wMajor w0 ≠ 0x3E → decodeWords [w0] = .ok i → s.wordAt 4 = .ok p → isPairPrefix p = true →
      s.wordAt 8 = .ok w1 → decodeWords [w0, p, w1] = .error .pair → decodeWords [p, w1] = .ok j → s.fetch = .badPair i j) ∧
    (∀ w0 w1 p b i j, s.wordAt 0 = .ok w0 → wMajor w0 = 0x3E → s.wordAt 4 = .ok w1 → decodeWords [w0, w1] = .ok i → s.wordAt 8 = .ok p →
      isPairPrefix p = true → s.wordAt 12 = .ok b → decodeWords [w0, w1, p, b] = .error .pair → decodeWords [p, b] = .ok j →
      s.fetch = .badPair i j) ∧
    (∀ a b, (∀ t, exec a s = .next t → ∀ x ∈ orderedTraps, t ≠ s.takeTrap x) → (∀ t, exec b s = .next t → ∀ x ∈ orderedTraps, t ≠ s.takeTrap x) →
      s.pairTrap a b = .illegal 0x05) ∧
    (∀ x, s.wordAt 0 = .error x → s.fetch = .trap x)

/-- R79, R83 to R93, R109, R111: the worked encodings of 03_encoding.md (addi s5, s6, -3; the pair vfadd.m ||
vfsub.mn; fx v6, 5, v2, v3, len s10), nop, and one word of further formats, written bit by bit from the tables, decode
to their instructions; the all-zeros and the all-ones word are refused as reserved majors. -/
def Obligations.DecodeWords : Prop :=
  decodeWords [0x0851BFFD] = .ok (.addi 5 6 (-3)) ∧ decodeWords [0x04000000] = .ok (.add 0 0 0) ∧
  decodeWords [0x80424880, 0xF8000103, 0x80428881] =
    .ok (.pair ⟨.flt .add, 4, 8, .reg 9, none⟩ ⟨.flt .sub, 4, 8, .reg 10, none⟩) ∧
  decodeWords [0xF8028301, 0xC060C205] = .ok (.fxLong 6 5 (.two 2 3) 10 0) ∧
  decodeWords [0#6 ++ 0#26] = .error .major ∧ decodeWords [0xFFFFFFFF] = .error .major ∧
  decodeWords [0x08#6 ++ 0#1 ++ 3#5 ++ 1#1 ++ 4#5 ++ 0x3FFE#14] = .ok (.bne 3 4 0x3FFE) ∧
  decodeWords [0x0C#6 ++ 7#6 ++ 8#6 ++ 3#3 ++ 1#1 ++ 0x3FF#10] = .ok (.ldD 7 8 true 0x3FF) ∧
  decodeWords [0x15#6 ++ 9#6 ++ 10#6 ++ 0x105#12 ++ 2#2] = .ok (.xset 9 0x105 10) ∧
  decodeWords [0x18#6 ++ 5#6 ++ 6#6 ++ 7#6 ++ 1#1 ++ 1#1 ++ 0x01#6] = .ok (.vsub 5 7 (.scalar 6) ⟨true, none⟩)

/-- R78 to R112: for every instruction of the opcode table whose operands are within what its encoding admits, the
words the encoder lays out from the encoding tables are read by the decoder as that instruction, with every operand,
modifier and prefix. -/
def Obligations.DecodeEncode : Prop :=
  ∀ i : Instr, i.wf = true → i.isEvent = false → decodeWords (encode i) = .ok i

/-- The representation of memory (log 2): from every state whose memory is a canonical list (addresses strictly
rising, no entry equal to what an unlisted address reads as), every step that answers a next state leaves a canonical
list, whichever agent moves and whatever instruction, trap or event it is. -/
def Obligations.StepKeepsMemoryCanonical : Prop :=
  ∀ s t : State, MemoryWf s → step s = .next t → MemoryWf t

/-- R15, R31, R34, R35, R44, R484: at release the firmware runs with STATUS.PRIV = 1 on seat 7 of the first core of
each die, every other seat is free; scalar and f registers hold zero, no vector register is valid, both tile registers
hold zero and no load is pending, the slot-table cache is empty; no queue, fault queue or function is enabled, PFOWN
is 0, one key is held, VSPCFG is 0, every tile clock is at 1.0 GHz (code 10) and no agent is fenced; memory is
canonical. That the registers whose reset value the spec gives per launch hold them here too, and that the focus is on
core 0, is the model's choice (log 1, log 5). -/
def Obligations.ResetState : Prop :=
  MemoryWf State.reset ∧ State.reset.start.state = 2 ∧
  (∀ d < 6, (State.reset.seat (256 * d + 7)).run = .running ∧ (State.reset.seat (256 * d + 7)).priv = true) ∧
  (∀ n < 1536, n % 256 ≠ 7 → (State.reset.seat n).run = .free) ∧
  (∀ n < 1536, let t := State.reset.seat n
    (∀ r, t.x r = 0 ∧ t.fr r = 0) ∧ t.vvalid = 0 ∧ t.tb0 = Tile.reset ∧ t.tb1 = Tile.reset ∧ t.slotValid = 0 ∧ t.get .vl = 0 ∧
    t.get .vtype = 0 ∧ t.get .vstart = 0 ∧ t.get .grant = 0 ∧ t.get .fflags = 0 ∧ t.get .retired = 0) ∧
  (∀ q < 64, (State.reset.queue q).en = false) ∧ (∀ f < 17, (State.reset.fq f).en = false) ∧ State.reset.vfs = [] ∧
  State.reset.pfown = 0 ∧ State.reset.keys = [0] ∧ State.reset.lines = [] ∧ State.reset.slice = [] ∧ State.reset.loads = [] ∧ State.reset.fetches = [] ∧ State.reset.rounds = [] ∧ State.reset.aer = [] ∧ State.reset.tlb = [] ∧ State.reset.descs = [] ∧
  (∀ c < 192, (State.reset.core c).vspcfg = 0 ∧ ∀ i : Fin 8, (State.reset.core c).tclk[i] = 10) ∧
  State.reset.fleet.deadCores = [] ∧ State.reset.fleet.deadDies = [] ∧ State.reset.fleet.deadPeers = []
end

