-- ==== Sys2Proof/Laws/Decode.lean ====
section
/-! SUPPORT. The fields of the words the encoder builds, format by format (spec/03_encoding.md R79): what the decoder reads from
each place. -/

namespace Sys2Proof

/-- Concatenation as a number. -/
theorem toNat_append_add {n m : Nat} (x : BitVec n) (y : BitVec m) : (x ++ y).toNat = x.toNat * 2 ^ m + y.toNat := by
  rw [BitVec.toNat_append, Nat.shiftLeft_eq, Nat.mul_comm, ← Nat.two_pow_add_eq_or_of_lt y.isLt, Nat.mul_comm]

@[simp] theorem wMajor_encR (mj d a b : BitVec 6) (fn : BitVec 8) : wMajor (encR mj d a b fn) = mj := by
  apply BitVec.eq_of_toNat_eq
  have := BitVec.isLt fn; have := BitVec.isLt b; have := BitVec.isLt a; have := BitVec.isLt d; have := BitVec.isLt mj
  simp only [wMajor, encR, BitVec.extractLsb'_toNat, toNat_append_add, Nat.shiftRight_eq_div_pow]
  omega

@[simp] theorem wD_encR (mj d a b : BitVec 6) (fn : BitVec 8) : wD (encR mj d a b fn) = d := by
  apply BitVec.eq_of_toNat_eq
  have := BitVec.isLt fn; have := BitVec.isLt b; have := BitVec.isLt a; have := BitVec.isLt d; have := BitVec.isLt mj
  simp only [wD, encR, BitVec.extractLsb'_toNat, toNat_append_add, Nat.shiftRight_eq_div_pow]
  omega

@[simp] theorem wA_encR (mj d a b : BitVec 6) (fn : BitVec 8) : wA (encR mj d a b fn) = a := by
  apply BitVec.eq_of_toNat_eq
  have := BitVec.isLt fn; have := BitVec.isLt b; have := BitVec.isLt a; have := BitVec.isLt d; have := BitVec.isLt mj
  simp only [wA, encR, BitVec.extractLsb'_toNat, toNat_append_add, Nat.shiftRight_eq_div_pow]
  omega

@[simp] theorem wB_encR (mj d a b : BitVec 6) (fn : BitVec 8) : wB (encR mj d a b fn) = b := by
  apply BitVec.eq_of_toNat_eq
  have := BitVec.isLt fn; have := BitVec.isLt b; have := BitVec.isLt a; have := BitVec.isLt d; have := BitVec.isLt mj
  simp only [wB, encR, BitVec.extractLsb'_toNat, toNat_append_add, Nat.shiftRight_eq_div_pow]
  omega

@[simp] theorem field0_encR (mj d a b : BitVec 6) (fn : BitVec 8) : (encR mj d a b fn).extractLsb' 0 8 = fn := by
  apply BitVec.eq_of_toNat_eq
  have := BitVec.isLt fn; have := BitVec.isLt b; have := BitVec.isLt a; have := BitVec.isLt d; have := BitVec.isLt mj
  simp only [encR, BitVec.extractLsb'_toNat, toNat_append_add, Nat.shiftRight_eq_div_pow]
  omega

@[simp] theorem wMajor_encI (mj d a : BitVec 6) (imm : BitVec 14) : wMajor (encI mj d a imm) = mj := by
  apply BitVec.eq_of_toNat_eq
  have := BitVec.isLt imm; have := BitVec.isLt a; have := BitVec.isLt d; have := BitVec.isLt mj
  simp only [wMajor, encI, BitVec.extractLsb'_toNat, toNat_append_add, Nat.shiftRight_eq_div_pow]
  omega

@[simp] theorem wD_encI (mj d a : BitVec 6) (imm : BitVec 14) : wD (encI mj d a imm) = d := by
  apply BitVec.eq_of_toNat_eq
  have := BitVec.isLt imm; have := BitVec.isLt a; have := BitVec.isLt d; have := BitVec.isLt mj
  simp only [wD, encI, BitVec.extractLsb'_toNat, toNat_append_add, Nat.shiftRight_eq_div_pow]
  omega

@[simp] theorem wA_encI (mj d a : BitVec 6) (imm : BitVec 14) : wA (encI mj d a imm) = a := by
  apply BitVec.eq_of_toNat_eq
  have := BitVec.isLt imm; have := BitVec.isLt a; have := BitVec.isLt d; have := BitVec.isLt mj
  simp only [wA, encI, BitVec.extractLsb'_toNat, toNat_append_add, Nat.shiftRight_eq_div_pow]
  omega

@[simp] theorem field0_encI (mj d a : BitVec 6) (imm : BitVec 14) : (encI mj d a imm).extractLsb' 0 14 = imm := by
  apply BitVec.eq_of_toNat_eq
  have := BitVec.isLt imm; have := BitVec.isLt a; have := BitVec.isLt d; have := BitVec.isLt mj
  simp only [encI, BitVec.extractLsb'_toNat, toNat_append_add, Nat.shiftRight_eq_div_pow]
  omega

@[simp] theorem wMajor_encU (mj d : BitVec 6) (imm : BitVec 20) : wMajor (encU mj d imm) = mj := by
  apply BitVec.eq_of_toNat_eq
  have := BitVec.isLt imm; have := BitVec.isLt d; have := BitVec.isLt mj
  simp only [wMajor, encU, BitVec.extractLsb'_toNat, toNat_append_add, Nat.shiftRight_eq_div_pow]
  omega

@[simp] theorem wD_encU (mj d : BitVec 6) (imm : BitVec 20) : wD (encU mj d imm) = d := by
  apply BitVec.eq_of_toNat_eq
  have := BitVec.isLt imm; have := BitVec.isLt d; have := BitVec.isLt mj
  simp only [wD, encU, BitVec.extractLsb'_toNat, toNat_append_add, Nat.shiftRight_eq_div_pow]
  omega

@[simp] theorem field0_encU (mj d : BitVec 6) (imm : BitVec 20) : (encU mj d imm).extractLsb' 0 20 = imm := by
  apply BitVec.eq_of_toNat_eq
  have := BitVec.isLt imm; have := BitVec.isLt d; have := BitVec.isLt mj
  simp only [encU, BitVec.extractLsb'_toNat, toNat_append_add, Nat.shiftRight_eq_div_pow]
  omega

@[simp] theorem wMajor_encB (mj : BitVec 6) (c1 c0 : BitVec 1) (a b : SReg) (off : BitVec 14) : wMajor (encB mj c1 c0 a b off) = mj := by
  apply BitVec.eq_of_toNat_eq
  have := BitVec.isLt off; have := BitVec.isLt b; have := BitVec.isLt c0; have := BitVec.isLt a; have := BitVec.isLt c1; have := BitVec.isLt mj
  simp only [wMajor, encB, BitVec.extractLsb'_toNat, toNat_append_add, Nat.shiftRight_eq_div_pow]
  omega

@[simp] theorem field0_encB (mj : BitVec 6) (c1 c0 : BitVec 1) (a b : SReg) (off : BitVec 14) : (encB mj c1 c0 a b off).extractLsb' 0 14 = off := by
  apply BitVec.eq_of_toNat_eq
  have := BitVec.isLt off; have := BitVec.isLt b; have := BitVec.isLt c0; have := BitVec.isLt a; have := BitVec.isLt c1; have := BitVec.isLt mj
  simp only [encB, BitVec.extractLsb'_toNat, toNat_append_add, Nat.shiftRight_eq_div_pow]
  omega

@[simp] theorem field14_encB (mj : BitVec 6) (c1 c0 : BitVec 1) (a b : SReg) (off : BitVec 14) : (encB mj c1 c0 a b off).extractLsb' 14 5 = b := by
  apply BitVec.eq_of_toNat_eq
  have := BitVec.isLt off; have := BitVec.isLt b; have := BitVec.isLt c0; have := BitVec.isLt a; have := BitVec.isLt c1; have := BitVec.isLt mj
  simp only [encB, BitVec.extractLsb'_toNat, toNat_append_add, Nat.shiftRight_eq_div_pow]
  omega

@[simp] theorem field19_encB (mj : BitVec 6) (c1 c0 : BitVec 1) (a b : SReg) (off : BitVec 14) : (encB mj c1 c0 a b off).extractLsb' 19 1 = c0 := by
  apply BitVec.eq_of_toNat_eq
  have := BitVec.isLt off; have := BitVec.isLt b; have := BitVec.isLt c0; have := BitVec.isLt a; have := BitVec.isLt c1; have := BitVec.isLt mj
  simp only [encB, BitVec.extractLsb'_toNat, toNat_append_add, Nat.shiftRight_eq_div_pow]
  omega

@[simp] theorem field20_encB (mj : BitVec 6) (c1 c0 : BitVec 1) (a b : SReg) (off : BitVec 14) : (encB mj c1 c0 a b off).extractLsb' 20 5 = a := by
  apply BitVec.eq_of_toNat_eq
  have := BitVec.isLt off; have := BitVec.isLt b; have := BitVec.isLt c0; have := BitVec.isLt a; have := BitVec.isLt c1; have := BitVec.isLt mj
  simp only [encB, BitVec.extractLsb'_toNat, toNat_append_add, Nat.shiftRight_eq_div_pow]
  omega

@[simp] theorem field25_encB (mj : BitVec 6) (c1 c0 : BitVec 1) (a b : SReg) (off : BitVec 14) : (encB mj c1 c0 a b off).extractLsb' 25 1 = c1 := by
  apply BitVec.eq_of_toNat_eq
  have := BitVec.isLt off; have := BitVec.isLt b; have := BitVec.isLt c0; have := BitVec.isLt a; have := BitVec.isLt c1; have := BitVec.isLt mj
  simp only [encB, BitVec.extractLsb'_toNat, toNat_append_add, Nat.shiftRight_eq_div_pow]
  omega

@[simp] theorem wMajor_encS (mj d a : BitVec 6) (w : BitVec 3) (o : Bool) (imm : BitVec 10) : wMajor (encS mj d a w o imm) = mj := by
  apply BitVec.eq_of_toNat_eq
  have := BitVec.isLt imm; have := BitVec.isLt (e1 o); have := BitVec.isLt w; have := BitVec.isLt a; have := BitVec.isLt d; have := BitVec.isLt mj
  simp only [wMajor, encS, BitVec.extractLsb'_toNat, toNat_append_add, Nat.shiftRight_eq_div_pow]
  omega

@[simp] theorem wD_encS (mj d a : BitVec 6) (w : BitVec 3) (o : Bool) (imm : BitVec 10) : wD (encS mj d a w o imm) = d := by
  apply BitVec.eq_of_toNat_eq
  have := BitVec.isLt imm; have := BitVec.isLt (e1 o); have := BitVec.isLt w; have := BitVec.isLt a; have := BitVec.isLt d; have := BitVec.isLt mj
  simp only [wD, encS, BitVec.extractLsb'_toNat, toNat_append_add, Nat.shiftRight_eq_div_pow]
  omega

@[simp] theorem wA_encS (mj d a : BitVec 6) (w : BitVec 3) (o : Bool) (imm : BitVec 10) : wA (encS mj d a w o imm) = a := by
  apply BitVec.eq_of_toNat_eq
  have := BitVec.isLt imm; have := BitVec.isLt (e1 o); have := BitVec.isLt w; have := BitVec.isLt a; have := BitVec.isLt d; have := BitVec.isLt mj
  simp only [wA, encS, BitVec.extractLsb'_toNat, toNat_append_add, Nat.shiftRight_eq_div_pow]
  omega

@[simp] theorem field0_encS (mj d a : BitVec 6) (w : BitVec 3) (o : Bool) (imm : BitVec 10) : (encS mj d a w o imm).extractLsb' 0 10 = imm := by
  apply BitVec.eq_of_toNat_eq
  have := BitVec.isLt imm; have := BitVec.isLt (e1 o); have := BitVec.isLt w; have := BitVec.isLt a; have := BitVec.isLt d; have := BitVec.isLt mj
  simp only [encS, BitVec.extractLsb'_toNat, toNat_append_add, Nat.shiftRight_eq_div_pow]
  omega

@[simp] theorem field10_encS (mj d a : BitVec 6) (w : BitVec 3) (o : Bool) (imm : BitVec 10) : (encS mj d a w o imm).extractLsb' 10 1 = (e1 o) := by
  apply BitVec.eq_of_toNat_eq
  have := BitVec.isLt imm; have := BitVec.isLt (e1 o); have := BitVec.isLt w; have := BitVec.isLt a; have := BitVec.isLt d; have := BitVec.isLt mj
  simp only [encS, BitVec.extractLsb'_toNat, toNat_append_add, Nat.shiftRight_eq_div_pow]
  omega

@[simp] theorem field11_encS (mj d a : BitVec 6) (w : BitVec 3) (o : Bool) (imm : BitVec 10) : (encS mj d a w o imm).extractLsb' 11 3 = w := by
  apply BitVec.eq_of_toNat_eq
  have := BitVec.isLt imm; have := BitVec.isLt (e1 o); have := BitVec.isLt w; have := BitVec.isLt a; have := BitVec.isLt d; have := BitVec.isLt mj
  simp only [encS, BitVec.extractLsb'_toNat, toNat_append_add, Nat.shiftRight_eq_div_pow]
  omega

@[simp] theorem wMajor_encV (mj d a b : BitVec 6) (m k : Bool) (fn : BitVec 6) : wMajor (encV mj d a b m k fn) = mj := by
  apply BitVec.eq_of_toNat_eq
  have := BitVec.isLt fn; have := BitVec.isLt (e1 k); have := BitVec.isLt (e1 m); have := BitVec.isLt b; have := BitVec.isLt a; have := BitVec.isLt d; have := BitVec.isLt mj
  simp only [wMajor, encV, BitVec.extractLsb'_toNat, toNat_append_add, Nat.shiftRight_eq_div_pow]
  omega

@[simp] theorem wD_encV (mj d a b : BitVec 6) (m k : Bool) (fn : BitVec 6) : wD (encV mj d a b m k fn) = d := by
  apply BitVec.eq_of_toNat_eq
  have := BitVec.isLt fn; have := BitVec.isLt (e1 k); have := BitVec.isLt (e1 m); have := BitVec.isLt b; have := BitVec.isLt a; have := BitVec.isLt d; have := BitVec.isLt mj
  simp only [wD, encV, BitVec.extractLsb'_toNat, toNat_append_add, Nat.shiftRight_eq_div_pow]
  omega

@[simp] theorem wA_encV (mj d a b : BitVec 6) (m k : Bool) (fn : BitVec 6) : wA (encV mj d a b m k fn) = a := by
  apply BitVec.eq_of_toNat_eq
  have := BitVec.isLt fn; have := BitVec.isLt (e1 k); have := BitVec.isLt (e1 m); have := BitVec.isLt b; have := BitVec.isLt a; have := BitVec.isLt d; have := BitVec.isLt mj
  simp only [wA, encV, BitVec.extractLsb'_toNat, toNat_append_add, Nat.shiftRight_eq_div_pow]
  omega

@[simp] theorem wB_encV (mj d a b : BitVec 6) (m k : Bool) (fn : BitVec 6) : wB (encV mj d a b m k fn) = b := by
  apply BitVec.eq_of_toNat_eq
  have := BitVec.isLt fn; have := BitVec.isLt (e1 k); have := BitVec.isLt (e1 m); have := BitVec.isLt b; have := BitVec.isLt a; have := BitVec.isLt d; have := BitVec.isLt mj
  simp only [wB, encV, BitVec.extractLsb'_toNat, toNat_append_add, Nat.shiftRight_eq_div_pow]
  omega

@[simp] theorem field0_encV (mj d a b : BitVec 6) (m k : Bool) (fn : BitVec 6) : (encV mj d a b m k fn).extractLsb' 0 6 = fn := by
  apply BitVec.eq_of_toNat_eq
  have := BitVec.isLt fn; have := BitVec.isLt (e1 k); have := BitVec.isLt (e1 m); have := BitVec.isLt b; have := BitVec.isLt a; have := BitVec.isLt d; have := BitVec.isLt mj
  simp only [encV, BitVec.extractLsb'_toNat, toNat_append_add, Nat.shiftRight_eq_div_pow]
  omega

@[simp] theorem field6_encV (mj d a b : BitVec 6) (m k : Bool) (fn : BitVec 6) : (encV mj d a b m k fn).extractLsb' 6 1 = (e1 k) := by
  apply BitVec.eq_of_toNat_eq
  have := BitVec.isLt fn; have := BitVec.isLt (e1 k); have := BitVec.isLt (e1 m); have := BitVec.isLt b; have := BitVec.isLt a; have := BitVec.isLt d; have := BitVec.isLt mj
  simp only [encV, BitVec.extractLsb'_toNat, toNat_append_add, Nat.shiftRight_eq_div_pow]
  omega

@[simp] theorem field7_encV (mj d a b : BitVec 6) (m k : Bool) (fn : BitVec 6) : (encV mj d a b m k fn).extractLsb' 7 1 = (e1 m) := by
  apply BitVec.eq_of_toNat_eq
  have := BitVec.isLt fn; have := BitVec.isLt (e1 k); have := BitVec.isLt (e1 m); have := BitVec.isLt b; have := BitVec.isLt a; have := BitVec.isLt d; have := BitVec.isLt mj
  simp only [encV, BitVec.extractLsb'_toNat, toNat_append_add, Nat.shiftRight_eq_div_pow]
  omega

@[simp] theorem wMajor_encM (mj d a b : BitVec 6) (w : BitVec 3) (mode : BitVec 2) (m : Bool) (o : BitVec 2) : wMajor (encM mj d a b w mode m o) = mj := by
  apply BitVec.eq_of_toNat_eq
  have := BitVec.isLt o; have := BitVec.isLt (e1 m); have := BitVec.isLt mode; have := BitVec.isLt w; have := BitVec.isLt b; have := BitVec.isLt a; have := BitVec.isLt d; have := BitVec.isLt mj
  simp only [wMajor, encM, BitVec.extractLsb'_toNat, toNat_append_add, Nat.shiftRight_eq_div_pow]
  omega

@[simp] theorem wD_encM (mj d a b : BitVec 6) (w : BitVec 3) (mode : BitVec 2) (m : Bool) (o : BitVec 2) : wD (encM mj d a b w mode m o) = d := by
  apply BitVec.eq_of_toNat_eq
  have := BitVec.isLt o; have := BitVec.isLt (e1 m); have := BitVec.isLt mode; have := BitVec.isLt w; have := BitVec.isLt b; have := BitVec.isLt a; have := BitVec.isLt d; have := BitVec.isLt mj
  simp only [wD, encM, BitVec.extractLsb'_toNat, toNat_append_add, Nat.shiftRight_eq_div_pow]
  omega

@[simp] theorem wA_encM (mj d a b : BitVec 6) (w : BitVec 3) (mode : BitVec 2) (m : Bool) (o : BitVec 2) : wA (encM mj d a b w mode m o) = a := by
  apply BitVec.eq_of_toNat_eq
  have := BitVec.isLt o; have := BitVec.isLt (e1 m); have := BitVec.isLt mode; have := BitVec.isLt w; have := BitVec.isLt b; have := BitVec.isLt a; have := BitVec.isLt d; have := BitVec.isLt mj
  simp only [wA, encM, BitVec.extractLsb'_toNat, toNat_append_add, Nat.shiftRight_eq_div_pow]
  omega

@[simp] theorem wB_encM (mj d a b : BitVec 6) (w : BitVec 3) (mode : BitVec 2) (m : Bool) (o : BitVec 2) : wB (encM mj d a b w mode m o) = b := by
  apply BitVec.eq_of_toNat_eq
  have := BitVec.isLt o; have := BitVec.isLt (e1 m); have := BitVec.isLt mode; have := BitVec.isLt w; have := BitVec.isLt b; have := BitVec.isLt a; have := BitVec.isLt d; have := BitVec.isLt mj
  simp only [wB, encM, BitVec.extractLsb'_toNat, toNat_append_add, Nat.shiftRight_eq_div_pow]
  omega

@[simp] theorem field0_encM (mj d a b : BitVec 6) (w : BitVec 3) (mode : BitVec 2) (m : Bool) (o : BitVec 2) : (encM mj d a b w mode m o).extractLsb' 0 2 = o := by
  apply BitVec.eq_of_toNat_eq
  have := BitVec.isLt o; have := BitVec.isLt (e1 m); have := BitVec.isLt mode; have := BitVec.isLt w; have := BitVec.isLt b; have := BitVec.isLt a; have := BitVec.isLt d; have := BitVec.isLt mj
  simp only [encM, BitVec.extractLsb'_toNat, toNat_append_add, Nat.shiftRight_eq_div_pow]
  omega

@[simp] theorem field2_encM (mj d a b : BitVec 6) (w : BitVec 3) (mode : BitVec 2) (m : Bool) (o : BitVec 2) : (encM mj d a b w mode m o).extractLsb' 2 1 = (e1 m) := by
  apply BitVec.eq_of_toNat_eq
  have := BitVec.isLt o; have := BitVec.isLt (e1 m); have := BitVec.isLt mode; have := BitVec.isLt w; have := BitVec.isLt b; have := BitVec.isLt a; have := BitVec.isLt d; have := BitVec.isLt mj
  simp only [encM, BitVec.extractLsb'_toNat, toNat_append_add, Nat.shiftRight_eq_div_pow]
  omega

@[simp] theorem field3_encM (mj d a b : BitVec 6) (w : BitVec 3) (mode : BitVec 2) (m : Bool) (o : BitVec 2) : (encM mj d a b w mode m o).extractLsb' 3 2 = mode := by
  apply BitVec.eq_of_toNat_eq
  have := BitVec.isLt o; have := BitVec.isLt (e1 m); have := BitVec.isLt mode; have := BitVec.isLt w; have := BitVec.isLt b; have := BitVec.isLt a; have := BitVec.isLt d; have := BitVec.isLt mj
  simp only [encM, BitVec.extractLsb'_toNat, toNat_append_add, Nat.shiftRight_eq_div_pow]
  omega

@[simp] theorem field5_encM (mj d a b : BitVec 6) (w : BitVec 3) (mode : BitVec 2) (m : Bool) (o : BitVec 2) : (encM mj d a b w mode m o).extractLsb' 5 3 = w := by
  apply BitVec.eq_of_toNat_eq
  have := BitVec.isLt o; have := BitVec.isLt (e1 m); have := BitVec.isLt mode; have := BitVec.isLt w; have := BitVec.isLt b; have := BitVec.isLt a; have := BitVec.isLt d; have := BitVec.isLt mj
  simp only [encM, BitVec.extractLsb'_toNat, toNat_append_add, Nat.shiftRight_eq_div_pow]
  omega

@[simp] theorem wMajor_encP (e f kind : BitVec 6) (ext : BitVec 8) : wMajor (encP e f kind ext) = 0x3E#6 := by
  apply BitVec.eq_of_toNat_eq
  have := BitVec.isLt ext; have := BitVec.isLt kind; have := BitVec.isLt f; have := BitVec.isLt e
  simp only [wMajor, encP, BitVec.extractLsb'_toNat, toNat_append_add, Nat.shiftRight_eq_div_pow]
  omega

@[simp] theorem wD_encP (e f kind : BitVec 6) (ext : BitVec 8) : wD (encP e f kind ext) = e := by
  apply BitVec.eq_of_toNat_eq
  have := BitVec.isLt ext; have := BitVec.isLt kind; have := BitVec.isLt f; have := BitVec.isLt e
  simp only [wD, encP, BitVec.extractLsb'_toNat, toNat_append_add, Nat.shiftRight_eq_div_pow]
  omega

@[simp] theorem wA_encP (e f kind : BitVec 6) (ext : BitVec 8) : wA (encP e f kind ext) = f := by
  apply BitVec.eq_of_toNat_eq
  have := BitVec.isLt ext; have := BitVec.isLt kind; have := BitVec.isLt f; have := BitVec.isLt e
  simp only [wA, encP, BitVec.extractLsb'_toNat, toNat_append_add, Nat.shiftRight_eq_div_pow]
  omega

@[simp] theorem wB_encP (e f kind : BitVec 6) (ext : BitVec 8) : wB (encP e f kind ext) = kind := by
  apply BitVec.eq_of_toNat_eq
  have := BitVec.isLt ext; have := BitVec.isLt kind; have := BitVec.isLt f; have := BitVec.isLt e
  simp only [wB, encP, BitVec.extractLsb'_toNat, toNat_append_add, Nat.shiftRight_eq_div_pow]
  omega

@[simp] theorem field0_encP (e f kind : BitVec 6) (ext : BitVec 8) : (encP e f kind ext).extractLsb' 0 8 = ext := by
  apply BitVec.eq_of_toNat_eq
  have := BitVec.isLt ext; have := BitVec.isLt kind; have := BitVec.isLt f; have := BitVec.isLt e
  simp only [encP, BitVec.extractLsb'_toNat, toNat_append_add, Nat.shiftRight_eq_div_pow]
  omega

@[simp] theorem wFn_encR (mj d a b : BitVec 6) (fn : BitVec 8) : wFn (encR mj d a b fn) = fn := field0_encR mj d a b fn

/-- A scalar register in a 6-bit field has its top bit 0 (R81). -/
@[simp] theorem topBit_e6 (r : SReg) : topBit (e6 r) = false := by
  unfold topBit e6
  rw [BitVec.getLsbD, Nat.testBit_eq_decide_div_mod_eq, toNat_append_add]
  have := r.isLt
  simp; omega

/-- A scalar register in a 6-bit field is its low five bits (R81). -/
@[simp] theorem low5_e6 (r : SReg) : low5 (e6 r) = r := by
  apply BitVec.eq_of_toNat_eq
  have := r.isLt
  simp only [low5, e6, BitVec.extractLsb'_toNat, toNat_append_add, Nat.shiftRight_eq_div_pow]
  omega

/-- A part of a field is that part of the word. -/
theorem extract_of_field {m w : Nat} {x : BitVec m} {v : BitVec w} (p lo n : Nat) (e : x.extractLsb' p w = v)
    (h : lo + n ≤ w) : x.extractLsb' (p + lo) n = v.extractLsb' lo n := by
  rw [← e]
  apply BitVec.eq_of_getLsbD_eq
  intro i hi
  have hw : lo + i < w := by omega
  simp [hi, hw, Nat.add_assoc]

/-- A bit of a field is that bit of the word. -/
theorem bit_of_field {m w : Nat} {x : BitVec m} {v : BitVec w} (p i : Nat) (e : x.extractLsb' p w = v) (h : i < w) :
    x.getLsbD (p + i) = v.getLsbD i := by
  rw [← e, BitVec.getLsbD_extractLsb']; simp [h]

/-- A part of the lowest field of `encR`. -/
theorem low_encR (mj d a b : BitVec 6) (fn : BitVec 8) (lo n : Nat) (h : lo + n ≤ 8) :
    (encR mj d a b fn).extractLsb' lo n = (fn).extractLsb' lo n := by
  rw [← Nat.zero_add lo]; exact (Nat.zero_add lo).symm ▸ extract_of_field 0 lo n (field0_encR mj d a b fn) h

/-- A bit of the lowest field of `encR`. -/
theorem lowBit_encR (mj d a b : BitVec 6) (fn : BitVec 8) (i : Nat) (h : i < 8) : (encR mj d a b fn).getLsbD i = (fn).getLsbD i := by
  simpa using bit_of_field 0 i (field0_encR mj d a b fn) h

/-- A part of the lowest field of `encI`. -/
theorem low_encI (mj d a : BitVec 6) (imm : BitVec 14) (lo n : Nat) (h : lo + n ≤ 14) :
    (encI mj d a imm).extractLsb' lo n = (imm).extractLsb' lo n := by
  rw [← Nat.zero_add lo]; exact (Nat.zero_add lo).symm ▸ extract_of_field 0 lo n (field0_encI mj d a imm) h

/-- A bit of the lowest field of `encI`. -/
theorem lowBit_encI (mj d a : BitVec 6) (imm : BitVec 14) (i : Nat) (h : i < 14) : (encI mj d a imm).getLsbD i = (imm).getLsbD i := by
  simpa using bit_of_field 0 i (field0_encI mj d a imm) h

/-- A part of the lowest field of `encV`. -/
theorem low_encV (mj d a b : BitVec 6) (m k : Bool) (fn : BitVec 6) (lo n : Nat) (h : lo + n ≤ 6) :
    (encV mj d a b m k fn).extractLsb' lo n = (fn).extractLsb' lo n := by
  rw [← Nat.zero_add lo]; exact (Nat.zero_add lo).symm ▸ extract_of_field 0 lo n (field0_encV mj d a b m k fn) h

/-- A bit of the lowest field of `encV`. -/
theorem lowBit_encV (mj d a b : BitVec 6) (m k : Bool) (fn : BitVec 6) (i : Nat) (h : i < 6) : (encV mj d a b m k fn).getLsbD i = (fn).getLsbD i := by
  simpa using bit_of_field 0 i (field0_encV mj d a b m k fn) h

/-- A part of the lowest field of `encP`. -/
theorem low_encP (e f kind : BitVec 6) (ext : BitVec 8) (lo n : Nat) (h : lo + n ≤ 8) :
    (encP e f kind ext).extractLsb' lo n = (ext).extractLsb' lo n := by
  rw [← Nat.zero_add lo]; exact (Nat.zero_add lo).symm ▸ extract_of_field 0 lo n (field0_encP e f kind ext) h

/-- A bit of the lowest field of `encP`. -/
theorem lowBit_encP (e f kind : BitVec 6) (ext : BitVec 8) (i : Nat) (h : i < 8) : (encP e f kind ext).getLsbD i = (ext).getLsbD i := by
  simpa using bit_of_field 0 i (field0_encP e f kind ext) h

/-- Bit 19 of `encB`. -/
@[simp] theorem bit19_encB (mj : BitVec 6) (c1 c0 : BitVec 1) (a b : SReg) (off : BitVec 14) : (encB mj c1 c0 a b off)[19] = c0[0] :=
  (bit_of_field 19 0 (field19_encB mj c1 c0 a b off) (by decide)).trans (by simp)

/-- Bit 25 of `encB`. -/
@[simp] theorem bit25_encB (mj : BitVec 6) (c1 c0 : BitVec 1) (a b : SReg) (off : BitVec 14) : (encB mj c1 c0 a b off)[25] = c1[0] :=
  (bit_of_field 25 0 (field25_encB mj c1 c0 a b off) (by decide)).trans (by simp)

/-- Bit 10 of `encS`. -/
@[simp] theorem bit10_encS (mj d a : BitVec 6) (w : BitVec 3) (o : Bool) (imm : BitVec 10) : (encS mj d a w o imm)[10] = o :=
  (bit_of_field 10 0 (field10_encS mj d a w o imm) (by decide)).trans (by simp [e1])

/-- Bit 7 of `encV`. -/
@[simp] theorem bit7_encV (mj d a b : BitVec 6) (m k : Bool) (fn : BitVec 6) : (encV mj d a b m k fn)[7] = m :=
  (bit_of_field 7 0 (field7_encV mj d a b m k fn) (by decide)).trans (by simp [e1])

/-- Bit 6 of `encV`. -/
@[simp] theorem bit6_encV (mj d a b : BitVec 6) (m k : Bool) (fn : BitVec 6) : (encV mj d a b m k fn)[6] = k :=
  (bit_of_field 6 0 (field6_encV mj d a b m k fn) (by decide)).trans (by simp [e1])

/-- Bit 2 of `encM`. -/
@[simp] theorem bit2_encM (mj d a b : BitVec 6) (w : BitVec 3) (mode : BitVec 2) (m : Bool) (o : BitVec 2) : (encM mj d a b w mode m o)[2] = m :=
  (bit_of_field 2 0 (field2_encM mj d a b w mode m o) (by decide)).trans (by simp [e1])

/-- The MOD prefix means the modifiers it was built from (R108, R109). -/
theorem decPrefix_mod (n p : Bool) (x : Option VReg) :
    decPrefix 1 (encP (x.getD 0) 0 0x01 (0#5 ++ e1 x.isSome ++ e1 p ++ e1 n)) = (false, false, false, .mod ⟨n, p, x⟩) := by
  have l (i : Nat) (h : i < 8) := lowBit_encP (x.getD 0) 0 0x01 (0#5 ++ e1 x.isSome ++ e1 p ++ e1 n) i h
  have e (lo k : Nat) (h : lo + k ≤ 8) := low_encP (x.getD 0) 0 0x01 (0#5 ++ e1 x.isSome ++ e1 p ++ e1 n) lo k h
  simp only [decPrefix, l 0 (by decide), l 1 (by decide), l 2 (by decide), e 3 5 (by decide), wD_encP, wA_encP]
  cases n <;> cases p <;> cases x <;> simp [e1]

/-! ## Words of one instruction -/

/-- A word whose major is neither reserved nor a prefix, with nothing after it, is what its base word says (R78, R112). -/
theorem decodeWords_one (w : IWord) (i : Instr) (hp : (wMajor w).toNat ≠ 0x3E)
    (hr : reservedMajor (wMajor w).toNat = false) (h : (decBase .none w).finish = .ok i) (hw : i.words ≠ 2) :
    decodeWords [w] = .ok i := by
  have hz : isPairPrefix 0 = false := by decide
  have h1 : decodeOne w 0 = .ok i := by simp only [decodeOne, hp, if_false, hr, Bool.false_eq_true, h]
  simp only [decodeWords, window, List.getD_cons_zero, List.getD_cons_succ, List.getD_nil, decode, h1, if_neg hw, hz,
    Bool.false_eq_true, if_false]

/-- A prefixed word with nothing after it is what its base word says under the prefix (R108, R112). -/
theorem decodeWords_two (e f kind : BitVec 6) (ext : BitVec 8) (w : IWord) (i : Instr) (ctx : PreCtx)
    (hk : kind.toNat ≠ 0 ∧ kind.toNat ≤ 4) (hr : reservedMajor (wMajor w).toNat = false)
    (ha : kindAllows kind.toNat (wMajor w).toNat = true)
    (hc : decPrefix kind.toNat (encP e f kind ext) = (false, false, false, ctx))
    (h : (decBase ctx w).finish = .ok i) (hw : i.words = 2) : decodeWords [encP e f kind ext, w] = .ok i := by
  have hz : isPairPrefix 0 = false := by decide
  have hm : (wMajor w).toNat ≠ 0x3E := by
    intro e
    rw [e] at ha
    unfold kindAllows at ha
    split at ha <;> simp at ha
  have h1 : decodeOne (encP e f kind ext) w = .ok i := by
    have hk4 : ¬ 4 < kind.toNat := by omega
    simp [decodeOne, hr, hk.1, hk4, ha, hm, hc, h]
  simp only [decodeWords, window, List.getD_cons_zero, List.getD_cons_succ, List.getD_nil, decode, h1, hw, if_true, hz,
    Bool.false_eq_true, if_false]

/-- The majors of the V format (R92). -/
theorem decBase_V (ctx : PreCtx) (w : IWord) (h : 0x18 ≤ (wMajor w).toNat ∧ (wMajor w).toNat ≤ 0x24) :
    decBase ctx w = decV (wMajor w).toNat ctx w := by
  simp only [decBase]
  repeat rw [if_neg (by omega)]
  rw [if_pos h.2]

/-- The majors of the M format (R99). -/
theorem decBase_M (ctx : PreCtx) (w : IWord) (h : 0x25 ≤ (wMajor w).toNat ∧ (wMajor w).toNat ≤ 0x2C) :
    decBase ctx w = decM (wMajor w).toNat ctx w := by
  simp only [decBase]
  repeat rw [if_neg (by omega)]
  rw [if_pos h.2]

end Sys2Proof
end

