-- ==== Sys2Proof/Laws/State.lean ====
section
/-! SUPPORT. What each update of the state and of a thread leaves and sets, field by field: every lemma holds by
definition, so that no later proof unfolds a record update. -/

namespace Sys2Proof.Machine

/-! ## A control register of a thread -/

@[simp] theorem Thread.set_s (t : Thread) (c : Csr) (v : Word) : (t.set c v).s = t.s := rfl
@[simp] theorem Thread.set_f (t : Thread) (c : Csr) (v : Word) : (t.set c v).f = t.f := rfl
@[simp] theorem Thread.set_pc (t : Thread) (c : Csr) (v : Word) : (t.set c v).pc = t.pc := rfl
@[simp] theorem Thread.set_slices (t : Thread) (c : Csr) (v : Word) : (t.set c v).slices = t.slices := rfl
@[simp] theorem Thread.set_vvalid (t : Thread) (c : Csr) (v : Word) : (t.set c v).vvalid = t.vvalid := rfl
@[simp] theorem Thread.set_tb0 (t : Thread) (c : Csr) (v : Word) : (t.set c v).tb0 = t.tb0 := rfl
@[simp] theorem Thread.set_tb1 (t : Thread) (c : Csr) (v : Word) : (t.set c v).tb1 = t.tb1 := rfl
@[simp] theorem Thread.set_slotValid (t : Thread) (c : Csr) (v : Word) : (t.set c v).slotValid = t.slotValid := rfl
@[simp] theorem Thread.set_run (t : Thread) (c : Csr) (v : Word) : (t.set c v).run = t.run := rfl
@[simp] theorem Thread.set_lsq (t : Thread) (c : Csr) (v : Word) : (t.set c v).lsq = t.lsq := rfl
@[simp] theorem Thread.set_vq (t : Thread) (c : Csr) (v : Word) : (t.set c v).vq = t.vq := rfl
@[simp] theorem Thread.set_fx (t : Thread) (c : Csr) (v : Word) : (t.set c v).fx = t.fx := rfl
@[simp] theorem Thread.set_copySeq (t : Thread) (c : Csr) (v : Word) : (t.set c v).copySeq = t.copySeq := rfl
@[simp] theorem Thread.set_wake (t : Thread) (c : Csr) (v : Word) : (t.set c v).wake = t.wake := rfl
@[simp] theorem Thread.set_lastRange (t : Thread) (c : Csr) (v : Word) : (t.set c v).lastRange = t.lastRange := rfl
@[simp] theorem Thread.set_lastRecv (t : Thread) (c : Csr) (v : Word) : (t.set c v).lastRecv = t.lastRecv := rfl
@[simp] theorem Thread.set_waitStart (t : Thread) (c : Csr) (v : Word) : (t.set c v).waitStart = t.waitStart := rfl
@[simp] theorem Thread.set_waitUsed (t : Thread) (c : Csr) (v : Word) : (t.set c v).waitUsed = t.waitUsed := rfl
@[simp] theorem Thread.set_grp (t : Thread) (c : Csr) (v : Word) : (t.set c v).grp = t.grp := rfl
@[simp] theorem Thread.set_gang (t : Thread) (c : Csr) (v : Word) : (t.set c v).gang = t.gang := rfl
@[simp] theorem Thread.set_prio (t : Thread) (c : Csr) (v : Word) : (t.set c v).prio = t.prio := rfl
@[simp] theorem Thread.set_placedAt (t : Thread) (c : Csr) (v : Word) : (t.set c v).placedAt = t.placedAt := rfl
@[simp] theorem Thread.set_held (t : Thread) (c : Csr) (v : Word) : (t.set c v).held = t.held := rfl
@[simp] theorem Thread.set_stopping (t : Thread) (c : Csr) (v : Word) : (t.set c v).stopping = t.stopping := rfl
@[simp] theorem Thread.set_ceilFell (t : Thread) (c : Csr) (v : Word) : (t.set c v).ceilFell = t.ceilFell := rfl
@[simp] theorem Thread.set_finishing (t : Thread) (c : Csr) (v : Word) : (t.set c v).finishing = t.finishing := rfl
@[simp] theorem Thread.set_ahead (t : Thread) (c : Csr) (v : Word) : (t.set c v).ahead = t.ahead := rfl
@[simp] theorem Thread.set_exitRoutine (t : Thread) (c : Csr) (v : Word) : (t.set c v).exitRoutine = t.exitRoutine := rfl
@[simp] theorem Thread.set_removed (t : Thread) (c : Csr) (v : Word) : (t.set c v).removed = t.removed := rfl
@[simp] theorem Thread.set_cbarIn (t : Thread) (c : Csr) (v : Word) : (t.set c v).cbarIn = t.cbarIn := rfl
@[simp] theorem Thread.set_cbarArrived (t : Thread) (c : Csr) (v : Word) : (t.set c v).cbarArrived = t.cbarArrived := rfl
@[simp] theorem Thread.set_cbarPassed (t : Thread) (c : Csr) (v : Word) : (t.set c v).cbarPassed = t.cbarPassed := rfl
@[simp] theorem Thread.set_fxFlags (t : Thread) (c : Csr) (v : Word) : (t.set c v).fxFlags = t.fxFlags := rfl
@[simp] theorem Thread.set_fxStores (t : Thread) (c : Csr) (v : Word) : (t.set c v).fxStores = t.fxStores := rfl
@[simp] theorem Thread.set_fxBase (t : Thread) (c : Csr) (v : Word) : (t.set c v).fxBase = t.fxBase := rfl
@[simp] theorem Thread.set_trapKind (t : Thread) (c : Csr) (v : Word) : (t.set c v).trapKind = t.trapKind := rfl
@[simp] theorem Thread.set_lowered (t : Thread) (c : Csr) (v : Word) : (t.set c v).lowered = t.lowered := rfl
@[simp] theorem Thread.set_ceilHeld (t : Thread) (c : Csr) (v : Word) : (t.set c v).ceilHeld = t.ceilHeld := rfl

/-! ## A vector register made invalid, and the shape -/

@[simp] theorem Thread.invalidate_s (t : Thread) : t.invalidate.s = t.s := rfl
@[simp] theorem Thread.invalidate_f (t : Thread) : t.invalidate.f = t.f := rfl
@[simp] theorem Thread.invalidate_pc (t : Thread) : t.invalidate.pc = t.pc := rfl
@[simp] theorem Thread.invalidate_csr (t : Thread) : t.invalidate.csr = t.csr := rfl
@[simp] theorem Thread.invalidate_slices (t : Thread) : t.invalidate.slices = t.slices := rfl
@[simp] theorem Thread.invalidate_tb0 (t : Thread) : t.invalidate.tb0 = t.tb0 := rfl
@[simp] theorem Thread.invalidate_tb1 (t : Thread) : t.invalidate.tb1 = t.tb1 := rfl
@[simp] theorem Thread.invalidate_slotValid (t : Thread) : t.invalidate.slotValid = t.slotValid := rfl
@[simp] theorem Thread.invalidate_run (t : Thread) : t.invalidate.run = t.run := rfl
@[simp] theorem Thread.invalidate_lsq (t : Thread) : t.invalidate.lsq = t.lsq := rfl
@[simp] theorem Thread.invalidate_vq (t : Thread) : t.invalidate.vq = t.vq := rfl
@[simp] theorem Thread.invalidate_fx (t : Thread) : t.invalidate.fx = t.fx := rfl
@[simp] theorem Thread.invalidate_copySeq (t : Thread) : t.invalidate.copySeq = t.copySeq := rfl
@[simp] theorem Thread.invalidate_wake (t : Thread) : t.invalidate.wake = t.wake := rfl
@[simp] theorem Thread.invalidate_lastRange (t : Thread) : t.invalidate.lastRange = t.lastRange := rfl
@[simp] theorem Thread.invalidate_lastRecv (t : Thread) : t.invalidate.lastRecv = t.lastRecv := rfl
@[simp] theorem Thread.invalidate_waitStart (t : Thread) : t.invalidate.waitStart = t.waitStart := rfl
@[simp] theorem Thread.invalidate_waitUsed (t : Thread) : t.invalidate.waitUsed = t.waitUsed := rfl
@[simp] theorem Thread.invalidate_grp (t : Thread) : t.invalidate.grp = t.grp := rfl
@[simp] theorem Thread.invalidate_gang (t : Thread) : t.invalidate.gang = t.gang := rfl
@[simp] theorem Thread.invalidate_prio (t : Thread) : t.invalidate.prio = t.prio := rfl
@[simp] theorem Thread.invalidate_placedAt (t : Thread) : t.invalidate.placedAt = t.placedAt := rfl
@[simp] theorem Thread.invalidate_held (t : Thread) : t.invalidate.held = t.held := rfl
@[simp] theorem Thread.invalidate_stopping (t : Thread) : t.invalidate.stopping = t.stopping := rfl
@[simp] theorem Thread.invalidate_ceilFell (t : Thread) : t.invalidate.ceilFell = t.ceilFell := rfl
@[simp] theorem Thread.invalidate_finishing (t : Thread) : t.invalidate.finishing = t.finishing := rfl
@[simp] theorem Thread.invalidate_ahead (t : Thread) : t.invalidate.ahead = t.ahead := rfl
@[simp] theorem Thread.invalidate_exitRoutine (t : Thread) : t.invalidate.exitRoutine = t.exitRoutine := rfl
@[simp] theorem Thread.invalidate_removed (t : Thread) : t.invalidate.removed = t.removed := rfl
@[simp] theorem Thread.invalidate_cbarIn (t : Thread) : t.invalidate.cbarIn = t.cbarIn := rfl
@[simp] theorem Thread.invalidate_cbarArrived (t : Thread) : t.invalidate.cbarArrived = t.cbarArrived := rfl
@[simp] theorem Thread.invalidate_cbarPassed (t : Thread) : t.invalidate.cbarPassed = t.cbarPassed := rfl
@[simp] theorem Thread.invalidate_fxFlags (t : Thread) : t.invalidate.fxFlags = t.fxFlags := rfl
@[simp] theorem Thread.invalidate_fxStores (t : Thread) : t.invalidate.fxStores = t.fxStores := rfl
@[simp] theorem Thread.invalidate_fxBase (t : Thread) : t.invalidate.fxBase = t.fxBase := rfl
@[simp] theorem Thread.invalidate_trapKind (t : Thread) : t.invalidate.trapKind = t.trapKind := rfl
@[simp] theorem Thread.invalidate_lowered (t : Thread) : t.invalidate.lowered = t.lowered := rfl
@[simp] theorem Thread.invalidate_ceilHeld (t : Thread) : t.invalidate.ceilHeld = t.ceilHeld := rfl

/-! ## An f register of a thread -/

@[simp] theorem Thread.setFr_s (t : Thread) (r : SReg) (v : Word) : (t.setFr r v).s = t.s := rfl
@[simp] theorem Thread.setFr_pc (t : Thread) (r : SReg) (v : Word) : (t.setFr r v).pc = t.pc := rfl
@[simp] theorem Thread.setFr_csr (t : Thread) (r : SReg) (v : Word) : (t.setFr r v).csr = t.csr := rfl
@[simp] theorem Thread.setFr_slices (t : Thread) (r : SReg) (v : Word) : (t.setFr r v).slices = t.slices := rfl
@[simp] theorem Thread.setFr_vvalid (t : Thread) (r : SReg) (v : Word) : (t.setFr r v).vvalid = t.vvalid := rfl
@[simp] theorem Thread.setFr_tb0 (t : Thread) (r : SReg) (v : Word) : (t.setFr r v).tb0 = t.tb0 := rfl
@[simp] theorem Thread.setFr_tb1 (t : Thread) (r : SReg) (v : Word) : (t.setFr r v).tb1 = t.tb1 := rfl
@[simp] theorem Thread.setFr_slotValid (t : Thread) (r : SReg) (v : Word) : (t.setFr r v).slotValid = t.slotValid := rfl
@[simp] theorem Thread.setFr_run (t : Thread) (r : SReg) (v : Word) : (t.setFr r v).run = t.run := rfl
@[simp] theorem Thread.setFr_lsq (t : Thread) (r : SReg) (v : Word) : (t.setFr r v).lsq = t.lsq := rfl
@[simp] theorem Thread.setFr_vq (t : Thread) (r : SReg) (v : Word) : (t.setFr r v).vq = t.vq := rfl
@[simp] theorem Thread.setFr_fx (t : Thread) (r : SReg) (v : Word) : (t.setFr r v).fx = t.fx := rfl
@[simp] theorem Thread.setFr_copySeq (t : Thread) (r : SReg) (v : Word) : (t.setFr r v).copySeq = t.copySeq := rfl
@[simp] theorem Thread.setFr_wake (t : Thread) (r : SReg) (v : Word) : (t.setFr r v).wake = t.wake := rfl
@[simp] theorem Thread.setFr_lastRange (t : Thread) (r : SReg) (v : Word) : (t.setFr r v).lastRange = t.lastRange := rfl
@[simp] theorem Thread.setFr_lastRecv (t : Thread) (r : SReg) (v : Word) : (t.setFr r v).lastRecv = t.lastRecv := rfl
@[simp] theorem Thread.setFr_waitStart (t : Thread) (r : SReg) (v : Word) : (t.setFr r v).waitStart = t.waitStart := rfl
@[simp] theorem Thread.setFr_waitUsed (t : Thread) (r : SReg) (v : Word) : (t.setFr r v).waitUsed = t.waitUsed := rfl
@[simp] theorem Thread.setFr_grp (t : Thread) (r : SReg) (v : Word) : (t.setFr r v).grp = t.grp := rfl
@[simp] theorem Thread.setFr_gang (t : Thread) (r : SReg) (v : Word) : (t.setFr r v).gang = t.gang := rfl
@[simp] theorem Thread.setFr_prio (t : Thread) (r : SReg) (v : Word) : (t.setFr r v).prio = t.prio := rfl
@[simp] theorem Thread.setFr_placedAt (t : Thread) (r : SReg) (v : Word) : (t.setFr r v).placedAt = t.placedAt := rfl
@[simp] theorem Thread.setFr_held (t : Thread) (r : SReg) (v : Word) : (t.setFr r v).held = t.held := rfl
@[simp] theorem Thread.setFr_stopping (t : Thread) (r : SReg) (v : Word) : (t.setFr r v).stopping = t.stopping := rfl
@[simp] theorem Thread.setFr_ceilFell (t : Thread) (r : SReg) (v : Word) : (t.setFr r v).ceilFell = t.ceilFell := rfl
@[simp] theorem Thread.setFr_finishing (t : Thread) (r : SReg) (v : Word) : (t.setFr r v).finishing = t.finishing := rfl
@[simp] theorem Thread.setFr_ahead (t : Thread) (r : SReg) (v : Word) : (t.setFr r v).ahead = t.ahead := rfl
@[simp] theorem Thread.setFr_exitRoutine (t : Thread) (r : SReg) (v : Word) : (t.setFr r v).exitRoutine = t.exitRoutine := rfl
@[simp] theorem Thread.setFr_removed (t : Thread) (r : SReg) (v : Word) : (t.setFr r v).removed = t.removed := rfl
@[simp] theorem Thread.setFr_cbarIn (t : Thread) (r : SReg) (v : Word) : (t.setFr r v).cbarIn = t.cbarIn := rfl
@[simp] theorem Thread.setFr_cbarArrived (t : Thread) (r : SReg) (v : Word) : (t.setFr r v).cbarArrived = t.cbarArrived := rfl
@[simp] theorem Thread.setFr_cbarPassed (t : Thread) (r : SReg) (v : Word) : (t.setFr r v).cbarPassed = t.cbarPassed := rfl
@[simp] theorem Thread.setFr_fxFlags (t : Thread) (r : SReg) (v : Word) : (t.setFr r v).fxFlags = t.fxFlags := rfl
@[simp] theorem Thread.setFr_fxStores (t : Thread) (r : SReg) (v : Word) : (t.setFr r v).fxStores = t.fxStores := rfl
@[simp] theorem Thread.setFr_fxBase (t : Thread) (r : SReg) (v : Word) : (t.setFr r v).fxBase = t.fxBase := rfl
@[simp] theorem Thread.setFr_trapKind (t : Thread) (r : SReg) (v : Word) : (t.setFr r v).trapKind = t.trapKind := rfl
@[simp] theorem Thread.setFr_lowered (t : Thread) (r : SReg) (v : Word) : (t.setFr r v).lowered = t.lowered := rfl
@[simp] theorem Thread.setFr_ceilHeld (t : Thread) (r : SReg) (v : Word) : (t.setFr r v).ceilHeld = t.ceilHeld := rfl

/-! ## A thread past an instruction -/

@[simp] theorem Thread.advance_s (t : Thread) (w k : Nat) : (t.advance w k).s = t.s := rfl
@[simp] theorem Thread.advance_f (t : Thread) (w k : Nat) : (t.advance w k).f = t.f := rfl
@[simp] theorem Thread.advance_slices (t : Thread) (w k : Nat) : (t.advance w k).slices = t.slices := rfl
@[simp] theorem Thread.advance_vvalid (t : Thread) (w k : Nat) : (t.advance w k).vvalid = t.vvalid := rfl
@[simp] theorem Thread.advance_tb0 (t : Thread) (w k : Nat) : (t.advance w k).tb0 = t.tb0 := rfl
@[simp] theorem Thread.advance_tb1 (t : Thread) (w k : Nat) : (t.advance w k).tb1 = t.tb1 := rfl
@[simp] theorem Thread.advance_slotValid (t : Thread) (w k : Nat) : (t.advance w k).slotValid = t.slotValid := rfl
@[simp] theorem Thread.advance_lsq (t : Thread) (w k : Nat) : (t.advance w k).lsq = t.lsq := rfl
@[simp] theorem Thread.advance_vq (t : Thread) (w k : Nat) : (t.advance w k).vq = t.vq := rfl
@[simp] theorem Thread.advance_fx (t : Thread) (w k : Nat) : (t.advance w k).fx = t.fx := rfl
@[simp] theorem Thread.advance_copySeq (t : Thread) (w k : Nat) : (t.advance w k).copySeq = t.copySeq := rfl
@[simp] theorem Thread.advance_wake (t : Thread) (w k : Nat) : (t.advance w k).wake = t.wake := rfl
@[simp] theorem Thread.advance_lastRange (t : Thread) (w k : Nat) : (t.advance w k).lastRange = t.lastRange := rfl
@[simp] theorem Thread.advance_lastRecv (t : Thread) (w k : Nat) : (t.advance w k).lastRecv = t.lastRecv := rfl
@[simp] theorem Thread.advance_waitStart (t : Thread) (w k : Nat) : (t.advance w k).waitStart = t.waitStart := rfl
@[simp] theorem Thread.advance_waitUsed (t : Thread) (w k : Nat) : (t.advance w k).waitUsed = t.waitUsed := rfl
@[simp] theorem Thread.advance_grp (t : Thread) (w k : Nat) : (t.advance w k).grp = t.grp := rfl
@[simp] theorem Thread.advance_gang (t : Thread) (w k : Nat) : (t.advance w k).gang = t.gang := rfl
@[simp] theorem Thread.advance_prio (t : Thread) (w k : Nat) : (t.advance w k).prio = t.prio := rfl
@[simp] theorem Thread.advance_placedAt (t : Thread) (w k : Nat) : (t.advance w k).placedAt = t.placedAt := rfl
@[simp] theorem Thread.advance_held (t : Thread) (w k : Nat) : (t.advance w k).held = t.held := rfl
@[simp] theorem Thread.advance_stopping (t : Thread) (w k : Nat) : (t.advance w k).stopping = t.stopping := rfl
@[simp] theorem Thread.advance_ceilFell (t : Thread) (w k : Nat) : (t.advance w k).ceilFell = t.ceilFell := rfl
@[simp] theorem Thread.advance_finishing (t : Thread) (w k : Nat) : (t.advance w k).finishing = t.finishing := rfl
@[simp] theorem Thread.advance_ahead (t : Thread) (w k : Nat) : (t.advance w k).ahead = t.ahead := rfl
@[simp] theorem Thread.advance_exitRoutine (t : Thread) (w k : Nat) : (t.advance w k).exitRoutine = t.exitRoutine := rfl
@[simp] theorem Thread.advance_removed (t : Thread) (w k : Nat) : (t.advance w k).removed = t.removed := rfl
@[simp] theorem Thread.advance_cbarIn (t : Thread) (w k : Nat) : (t.advance w k).cbarIn = t.cbarIn := rfl
@[simp] theorem Thread.advance_cbarArrived (t : Thread) (w k : Nat) : (t.advance w k).cbarArrived = t.cbarArrived := rfl
@[simp] theorem Thread.advance_cbarPassed (t : Thread) (w k : Nat) : (t.advance w k).cbarPassed = t.cbarPassed := rfl
@[simp] theorem Thread.advance_fxFlags (t : Thread) (w k : Nat) : (t.advance w k).fxFlags = t.fxFlags := rfl
@[simp] theorem Thread.advance_fxStores (t : Thread) (w k : Nat) : (t.advance w k).fxStores = t.fxStores := rfl
@[simp] theorem Thread.advance_fxBase (t : Thread) (w k : Nat) : (t.advance w k).fxBase = t.fxBase := rfl
@[simp] theorem Thread.advance_trapKind (t : Thread) (w k : Nat) : (t.advance w k).trapKind = t.trapKind := rfl
@[simp] theorem Thread.advance_lowered (t : Thread) (w k : Nat) : (t.advance w k).lowered = t.lowered := rfl
@[simp] theorem Thread.advance_ceilHeld (t : Thread) (w k : Nat) : (t.advance w k).ceilHeld = t.ceilHeld := rfl
@[simp] theorem Thread.advance_run (t : Thread) (w k : Nat) : (t.advance w k).run = .running := rfl
@[simp] theorem Thread.advance_pc (t : Thread) (w k : Nat) : (t.advance w k).pc = t.pc + BitVec.ofNat 57 (4 * w) := rfl

/-! ## The focused thread replaced -/

@[simp] theorem State.withTh_cur (s : State) (t : Thread) : (s.withTh t).cur = s.cur := rfl
@[simp] theorem State.withTh_th (s : State) (t : Thread) : (s.withTh t).th = t := rfl
@[simp] theorem State.withTh_seats (s : State) (t : Thread) : (s.withTh t).seats = s.seats := rfl
@[simp] theorem State.withTh_cores (s : State) (t : Thread) : (s.withTh t).cores = s.cores := rfl
@[simp] theorem State.withTh_dies (s : State) (t : Thread) : (s.withTh t).dies = s.dies := rfl
@[simp] theorem State.withTh_mem (s : State) (t : Thread) : (s.withTh t).mem = s.mem := rfl
@[simp] theorem State.withTh_lines (s : State) (t : Thread) : (s.withTh t).lines = s.lines := rfl
@[simp] theorem State.withTh_vspTags (s : State) (t : Thread) : (s.withTh t).vspTags = s.vspTags := rfl
@[simp] theorem State.withTh_l1 (s : State) (t : Thread) : (s.withTh t).l1 = s.l1 := rfl
@[simp] theorem State.withTh_slice (s : State) (t : Thread) : (s.withTh t).slice = s.slice := rfl
@[simp] theorem State.withTh_loads (s : State) (t : Thread) : (s.withTh t).loads = s.loads := rfl
@[simp] theorem State.withTh_fetches (s : State) (t : Thread) : (s.withTh t).fetches = s.fetches := rfl
@[simp] theorem State.withTh_tlb (s : State) (t : Thread) : (s.withTh t).tlb = s.tlb := rfl
@[simp] theorem State.withTh_descs (s : State) (t : Thread) : (s.withTh t).descs = s.descs := rfl
@[simp] theorem State.withTh_rounds (s : State) (t : Thread) : (s.withTh t).rounds = s.rounds := rfl
@[simp] theorem State.withTh_aer (s : State) (t : Thread) : (s.withTh t).aer = s.aer := rfl
@[simp] theorem State.withTh_cycle (s : State) (t : Thread) : (s.withTh t).cycle = s.cycle := rfl
@[simp] theorem State.withTh_images (s : State) (t : Thread) : (s.withTh t).images = s.images := rfl
@[simp] theorem State.withTh_copies (s : State) (t : Thread) : (s.withTh t).copies = s.copies := rfl
@[simp] theorem State.withTh_changes (s : State) (t : Thread) : (s.withTh t).changes = s.changes := rfl
@[simp] theorem State.withTh_settleMsgs (s : State) (t : Thread) : (s.withTh t).settleMsgs = s.settleMsgs := rfl
@[simp] theorem State.withTh_queues (s : State) (t : Thread) : (s.withTh t).queues = s.queues := rfl
@[simp] theorem State.withTh_groups (s : State) (t : Thread) : (s.withTh t).groups = s.groups := rfl
@[simp] theorem State.withTh_gangResv (s : State) (t : Thread) : (s.withTh t).gangResv = s.gangResv := rfl
@[simp] theorem State.withTh_rr (s : State) (t : Thread) : (s.withTh t).rr = s.rr := rfl
@[simp] theorem State.withTh_fqs (s : State) (t : Thread) : (s.withTh t).fqs = s.fqs := rfl
@[simp] theorem State.withTh_saved (s : State) (t : Thread) : (s.withTh t).saved = s.saved := rfl
@[simp] theorem State.withTh_nextToken (s : State) (t : Thread) : (s.withTh t).nextToken = s.nextToken := rfl
@[simp] theorem State.withTh_vfs (s : State) (t : Thread) : (s.withTh t).vfs = s.vfs := rfl
@[simp] theorem State.withTh_pfown (s : State) (t : Thread) : (s.withTh t).pfown = s.pfown := rfl
@[simp] theorem State.withTh_pfwin (s : State) (t : Thread) : (s.withTh t).pfwin = s.pfwin := rfl
@[simp] theorem State.withTh_keys (s : State) (t : Thread) : (s.withTh t).keys = s.keys := rfl
@[simp] theorem State.withTh_keyCmd (s : State) (t : Thread) : (s.withTh t).keyCmd = s.keyCmd := rfl
@[simp] theorem State.withTh_keyLid (s : State) (t : Thread) : (s.withTh t).keyLid = s.keyLid := rfl
@[simp] theorem State.withTh_keyRes (s : State) (t : Thread) : (s.withTh t).keyRes = s.keyRes := rfl
@[simp] theorem State.withTh_devnum (s : State) (t : Thread) : (s.withTh t).devnum = s.devnum := rfl
@[simp] theorem State.withTh_lto (s : State) (t : Thread) : (s.withTh t).lto = s.lto := rfl
@[simp] theorem State.withTh_routes (s : State) (t : Thread) : (s.withTh t).routes = s.routes := rfl
@[simp] theorem State.withTh_ports (s : State) (t : Thread) : (s.withTh t).ports = s.ports := rfl
@[simp] theorem State.withTh_outbox (s : State) (t : Thread) : (s.withTh t).outbox = s.outbox := rfl
@[simp] theorem State.withTh_remotes (s : State) (t : Thread) : (s.withTh t).remotes = s.remotes := rfl
@[simp] theorem State.withTh_inbound (s : State) (t : Thread) : (s.withTh t).inbound = s.inbound := rfl
@[simp] theorem State.withTh_nextTag (s : State) (t : Thread) : (s.withTh t).nextTag = s.nextTag := rfl
@[simp] theorem State.withTh_start (s : State) (t : Thread) : (s.withTh t).start = s.start := rfl
@[simp] theorem State.withTh_fleet (s : State) (t : Thread) : (s.withTh t).fleet = s.fleet := rfl
@[simp] theorem State.withTh_openRows (s : State) (t : Thread) : (s.withTh t).openRows = s.openRows := rfl
@[simp] theorem State.withTh_msi (s : State) (t : Thread) : (s.withTh t).msi = s.msi := rfl
@[simp] theorem State.withTh_hostOut (s : State) (t : Thread) : (s.withTh t).hostOut = s.hostOut := rfl
@[simp] theorem State.withTh_sched (s : State) (t : Thread) : (s.withTh t).sched = s.sched := rfl
@[simp] theorem State.withTh_free (s : State) (t : Thread) : (s.withTh t).free = s.free := rfl
@[simp] theorem State.withTh_withTh (s : State) (t u : Thread) : (s.withTh t).withTh u = s.withTh u := rfl

/-! ## `setCore` -/

@[simp] theorem State.setCore_cur (s : State) (c : Nat) (k : Core) : (s.setCore c k).cur = s.cur := rfl
@[simp] theorem State.setCore_th (s : State) (c : Nat) (k : Core) : (s.setCore c k).th = s.th := rfl
@[simp] theorem State.setCore_seats (s : State) (c : Nat) (k : Core) : (s.setCore c k).seats = s.seats := rfl
@[simp] theorem State.setCore_dies (s : State) (c : Nat) (k : Core) : (s.setCore c k).dies = s.dies := rfl
@[simp] theorem State.setCore_mem (s : State) (c : Nat) (k : Core) : (s.setCore c k).mem = s.mem := rfl
@[simp] theorem State.setCore_lines (s : State) (c : Nat) (k : Core) : (s.setCore c k).lines = s.lines := rfl
@[simp] theorem State.setCore_vspTags (s : State) (c : Nat) (k : Core) : (s.setCore c k).vspTags = s.vspTags := rfl
@[simp] theorem State.setCore_l1 (s : State) (c : Nat) (k : Core) : (s.setCore c k).l1 = s.l1 := rfl
@[simp] theorem State.setCore_slice (s : State) (c : Nat) (k : Core) : (s.setCore c k).slice = s.slice := rfl
@[simp] theorem State.setCore_loads (s : State) (c : Nat) (k : Core) : (s.setCore c k).loads = s.loads := rfl
@[simp] theorem State.setCore_fetches (s : State) (c : Nat) (k : Core) : (s.setCore c k).fetches = s.fetches := rfl
@[simp] theorem State.setCore_tlb (s : State) (c : Nat) (k : Core) : (s.setCore c k).tlb = s.tlb := rfl
@[simp] theorem State.setCore_descs (s : State) (c : Nat) (k : Core) : (s.setCore c k).descs = s.descs := rfl
@[simp] theorem State.setCore_rounds (s : State) (c : Nat) (k : Core) : (s.setCore c k).rounds = s.rounds := rfl
@[simp] theorem State.setCore_aer (s : State) (c : Nat) (k : Core) : (s.setCore c k).aer = s.aer := rfl
@[simp] theorem State.setCore_cycle (s : State) (c : Nat) (k : Core) : (s.setCore c k).cycle = s.cycle := rfl
@[simp] theorem State.setCore_images (s : State) (c : Nat) (k : Core) : (s.setCore c k).images = s.images := rfl
@[simp] theorem State.setCore_copies (s : State) (c : Nat) (k : Core) : (s.setCore c k).copies = s.copies := rfl
@[simp] theorem State.setCore_changes (s : State) (c : Nat) (k : Core) : (s.setCore c k).changes = s.changes := rfl
@[simp] theorem State.setCore_settleMsgs (s : State) (c : Nat) (k : Core) : (s.setCore c k).settleMsgs = s.settleMsgs := rfl
@[simp] theorem State.setCore_queues (s : State) (c : Nat) (k : Core) : (s.setCore c k).queues = s.queues := rfl
@[simp] theorem State.setCore_groups (s : State) (c : Nat) (k : Core) : (s.setCore c k).groups = s.groups := rfl
@[simp] theorem State.setCore_gangResv (s : State) (c : Nat) (k : Core) : (s.setCore c k).gangResv = s.gangResv := rfl
@[simp] theorem State.setCore_rr (s : State) (c : Nat) (k : Core) : (s.setCore c k).rr = s.rr := rfl
@[simp] theorem State.setCore_fqs (s : State) (c : Nat) (k : Core) : (s.setCore c k).fqs = s.fqs := rfl
@[simp] theorem State.setCore_saved (s : State) (c : Nat) (k : Core) : (s.setCore c k).saved = s.saved := rfl
@[simp] theorem State.setCore_nextToken (s : State) (c : Nat) (k : Core) : (s.setCore c k).nextToken = s.nextToken := rfl
@[simp] theorem State.setCore_vfs (s : State) (c : Nat) (k : Core) : (s.setCore c k).vfs = s.vfs := rfl
@[simp] theorem State.setCore_pfown (s : State) (c : Nat) (k : Core) : (s.setCore c k).pfown = s.pfown := rfl
@[simp] theorem State.setCore_pfwin (s : State) (c : Nat) (k : Core) : (s.setCore c k).pfwin = s.pfwin := rfl
@[simp] theorem State.setCore_keys (s : State) (c : Nat) (k : Core) : (s.setCore c k).keys = s.keys := rfl
@[simp] theorem State.setCore_keyCmd (s : State) (c : Nat) (k : Core) : (s.setCore c k).keyCmd = s.keyCmd := rfl
@[simp] theorem State.setCore_keyLid (s : State) (c : Nat) (k : Core) : (s.setCore c k).keyLid = s.keyLid := rfl
@[simp] theorem State.setCore_keyRes (s : State) (c : Nat) (k : Core) : (s.setCore c k).keyRes = s.keyRes := rfl
@[simp] theorem State.setCore_devnum (s : State) (c : Nat) (k : Core) : (s.setCore c k).devnum = s.devnum := rfl
@[simp] theorem State.setCore_lto (s : State) (c : Nat) (k : Core) : (s.setCore c k).lto = s.lto := rfl
@[simp] theorem State.setCore_routes (s : State) (c : Nat) (k : Core) : (s.setCore c k).routes = s.routes := rfl
@[simp] theorem State.setCore_ports (s : State) (c : Nat) (k : Core) : (s.setCore c k).ports = s.ports := rfl
@[simp] theorem State.setCore_outbox (s : State) (c : Nat) (k : Core) : (s.setCore c k).outbox = s.outbox := rfl
@[simp] theorem State.setCore_remotes (s : State) (c : Nat) (k : Core) : (s.setCore c k).remotes = s.remotes := rfl
@[simp] theorem State.setCore_inbound (s : State) (c : Nat) (k : Core) : (s.setCore c k).inbound = s.inbound := rfl
@[simp] theorem State.setCore_nextTag (s : State) (c : Nat) (k : Core) : (s.setCore c k).nextTag = s.nextTag := rfl
@[simp] theorem State.setCore_start (s : State) (c : Nat) (k : Core) : (s.setCore c k).start = s.start := rfl
@[simp] theorem State.setCore_fleet (s : State) (c : Nat) (k : Core) : (s.setCore c k).fleet = s.fleet := rfl
@[simp] theorem State.setCore_openRows (s : State) (c : Nat) (k : Core) : (s.setCore c k).openRows = s.openRows := rfl
@[simp] theorem State.setCore_msi (s : State) (c : Nat) (k : Core) : (s.setCore c k).msi = s.msi := rfl
@[simp] theorem State.setCore_hostOut (s : State) (c : Nat) (k : Core) : (s.setCore c k).hostOut = s.hostOut := rfl
@[simp] theorem State.setCore_sched (s : State) (c : Nat) (k : Core) : (s.setCore c k).sched = s.sched := rfl
@[simp] theorem State.setCore_free (s : State) (c : Nat) (k : Core) : (s.setCore c k).free = s.free := rfl

/-! ## `setDie` -/

@[simp] theorem State.setDie_cur (s : State) (d : Nat) (x : Die) : (s.setDie d x).cur = s.cur := rfl
@[simp] theorem State.setDie_th (s : State) (d : Nat) (x : Die) : (s.setDie d x).th = s.th := rfl
@[simp] theorem State.setDie_seats (s : State) (d : Nat) (x : Die) : (s.setDie d x).seats = s.seats := rfl
@[simp] theorem State.setDie_cores (s : State) (d : Nat) (x : Die) : (s.setDie d x).cores = s.cores := rfl
@[simp] theorem State.setDie_mem (s : State) (d : Nat) (x : Die) : (s.setDie d x).mem = s.mem := rfl
@[simp] theorem State.setDie_lines (s : State) (d : Nat) (x : Die) : (s.setDie d x).lines = s.lines := rfl
@[simp] theorem State.setDie_vspTags (s : State) (d : Nat) (x : Die) : (s.setDie d x).vspTags = s.vspTags := rfl
@[simp] theorem State.setDie_l1 (s : State) (d : Nat) (x : Die) : (s.setDie d x).l1 = s.l1 := rfl
@[simp] theorem State.setDie_slice (s : State) (d : Nat) (x : Die) : (s.setDie d x).slice = s.slice := rfl
@[simp] theorem State.setDie_loads (s : State) (d : Nat) (x : Die) : (s.setDie d x).loads = s.loads := rfl
@[simp] theorem State.setDie_fetches (s : State) (d : Nat) (x : Die) : (s.setDie d x).fetches = s.fetches := rfl
@[simp] theorem State.setDie_tlb (s : State) (d : Nat) (x : Die) : (s.setDie d x).tlb = s.tlb := rfl
@[simp] theorem State.setDie_descs (s : State) (d : Nat) (x : Die) : (s.setDie d x).descs = s.descs := rfl
@[simp] theorem State.setDie_rounds (s : State) (d : Nat) (x : Die) : (s.setDie d x).rounds = s.rounds := rfl
@[simp] theorem State.setDie_aer (s : State) (d : Nat) (x : Die) : (s.setDie d x).aer = s.aer := rfl
@[simp] theorem State.setDie_cycle (s : State) (d : Nat) (x : Die) : (s.setDie d x).cycle = s.cycle := rfl
@[simp] theorem State.setDie_images (s : State) (d : Nat) (x : Die) : (s.setDie d x).images = s.images := rfl
@[simp] theorem State.setDie_copies (s : State) (d : Nat) (x : Die) : (s.setDie d x).copies = s.copies := rfl
@[simp] theorem State.setDie_changes (s : State) (d : Nat) (x : Die) : (s.setDie d x).changes = s.changes := rfl
@[simp] theorem State.setDie_settleMsgs (s : State) (d : Nat) (x : Die) : (s.setDie d x).settleMsgs = s.settleMsgs := rfl
@[simp] theorem State.setDie_queues (s : State) (d : Nat) (x : Die) : (s.setDie d x).queues = s.queues := rfl
@[simp] theorem State.setDie_groups (s : State) (d : Nat) (x : Die) : (s.setDie d x).groups = s.groups := rfl
@[simp] theorem State.setDie_gangResv (s : State) (d : Nat) (x : Die) : (s.setDie d x).gangResv = s.gangResv := rfl
@[simp] theorem State.setDie_rr (s : State) (d : Nat) (x : Die) : (s.setDie d x).rr = s.rr := rfl
@[simp] theorem State.setDie_fqs (s : State) (d : Nat) (x : Die) : (s.setDie d x).fqs = s.fqs := rfl
@[simp] theorem State.setDie_saved (s : State) (d : Nat) (x : Die) : (s.setDie d x).saved = s.saved := rfl
@[simp] theorem State.setDie_nextToken (s : State) (d : Nat) (x : Die) : (s.setDie d x).nextToken = s.nextToken := rfl
@[simp] theorem State.setDie_vfs (s : State) (d : Nat) (x : Die) : (s.setDie d x).vfs = s.vfs := rfl
@[simp] theorem State.setDie_pfown (s : State) (d : Nat) (x : Die) : (s.setDie d x).pfown = s.pfown := rfl
@[simp] theorem State.setDie_pfwin (s : State) (d : Nat) (x : Die) : (s.setDie d x).pfwin = s.pfwin := rfl
@[simp] theorem State.setDie_keys (s : State) (d : Nat) (x : Die) : (s.setDie d x).keys = s.keys := rfl
@[simp] theorem State.setDie_keyCmd (s : State) (d : Nat) (x : Die) : (s.setDie d x).keyCmd = s.keyCmd := rfl
@[simp] theorem State.setDie_keyLid (s : State) (d : Nat) (x : Die) : (s.setDie d x).keyLid = s.keyLid := rfl
@[simp] theorem State.setDie_keyRes (s : State) (d : Nat) (x : Die) : (s.setDie d x).keyRes = s.keyRes := rfl
@[simp] theorem State.setDie_devnum (s : State) (d : Nat) (x : Die) : (s.setDie d x).devnum = s.devnum := rfl
@[simp] theorem State.setDie_lto (s : State) (d : Nat) (x : Die) : (s.setDie d x).lto = s.lto := rfl
@[simp] theorem State.setDie_routes (s : State) (d : Nat) (x : Die) : (s.setDie d x).routes = s.routes := rfl
@[simp] theorem State.setDie_ports (s : State) (d : Nat) (x : Die) : (s.setDie d x).ports = s.ports := rfl
@[simp] theorem State.setDie_outbox (s : State) (d : Nat) (x : Die) : (s.setDie d x).outbox = s.outbox := rfl
@[simp] theorem State.setDie_remotes (s : State) (d : Nat) (x : Die) : (s.setDie d x).remotes = s.remotes := rfl
@[simp] theorem State.setDie_inbound (s : State) (d : Nat) (x : Die) : (s.setDie d x).inbound = s.inbound := rfl
@[simp] theorem State.setDie_nextTag (s : State) (d : Nat) (x : Die) : (s.setDie d x).nextTag = s.nextTag := rfl
@[simp] theorem State.setDie_start (s : State) (d : Nat) (x : Die) : (s.setDie d x).start = s.start := rfl
@[simp] theorem State.setDie_fleet (s : State) (d : Nat) (x : Die) : (s.setDie d x).fleet = s.fleet := rfl
@[simp] theorem State.setDie_openRows (s : State) (d : Nat) (x : Die) : (s.setDie d x).openRows = s.openRows := rfl
@[simp] theorem State.setDie_msi (s : State) (d : Nat) (x : Die) : (s.setDie d x).msi = s.msi := rfl
@[simp] theorem State.setDie_hostOut (s : State) (d : Nat) (x : Die) : (s.setDie d x).hostOut = s.hostOut := rfl
@[simp] theorem State.setDie_sched (s : State) (d : Nat) (x : Die) : (s.setDie d x).sched = s.sched := rfl
@[simp] theorem State.setDie_free (s : State) (d : Nat) (x : Die) : (s.setDie d x).free = s.free := rfl

/-! ## `count` -/

@[simp] theorem State.count_cur (s : State) (off k : Nat) : (s.count off k).cur = s.cur := rfl
@[simp] theorem State.count_th (s : State) (off k : Nat) : (s.count off k).th = s.th := rfl
@[simp] theorem State.count_seats (s : State) (off k : Nat) : (s.count off k).seats = s.seats := rfl
@[simp] theorem State.count_cores (s : State) (off k : Nat) : (s.count off k).cores = s.cores := rfl
@[simp] theorem State.count_dies (s : State) (off k : Nat) : (s.count off k).dies = s.dies := rfl
@[simp] theorem State.count_mem (s : State) (off k : Nat) : (s.count off k).mem = s.mem := rfl
@[simp] theorem State.count_lines (s : State) (off k : Nat) : (s.count off k).lines = s.lines := rfl
@[simp] theorem State.count_vspTags (s : State) (off k : Nat) : (s.count off k).vspTags = s.vspTags := rfl
@[simp] theorem State.count_l1 (s : State) (off k : Nat) : (s.count off k).l1 = s.l1 := rfl
@[simp] theorem State.count_slice (s : State) (off k : Nat) : (s.count off k).slice = s.slice := rfl
@[simp] theorem State.count_loads (s : State) (off k : Nat) : (s.count off k).loads = s.loads := rfl
@[simp] theorem State.count_fetches (s : State) (off k : Nat) : (s.count off k).fetches = s.fetches := rfl
@[simp] theorem State.count_tlb (s : State) (off k : Nat) : (s.count off k).tlb = s.tlb := rfl
@[simp] theorem State.count_descs (s : State) (off k : Nat) : (s.count off k).descs = s.descs := rfl
@[simp] theorem State.count_rounds (s : State) (off k : Nat) : (s.count off k).rounds = s.rounds := rfl
@[simp] theorem State.count_aer (s : State) (off k : Nat) : (s.count off k).aer = s.aer := rfl
@[simp] theorem State.count_cycle (s : State) (off k : Nat) : (s.count off k).cycle = s.cycle := rfl
@[simp] theorem State.count_images (s : State) (off k : Nat) : (s.count off k).images = s.images := rfl
@[simp] theorem State.count_copies (s : State) (off k : Nat) : (s.count off k).copies = s.copies := rfl
@[simp] theorem State.count_changes (s : State) (off k : Nat) : (s.count off k).changes = s.changes := rfl
@[simp] theorem State.count_settleMsgs (s : State) (off k : Nat) : (s.count off k).settleMsgs = s.settleMsgs := rfl
@[simp] theorem State.count_queues (s : State) (off k : Nat) : (s.count off k).queues = s.queues := rfl
@[simp] theorem State.count_groups (s : State) (off k : Nat) : (s.count off k).groups = s.groups := rfl
@[simp] theorem State.count_gangResv (s : State) (off k : Nat) : (s.count off k).gangResv = s.gangResv := rfl
@[simp] theorem State.count_rr (s : State) (off k : Nat) : (s.count off k).rr = s.rr := rfl
@[simp] theorem State.count_fqs (s : State) (off k : Nat) : (s.count off k).fqs = s.fqs := rfl
@[simp] theorem State.count_saved (s : State) (off k : Nat) : (s.count off k).saved = s.saved := rfl
@[simp] theorem State.count_nextToken (s : State) (off k : Nat) : (s.count off k).nextToken = s.nextToken := rfl
@[simp] theorem State.count_vfs (s : State) (off k : Nat) : (s.count off k).vfs = s.vfs := rfl
@[simp] theorem State.count_pfown (s : State) (off k : Nat) : (s.count off k).pfown = s.pfown := rfl
@[simp] theorem State.count_pfwin (s : State) (off k : Nat) : (s.count off k).pfwin = s.pfwin := rfl
@[simp] theorem State.count_keys (s : State) (off k : Nat) : (s.count off k).keys = s.keys := rfl
@[simp] theorem State.count_keyCmd (s : State) (off k : Nat) : (s.count off k).keyCmd = s.keyCmd := rfl
@[simp] theorem State.count_keyLid (s : State) (off k : Nat) : (s.count off k).keyLid = s.keyLid := rfl
@[simp] theorem State.count_keyRes (s : State) (off k : Nat) : (s.count off k).keyRes = s.keyRes := rfl
@[simp] theorem State.count_devnum (s : State) (off k : Nat) : (s.count off k).devnum = s.devnum := rfl
@[simp] theorem State.count_lto (s : State) (off k : Nat) : (s.count off k).lto = s.lto := rfl
@[simp] theorem State.count_routes (s : State) (off k : Nat) : (s.count off k).routes = s.routes := rfl
@[simp] theorem State.count_ports (s : State) (off k : Nat) : (s.count off k).ports = s.ports := rfl
@[simp] theorem State.count_outbox (s : State) (off k : Nat) : (s.count off k).outbox = s.outbox := rfl
@[simp] theorem State.count_remotes (s : State) (off k : Nat) : (s.count off k).remotes = s.remotes := rfl
@[simp] theorem State.count_inbound (s : State) (off k : Nat) : (s.count off k).inbound = s.inbound := rfl
@[simp] theorem State.count_nextTag (s : State) (off k : Nat) : (s.count off k).nextTag = s.nextTag := rfl
@[simp] theorem State.count_start (s : State) (off k : Nat) : (s.count off k).start = s.start := rfl
@[simp] theorem State.count_openRows (s : State) (off k : Nat) : (s.count off k).openRows = s.openRows := rfl
@[simp] theorem State.count_msi (s : State) (off k : Nat) : (s.count off k).msi = s.msi := rfl
@[simp] theorem State.count_hostOut (s : State) (off k : Nat) : (s.count off k).hostOut = s.hostOut := rfl
@[simp] theorem State.count_sched (s : State) (off k : Nat) : (s.count off k).sched = s.sched := rfl
@[simp] theorem State.count_free (s : State) (off k : Nat) : (s.count off k).free = s.free := rfl

/-! ## The registers of the focused thread, and the end of an instruction -/

theorem State.setX_eq (s : State) (r : SReg) (v : Word) : s.setX r v = s.withTh (s.th.setX r v) := rfl
theorem State.setFr_eq (s : State) (r : SReg) (v : Word) : s.setFr r v = s.withTh (s.th.setFr r v) := rfl
theorem State.setCsr_eq (s : State) (c : Csr) (v : Word) : s.setCsr c v = s.withTh (s.th.set c v) := rfl
theorem State.waitOn_eq (s : State) (k : WaitKind) : s.waitOn k =
    s.withTh { s.th with run := .waiting k, finishing := if k.completes then some s.th.pc else none } := rfl
/-- A thread with nothing done ahead is as it is after a merge. -/
theorem State.mergeSeat_of_none (s : State) (n : Nat) (h : (s.seat n).ahead = none) : s.mergeSeat n = s := by
  unfold State.mergeSeat; simp only [h]
/-- A merge leaves memory. -/
@[simp] theorem State.mergeSeat_mem (s : State) (n : Nat) : (s.mergeSeat n).mem = s.mem := by
  unfold State.mergeSeat
  simp only []
  split
  · rfl
  · split
    · rfl
    · unfold State.setSeat; split <;> rfl
@[simp] theorem State.finish_cur (s : State) (t : Thread) (w : Nat) : (s.finish t w).cur = s.cur := rfl
@[simp] theorem State.finish_seats (s : State) (t : Thread) (w : Nat) : (s.finish t w).seats = s.seats := rfl
@[simp] theorem State.finish_cores (s : State) (t : Thread) (w : Nat) : (s.finish t w).cores = s.cores := rfl
@[simp] theorem State.finish_dies (s : State) (t : Thread) (w : Nat) : (s.finish t w).dies = s.dies := rfl
@[simp] theorem State.finish_mem (s : State) (t : Thread) (w : Nat) : (s.finish t w).mem = s.mem := rfl
@[simp] theorem State.finish_lines (s : State) (t : Thread) (w : Nat) : (s.finish t w).lines = s.lines := rfl
@[simp] theorem State.finish_vspTags (s : State) (t : Thread) (w : Nat) : (s.finish t w).vspTags = s.vspTags := rfl
@[simp] theorem State.finish_l1 (s : State) (t : Thread) (w : Nat) : (s.finish t w).l1 = s.l1 := rfl
@[simp] theorem State.finish_slice (s : State) (t : Thread) (w : Nat) : (s.finish t w).slice = s.slice := rfl
@[simp] theorem State.finish_loads (s : State) (t : Thread) (w : Nat) : (s.finish t w).loads = s.loads := rfl
@[simp] theorem State.finish_fetches (s : State) (t : Thread) (w : Nat) : (s.finish t w).fetches = s.fetches := rfl
@[simp] theorem State.finish_tlb (s : State) (t : Thread) (w : Nat) : (s.finish t w).tlb = s.tlb := rfl
@[simp] theorem State.finish_descs (s : State) (t : Thread) (w : Nat) : (s.finish t w).descs = s.descs := rfl
@[simp] theorem State.finish_rounds (s : State) (t : Thread) (w : Nat) : (s.finish t w).rounds = s.rounds := rfl
@[simp] theorem State.finish_aer (s : State) (t : Thread) (w : Nat) : (s.finish t w).aer = s.aer := rfl
@[simp] theorem State.finish_cycle (s : State) (t : Thread) (w : Nat) : (s.finish t w).cycle = s.cycle := rfl
@[simp] theorem State.finish_images (s : State) (t : Thread) (w : Nat) : (s.finish t w).images = s.images := rfl
@[simp] theorem State.finish_copies (s : State) (t : Thread) (w : Nat) : (s.finish t w).copies = s.copies := rfl
@[simp] theorem State.finish_changes (s : State) (t : Thread) (w : Nat) : (s.finish t w).changes = s.changes := rfl
@[simp] theorem State.finish_settleMsgs (s : State) (t : Thread) (w : Nat) : (s.finish t w).settleMsgs = s.settleMsgs := rfl
@[simp] theorem State.finish_queues (s : State) (t : Thread) (w : Nat) : (s.finish t w).queues = s.queues := rfl
@[simp] theorem State.finish_groups (s : State) (t : Thread) (w : Nat) : (s.finish t w).groups = s.groups := rfl
@[simp] theorem State.finish_gangResv (s : State) (t : Thread) (w : Nat) : (s.finish t w).gangResv = s.gangResv := rfl
@[simp] theorem State.finish_rr (s : State) (t : Thread) (w : Nat) : (s.finish t w).rr = s.rr := rfl
@[simp] theorem State.finish_fqs (s : State) (t : Thread) (w : Nat) : (s.finish t w).fqs = s.fqs := rfl
@[simp] theorem State.finish_saved (s : State) (t : Thread) (w : Nat) : (s.finish t w).saved = s.saved := rfl
@[simp] theorem State.finish_nextToken (s : State) (t : Thread) (w : Nat) : (s.finish t w).nextToken = s.nextToken := rfl
@[simp] theorem State.finish_vfs (s : State) (t : Thread) (w : Nat) : (s.finish t w).vfs = s.vfs := rfl
@[simp] theorem State.finish_pfown (s : State) (t : Thread) (w : Nat) : (s.finish t w).pfown = s.pfown := rfl
@[simp] theorem State.finish_pfwin (s : State) (t : Thread) (w : Nat) : (s.finish t w).pfwin = s.pfwin := rfl
@[simp] theorem State.finish_keys (s : State) (t : Thread) (w : Nat) : (s.finish t w).keys = s.keys := rfl
@[simp] theorem State.finish_keyCmd (s : State) (t : Thread) (w : Nat) : (s.finish t w).keyCmd = s.keyCmd := rfl
@[simp] theorem State.finish_keyLid (s : State) (t : Thread) (w : Nat) : (s.finish t w).keyLid = s.keyLid := rfl
@[simp] theorem State.finish_keyRes (s : State) (t : Thread) (w : Nat) : (s.finish t w).keyRes = s.keyRes := rfl
@[simp] theorem State.finish_devnum (s : State) (t : Thread) (w : Nat) : (s.finish t w).devnum = s.devnum := rfl
@[simp] theorem State.finish_lto (s : State) (t : Thread) (w : Nat) : (s.finish t w).lto = s.lto := rfl
@[simp] theorem State.finish_routes (s : State) (t : Thread) (w : Nat) : (s.finish t w).routes = s.routes := rfl
@[simp] theorem State.finish_ports (s : State) (t : Thread) (w : Nat) : (s.finish t w).ports = s.ports := rfl
@[simp] theorem State.finish_outbox (s : State) (t : Thread) (w : Nat) : (s.finish t w).outbox = s.outbox := rfl
@[simp] theorem State.finish_remotes (s : State) (t : Thread) (w : Nat) : (s.finish t w).remotes = s.remotes := rfl
@[simp] theorem State.finish_inbound (s : State) (t : Thread) (w : Nat) : (s.finish t w).inbound = s.inbound := rfl
@[simp] theorem State.finish_nextTag (s : State) (t : Thread) (w : Nat) : (s.finish t w).nextTag = s.nextTag := rfl
@[simp] theorem State.finish_start (s : State) (t : Thread) (w : Nat) : (s.finish t w).start = s.start := rfl
@[simp] theorem State.finish_openRows (s : State) (t : Thread) (w : Nat) : (s.finish t w).openRows = s.openRows := rfl
@[simp] theorem State.finish_msi (s : State) (t : Thread) (w : Nat) : (s.finish t w).msi = s.msi := rfl
@[simp] theorem State.finish_hostOut (s : State) (t : Thread) (w : Nat) : (s.finish t w).hostOut = s.hostOut := rfl
@[simp] theorem State.finish_sched (s : State) (t : Thread) (w : Nat) : (s.finish t w).sched = s.sched := rfl
@[simp] theorem State.finish_free (s : State) (t : Thread) (w : Nat) : (s.finish t w).free = s.free := rfl
@[simp] theorem State.finish_th (s : State) (t : Thread) (w : Nat) : (s.finish t w).th = t.advance w 1 := rfl

/-! ## Scalar, f and control registers read back -/

/-- An entry of a vector reads what was written to it. -/
theorem getD_setIfInBounds_self {α : Type} {n : Nat} (v : Vector α n) (i : Nat) (x d : α) (h : i < n) :
    (v.setIfInBounds i x).getD i d = x := by
  simp [Vector.getD, h]

/-- A write to an entry of a vector leaves the others. -/
theorem getD_setIfInBounds_ne {α : Type} {n : Nat} (v : Vector α n) (i j : Nat) (x d : α) (h : i ≠ j) :
    (v.setIfInBounds i x).getD j d = v.getD j d := by
  simp [Vector.getD, h]

/-- s0 reads zero (R16). -/
@[simp] theorem Thread.x_zero (t : Thread) : t.x 0 = 0 := rfl

/-- A write to s0 is discarded (R16). -/
@[simp] theorem Thread.setX_zero (t : Thread) (v : Word) : t.setX 0 v = t := rfl

/-- A scalar register reads what was written to it. -/
theorem Thread.x_setX_self (t : Thread) (r : SReg) (v : Word) (h : r ≠ 0) : (t.setX r v).x r = v := by
  simp only [Thread.x, Thread.setX, if_neg h]
  exact getD_setIfInBounds_self _ _ _ _ r.isLt

/-- A write to a scalar register leaves the others. -/
theorem Thread.x_setX_ne (t : Thread) (r q : SReg) (v : Word) (h : q ≠ r) : (t.setX r v).x q = t.x q := by
  have hn : r.toNat ≠ q.toNat := fun e => h (BitVec.eq_of_toNat_eq e.symm)
  unfold Thread.x Thread.setX
  split
  · rfl
  · split
    · rfl
    · exact getD_setIfInBounds_ne _ _ _ _ _ hn

/-- An f register reads what was written to it. -/
theorem Thread.fr_setFr_self (t : Thread) (r : SReg) (v : Word) : (t.setFr r v).fr r = v := by
  exact getD_setIfInBounds_self _ _ _ _ r.isLt

/-- A write to an f register leaves the others. -/
theorem Thread.fr_setFr_ne (t : Thread) (r q : SReg) (v : Word) (h : q ≠ r) : (t.setFr r v).fr q = t.fr q := by
  have hn : r.toNat ≠ q.toNat := fun e => h (BitVec.eq_of_toNat_eq e.symm)
  exact getD_setIfInBounds_ne _ _ _ _ _ hn

/-- Two control registers share no place. -/
theorem Csr.idx_inj (a b : Csr) : a.idx = b.idx ↔ a = b := by
  constructor
  · intro h; cases a <;> cases b <;> first | rfl | exact absurd h (by decide)
  · intro h; rw [h]

/-- A control register reads what was written to it. -/
@[simp] theorem Thread.get_set_self (t : Thread) (c : Csr) (v : Word) : (t.set c v).get c = v := by
  simp [Thread.get, Thread.set]

/-- A write to a control register leaves the others. -/
theorem Thread.get_set_ne (t : Thread) (c d : Csr) (v : Word) (h : d ≠ c) : (t.set c v).get d = t.get d := by
  have hn : c.idx ≠ d.idx := fun e => h ((Csr.idx_inj c d).1 e).symm
  have hv : (c.idx : Nat) ≠ (d.idx : Nat) := fun e => hn (Fin.ext e)
  simp [Thread.get, Thread.set, hv]

/-- A scalar write leaves the control registers. -/
@[simp] theorem Thread.setX_get (t : Thread) (r : SReg) (v : Word) (c : Csr) : (t.setX r v).get c = t.get c := by
  unfold Thread.setX; split <;> rfl

@[simp] theorem Thread.setX_f (t : Thread) (r : SReg) (v : Word) : (t.setX r v).f = t.f := by unfold Thread.setX; split <;> rfl
@[simp] theorem Thread.setX_pc (t : Thread) (r : SReg) (v : Word) : (t.setX r v).pc = t.pc := by unfold Thread.setX; split <;> rfl
@[simp] theorem Thread.setX_csr (t : Thread) (r : SReg) (v : Word) : (t.setX r v).csr = t.csr := by unfold Thread.setX; split <;> rfl
@[simp] theorem Thread.setX_slices (t : Thread) (r : SReg) (v : Word) : (t.setX r v).slices = t.slices := by unfold Thread.setX; split <;> rfl
@[simp] theorem Thread.setX_vvalid (t : Thread) (r : SReg) (v : Word) : (t.setX r v).vvalid = t.vvalid := by unfold Thread.setX; split <;> rfl
@[simp] theorem Thread.setX_tb0 (t : Thread) (r : SReg) (v : Word) : (t.setX r v).tb0 = t.tb0 := by unfold Thread.setX; split <;> rfl
@[simp] theorem Thread.setX_tb1 (t : Thread) (r : SReg) (v : Word) : (t.setX r v).tb1 = t.tb1 := by unfold Thread.setX; split <;> rfl
@[simp] theorem Thread.setX_slotValid (t : Thread) (r : SReg) (v : Word) : (t.setX r v).slotValid = t.slotValid := by unfold Thread.setX; split <;> rfl
@[simp] theorem Thread.setX_run (t : Thread) (r : SReg) (v : Word) : (t.setX r v).run = t.run := by unfold Thread.setX; split <;> rfl
@[simp] theorem Thread.setX_lsq (t : Thread) (r : SReg) (v : Word) : (t.setX r v).lsq = t.lsq := by unfold Thread.setX; split <;> rfl
@[simp] theorem Thread.setX_vq (t : Thread) (r : SReg) (v : Word) : (t.setX r v).vq = t.vq := by unfold Thread.setX; split <;> rfl
@[simp] theorem Thread.setX_fx (t : Thread) (r : SReg) (v : Word) : (t.setX r v).fx = t.fx := by unfold Thread.setX; split <;> rfl
@[simp] theorem Thread.setX_copySeq (t : Thread) (r : SReg) (v : Word) : (t.setX r v).copySeq = t.copySeq := by unfold Thread.setX; split <;> rfl
@[simp] theorem Thread.setX_wake (t : Thread) (r : SReg) (v : Word) : (t.setX r v).wake = t.wake := by unfold Thread.setX; split <;> rfl
@[simp] theorem Thread.setX_lastRange (t : Thread) (r : SReg) (v : Word) : (t.setX r v).lastRange = t.lastRange := by unfold Thread.setX; split <;> rfl
@[simp] theorem Thread.setX_lastRecv (t : Thread) (r : SReg) (v : Word) : (t.setX r v).lastRecv = t.lastRecv := by unfold Thread.setX; split <;> rfl
@[simp] theorem Thread.setX_waitStart (t : Thread) (r : SReg) (v : Word) : (t.setX r v).waitStart = t.waitStart := by unfold Thread.setX; split <;> rfl
@[simp] theorem Thread.setX_waitUsed (t : Thread) (r : SReg) (v : Word) : (t.setX r v).waitUsed = t.waitUsed := by unfold Thread.setX; split <;> rfl
@[simp] theorem Thread.setX_grp (t : Thread) (r : SReg) (v : Word) : (t.setX r v).grp = t.grp := by unfold Thread.setX; split <;> rfl
@[simp] theorem Thread.setX_gang (t : Thread) (r : SReg) (v : Word) : (t.setX r v).gang = t.gang := by unfold Thread.setX; split <;> rfl
@[simp] theorem Thread.setX_prio (t : Thread) (r : SReg) (v : Word) : (t.setX r v).prio = t.prio := by unfold Thread.setX; split <;> rfl
@[simp] theorem Thread.setX_placedAt (t : Thread) (r : SReg) (v : Word) : (t.setX r v).placedAt = t.placedAt := by unfold Thread.setX; split <;> rfl
@[simp] theorem Thread.setX_held (t : Thread) (r : SReg) (v : Word) : (t.setX r v).held = t.held := by unfold Thread.setX; split <;> rfl
@[simp] theorem Thread.setX_stopping (t : Thread) (r : SReg) (v : Word) : (t.setX r v).stopping = t.stopping := by unfold Thread.setX; split <;> rfl
@[simp] theorem Thread.setX_ceilFell (t : Thread) (r : SReg) (v : Word) : (t.setX r v).ceilFell = t.ceilFell := by unfold Thread.setX; split <;> rfl
@[simp] theorem Thread.setX_finishing (t : Thread) (r : SReg) (v : Word) : (t.setX r v).finishing = t.finishing := by unfold Thread.setX; split <;> rfl
@[simp] theorem Thread.setX_ahead (t : Thread) (r : SReg) (v : Word) : (t.setX r v).ahead = t.ahead := by unfold Thread.setX; split <;> rfl
@[simp] theorem Thread.setX_exitRoutine (t : Thread) (r : SReg) (v : Word) : (t.setX r v).exitRoutine = t.exitRoutine := by unfold Thread.setX; split <;> rfl
@[simp] theorem Thread.setX_removed (t : Thread) (r : SReg) (v : Word) : (t.setX r v).removed = t.removed := by unfold Thread.setX; split <;> rfl
@[simp] theorem Thread.setX_cbarIn (t : Thread) (r : SReg) (v : Word) : (t.setX r v).cbarIn = t.cbarIn := by unfold Thread.setX; split <;> rfl
@[simp] theorem Thread.setX_cbarArrived (t : Thread) (r : SReg) (v : Word) : (t.setX r v).cbarArrived = t.cbarArrived := by unfold Thread.setX; split <;> rfl
@[simp] theorem Thread.setX_cbarPassed (t : Thread) (r : SReg) (v : Word) : (t.setX r v).cbarPassed = t.cbarPassed := by unfold Thread.setX; split <;> rfl
@[simp] theorem Thread.setX_fxFlags (t : Thread) (r : SReg) (v : Word) : (t.setX r v).fxFlags = t.fxFlags := by unfold Thread.setX; split <;> rfl
@[simp] theorem Thread.setX_fxStores (t : Thread) (r : SReg) (v : Word) : (t.setX r v).fxStores = t.fxStores := by unfold Thread.setX; split <;> rfl
@[simp] theorem Thread.setX_fxBase (t : Thread) (r : SReg) (v : Word) : (t.setX r v).fxBase = t.fxBase := by unfold Thread.setX; split <;> rfl
@[simp] theorem Thread.setX_trapKind (t : Thread) (r : SReg) (v : Word) : (t.setX r v).trapKind = t.trapKind := by unfold Thread.setX; split <;> rfl
@[simp] theorem Thread.setX_lowered (t : Thread) (r : SReg) (v : Word) : (t.setX r v).lowered = t.lowered := by unfold Thread.setX; split <;> rfl
@[simp] theorem Thread.setX_ceilHeld (t : Thread) (r : SReg) (v : Word) : (t.setX r v).ceilHeld = t.ceilHeld := by unfold Thread.setX; split <;> rfl

/-! ## Taking an exception -/

/-- The trap entry changes the focused thread, and beside it only the poison of a line and a counter. -/
theorem State.takeTrap_mem (s : State) (x : Trap) : (s.takeTrap x).mem = s.mem := by
  unfold State.takeTrap State.poisonLine State.count State.withTh
  cases x.poisons <;> (simp only []; split <;> split <;> rfl)

/-- A trap that poisons no line and is no *poison consumed*, of a thread that goes to the supervisor (R42). -/
theorem State.takeTrap_super (s : State) (x : Trap) (hp : x.poisons = none) (hc : x.cause ≠ 0x0D)
    (hu : (s.th.toUser x && !s.th.exitRoutine) = false) : s.takeTrap x = s.withTh (s.th.enterSuper x) := by
  simp only [State.takeTrap, hp, if_neg hc, hu, Bool.false_eq_true, if_false]

end Sys2Proof.Machine
end

