-- ==== Sys2Proof/Laws/Elements.lean ====
section
/-! SUPPORT. Vector elements read back: what a write of one element, and the element loop, leave and set
(spec/01_state.md R19 to R26; spec/06_vector_integer_instructions.md R158). -/

namespace Sys2Proof.Machine

/-- An element of width `w` at slice bit `b` lies inside one register. -/
def Thread.inReg (t : Thread) (b w : Nat) : Prop := b % t.regBits + w ≤ t.regBits

/-- Bit `j` of an element. -/
theorem Thread.testBit_elem (t : Thread) (n w i j : Nat) :
    (t.elem n w i).testBit j = (decide (j < w) && decide (t.lanes ≠ 0) && t.vvalid.getLsbD (t.regAt (t.bitAt n w i)) &&
      (t.slices.getD (i % t.lanes) 0).getLsbD (t.bitAt n w i + j)) := by
  unfold Thread.elem
  simp only []
  by_cases hl : t.lanes = 0
  · simp [hl]
  · by_cases hv : t.vvalid.getLsbD (t.regAt (t.bitAt n w i)) = true
    · simp only [hl, hv, Bool.not_true, Bool.false_eq_true, or_self, if_false, BitVec.testBit_toNat, BitVec.getLsbD_extractLsb']
      simp [hl]
    · simp [hl, hv]

/-- A run of `w` ones at bit `b`. -/
theorem getLsbD_hole (b w k : Nat) :
    ((BitVec.ofNat 8192 (2 ^ w - 1)) <<< b).getLsbD k = (decide (b ≤ k) && decide (k < b + w) && decide (k < 8192)) := by
  rw [BitVec.getLsbD_shiftLeft, BitVec.getLsbD_ofNat, Nat.testBit_two_pow_sub_one]
  by_cases h1 : b ≤ k <;> by_cases h2 : k < b + w <;> by_cases h3 : k < 8192 <;> simp [h1, h2, h3] <;> omega

/-- Bits replaced at `b`. -/
theorem getLsbD_insert (x : BitVec 8192) (b w v k : Nat) :
    ((x &&& ~~~ ((BitVec.ofNat 8192 (2 ^ w - 1)) <<< b)) ||| ((BitVec.ofNat 8192 (v % 2 ^ w)) <<< b)).getLsbD k =
      (if b ≤ k ∧ k < b + w then decide (k < 8192) && v.testBit (k - b) else x.getLsbD k) := by
  rw [BitVec.getLsbD_or, BitVec.getLsbD_and, BitVec.getLsbD_not, getLsbD_hole, BitVec.getLsbD_shiftLeft, BitVec.getLsbD_ofNat,
    Nat.testBit_mod_two_pow]
  by_cases h3 : k < 8192
  · by_cases h1 : b ≤ k
    · by_cases h2 : k < b + w
      · have : k - b < w := by omega
        have : k - b < 8192 := by omega
        have : ¬ k < b := by omega
        simp [*]
      · have : ¬ k - b < w := by omega
        simp [*]
    · have : k < b := by omega
      simp [*]
  · have : x.getLsbD k = false := BitVec.getLsbD_of_ge x k (by omega)
    simp [*]

/-! ## What the writes leave -/

@[simp] theorem Thread.validate_csr (t : Thread) (n : Nat) : (t.validate n).csr = t.csr := by unfold Thread.validate; split <;> rfl
@[simp] theorem Thread.setElem_csr (t : Thread) (n w i v : Nat) : (t.setElem n w i v).csr = t.csr := by
  unfold Thread.setElem; split
  · rfl
  · exact Thread.validate_csr t _
@[simp] theorem Thread.setElem_get (t : Thread) (n w i v : Nat) (c : Csr) : (t.setElem n w i v).get c = t.get c := by
  unfold Thread.get; rw [Thread.setElem_csr]
@[simp] theorem Thread.setElem_lanes (t : Thread) (n w i v : Nat) : (t.setElem n w i v).lanes = t.lanes := by
  unfold Thread.lanes Thread.octets; rw [Thread.setElem_get]
@[simp] theorem Thread.setElem_portion (t : Thread) (n w i v : Nat) : (t.setElem n w i v).portion = t.portion := by
  unfold Thread.portion Thread.nreg; rw [Thread.setElem_get]
@[simp] theorem Thread.setElem_bitAt (t : Thread) (n w i v m u j : Nat) :
    (t.setElem n w i v).bitAt m u j = t.bitAt m u j := by
  unfold Thread.bitAt; rw [Thread.setElem_portion, Thread.setElem_lanes]
@[simp] theorem Thread.setElem_regAt (t : Thread) (n w i v b : Nat) : (t.setElem n w i v).regAt b = t.regAt b := by
  unfold Thread.regAt; rw [Thread.setElem_portion]
@[simp] theorem Thread.setElem_regBits (t : Thread) (n w i v : Nat) : (t.setElem n w i v).regBits = t.regBits := by
  unfold Thread.regBits; rw [Thread.setElem_portion]

@[simp] theorem Thread.validate_lanes (t : Thread) (n : Nat) : (t.validate n).lanes = t.lanes := by
  unfold Thread.lanes Thread.octets Thread.get; rw [Thread.validate_csr]

/-- An entry of a vector whose entries a function has changed. -/
theorem getD_map {α : Type} {n : Nat} (v : Vector α n) (f : α → α) (i : Nat) (d : α) (h : i < n) :
    (v.map f).getD i d = f (v.getD i d) := by
  simp [Vector.getD, h]

/-- Which registers are valid after a write: the one written, and those that were. -/
theorem Thread.setElem_valid (t : Thread) (n w i v r : Nat) (hl : t.lanes ≠ 0) :
    (t.setElem n w i v).vvalid.getLsbD r =
      (t.vvalid.getLsbD r || (decide (r < 64) && decide (r = t.regAt (t.bitAt n w i)))) := by
  unfold Thread.setElem Thread.validate
  simp only [hl, if_false]
  split
  · next h =>
    by_cases hr : r = t.regAt (t.bitAt n w i)
    · subst hr; simp [h]
    · simp [hr]
  · next h =>
    simp only [BitVec.getLsbD_or, BitVec.getLsbD_shiftLeft]
    by_cases hr : r = t.regAt (t.bitAt n w i)
    · subst hr
      by_cases hb : t.regAt (t.bitAt n w i) < 64 <;> simp [hb]
    · have hone : (1#64).getLsbD (r - t.regAt (t.bitAt n w i)) = decide (r - t.regAt (t.bitAt n w i) = 0) := by
        rw [BitVec.getLsbD_one]; simp
      rw [hone]
      by_cases hb : r < t.regAt (t.bitAt n w i)
      · simp [hr, hb]
      · have : ¬ r - t.regAt (t.bitAt n w i) = 0 := by omega
        simp [hr, this]

/-- What lane `l` holds at slice bit `k` after a write. -/
theorem Thread.setElem_slice (t : Thread) (n w i v l k : Nat) (hl : t.lanes ≠ 0) (hs : l < 64) :
    ((t.setElem n w i v).slices.getD l 0).getLsbD k =
      (if l = i % t.lanes ∧ t.bitAt n w i ≤ k ∧ k < t.bitAt n w i + w then
        decide (k < 8192) && v.testBit (k - t.bitAt n w i)
      else if t.vvalid.getLsbD (t.regAt (t.bitAt n w i)) = false ∧ t.regAt (t.bitAt n w i) * t.regBits ≤ k ∧
          k < t.regAt (t.bitAt n w i) * t.regBits + t.regBits then false
      else (t.slices.getD l 0).getLsbD k) := by
  have key : ((t.validate (t.regAt (t.bitAt n w i))).slices.getD l 0).getLsbD k =
      (if t.vvalid.getLsbD (t.regAt (t.bitAt n w i)) = false ∧ t.regAt (t.bitAt n w i) * t.regBits ≤ k ∧
          k < t.regAt (t.bitAt n w i) * t.regBits + t.regBits then false
      else (t.slices.getD l 0).getLsbD k) := by
    unfold Thread.validate
    split
    · next h => simp [h]
    · next h =>
      have hf : t.vvalid.getLsbD (t.regAt (t.bitAt n w i)) = false := by simpa using h
      rw [getD_map _ _ _ _ hs, BitVec.getLsbD_and, BitVec.getLsbD_not, Nat.mul_assoc, getLsbD_hole]
      simp only [hf, true_and, Thread.regBits]
      by_cases h3 : k < 8192
      · by_cases h1 : t.regAt (t.bitAt n w i) * (t.portion * 32) ≤ k <;>
          by_cases h2 : k < t.regAt (t.bitAt n w i) * (t.portion * 32) + t.portion * 32 <;> simp [h1, h2, h3]
      · have : (t.slices.getD l 0).getLsbD k = false := BitVec.getLsbD_of_ge _ k (by omega)
        rw [this]; simp
  unfold Thread.setElem
  simp only [hl, if_false, Thread.validate_lanes]
  by_cases hi : i % t.lanes = l
  · subst hi
    rw [getD_setIfInBounds_self _ _ _ _ hs]
    rw [getLsbD_insert]
    simp only [true_and]
    split
    · rfl
    · exact key
  · rw [getD_setIfInBounds_ne _ _ _ _ _ hi, key]
    have : ¬ l = i % t.lanes := fun e => hi e.symm
    simp [this]

/-- An element reads what was written to it, cut to its width (R20). -/
theorem Thread.elem_setElem_self (t : Thread) (n w i v : Nat) (hl : t.lanes ≠ 0) (h64 : t.lanes ≤ 64)
    (hb : t.bitAt n w i + w ≤ 8192) (hr : t.regAt (t.bitAt n w i) < 64) :
    (t.setElem n w i v).elem n w i = v % 2 ^ w := by
  apply Nat.eq_of_testBit_eq
  intro j
  have hs : i % t.lanes < 64 := Nat.lt_of_lt_of_le (Nat.mod_lt _ (Nat.pos_of_ne_zero hl)) h64
  rw [Thread.testBit_elem, Thread.setElem_bitAt, Thread.setElem_regAt, Thread.setElem_lanes,
    Thread.setElem_valid _ _ _ _ _ _ hl, Thread.setElem_slice _ _ _ _ _ _ _ hl hs, Nat.testBit_mod_two_pow]
  by_cases hj : j < w
  · have h1 : t.bitAt n w i + j < 8192 := by omega
    simp [hj, hl, hr, h1]
  · simp [hj]

/-- A write leaves every element of another lane or of other bits (R20, R26). -/
theorem Thread.elem_setElem_ne (t : Thread) (n w i v m u j : Nat) (hl : t.lanes ≠ 0) (h64 : t.lanes ≤ 64)
    (hu : t.inReg (t.bitAt m u j) u) (hw : t.inReg (t.bitAt n w i) w) (h0 : 0 < w)
    (hd : i % t.lanes ≠ j % t.lanes ∨ t.bitAt n w i + w ≤ t.bitAt m u j ∨ t.bitAt m u j + u ≤ t.bitAt n w i) :
    (t.setElem n w i v).elem m u j = t.elem m u j := by
  apply Nat.eq_of_testBit_eq
  intro k
  have hs : j % t.lanes < 64 := Nat.lt_of_lt_of_le (Nat.mod_lt _ (Nat.pos_of_ne_zero hl)) h64
  rw [Thread.testBit_elem, Thread.testBit_elem, Thread.setElem_bitAt, Thread.setElem_regAt, Thread.setElem_lanes,
    Thread.setElem_valid _ _ _ _ _ _ hl, Thread.setElem_slice _ _ _ _ _ _ _ hl hs]
  by_cases hk : k < u
  · have hn : ¬ (j % t.lanes = i % t.lanes ∧ t.bitAt n w i ≤ t.bitAt m u j + k ∧ t.bitAt m u j + k < t.bitAt n w i + w) := by
      rintro ⟨h1, h2, h3⟩
      rcases hd with h | h | h
      · exact h h1.symm
      · omega
      · omega
    rw [if_neg hn]
    have hp : 0 < t.regBits := by
      unfold Thread.inReg at hw
      omega
    have hdm := Nat.div_add_mod (t.bitAt m u j) t.regBits
    have hreg : t.regAt (t.bitAt m u j) = t.bitAt m u j / t.regBits := rfl
    have hreg' : t.regAt (t.bitAt n w i) = t.bitAt n w i / t.regBits := rfl
    unfold Thread.inReg at hu hw
    by_cases hv : t.vvalid.getLsbD (t.regAt (t.bitAt n w i)) = true
    · simp only [hv, Bool.true_eq_false, false_and, if_false]
      by_cases he : t.regAt (t.bitAt m u j) = t.regAt (t.bitAt n w i)
      · rw [he, hv]; simp
      · simp [he]
    · have hv' : t.vvalid.getLsbD (t.regAt (t.bitAt n w i)) = false := by simpa using hv
      by_cases he : t.regAt (t.bitAt m u j) = t.regAt (t.bitAt n w i)
      · rw [he, hv']
        have hc : t.regAt (t.bitAt n w i) * t.regBits ≤ t.bitAt m u j + k ∧
            t.bitAt m u j + k < t.regAt (t.bitAt n w i) * t.regBits + t.regBits := by
          rw [← he, hreg, Nat.mul_comm]
          generalize t.regBits * (t.bitAt m u j / t.regBits) = q at *
          omega
        simp [hc]
      · have hc : ¬ (t.regAt (t.bitAt n w i) * t.regBits ≤ t.bitAt m u j + k ∧
            t.bitAt m u j + k < t.regAt (t.bitAt n w i) * t.regBits + t.regBits) := by
          rintro ⟨h1, h2⟩
          apply he
          rw [hreg]
          have h3 : t.bitAt m u j + k < (t.regAt (t.bitAt n w i) + 1) * t.regBits := by rw [Nat.add_mul]; omega
          have h4 : (t.bitAt m u j + k) / t.regBits = t.regAt (t.bitAt n w i) :=
            Nat.div_eq_of_lt_le (by omega) h3
          have h5 : (t.bitAt m u j + k) / t.regBits = t.bitAt m u j / t.regBits := by
            apply Nat.div_eq_of_lt_le
            · rw [Nat.mul_comm]; omega
            · rw [Nat.add_mul, Nat.one_mul, Nat.mul_comm]; omega
          rw [← h4, h5]
        simp [hv', hc, he]
  · simp [hk]

/-- Only the vector registers differ. -/
def Thread.vecOnly (t u : Thread) : Prop := u = { t with slices := u.slices, vvalid := u.vvalid }

/-- A thread differs from itself in nothing. -/
theorem Thread.vecOnly_refl (t : Thread) : t.vecOnly t := rfl

/-- Vector writes one after the other. -/
theorem Thread.vecOnly_trans {t u v : Thread} (h : t.vecOnly u) (k : u.vecOnly v) : t.vecOnly v := by
  unfold Thread.vecOnly at *
  rw [k, h]

/-- A register made valid changes only the vector registers. -/
theorem Thread.vecOnly_validate (t : Thread) (n : Nat) : t.vecOnly (t.validate n) := by
  unfold Thread.validate; split <;> rfl

/-- A write of one element changes only the vector registers. -/
theorem Thread.vecOnly_setElem (t : Thread) (n w i v : Nat) : t.vecOnly (t.setElem n w i v) := by
  unfold Thread.setElem
  split
  · rfl
  · have h := Thread.vecOnly_validate t (t.regAt (t.bitAt n w i))
    unfold Thread.vecOnly at *
    simp only []
    rw [h]

/-- A write of one element of any width changes only the vector registers. -/
theorem Thread.vecOnly_setAt (t : Thread) (n w i v : Nat) : t.vecOnly (t.setAt n w i v) := by
  unfold Thread.setAt Thread.setNibble
  split
  · exact Thread.vecOnly_setElem _ _ _ _ _
  · exact Thread.vecOnly_setElem _ _ _ _ _

/-- A fold of vector writes changes only the vector registers. -/
theorem Thread.vecOnly_foldl {α : Type} (f : Thread → α → Thread) (hf : ∀ (t : Thread) (a : α), t.vecOnly (f t a)) :
    ∀ (l : List α) (t : Thread), t.vecOnly (l.foldl f t)
  | [], t => t.vecOnly_refl
  | a :: l, t => Thread.vecOnly_trans (hf t a) (Thread.vecOnly_foldl f hf l (f t a))

/-- Writes of given elements change only the vector registers. -/
theorem Thread.vecOnly_setElems (t : Thread) (n w : Nat) (es : List (Nat × Nat)) : t.vecOnly (t.setElems n w es) := by
  unfold Thread.setElems
  exact Thread.vecOnly_foldl (fun (t : Thread) (e : Nat × Nat) => t.setElem n w e.1 e.2)
    (fun t e => Thread.vecOnly_setElem t n w e.1 e.2) es t

/-- The element loop changes only the vector registers. -/
theorem State.vecOnly_loopOpt (s : State) (md : VMod) (vd w lo hi : Nat) (f : Nat → Option Nat) :
    s.th.vecOnly (s.loopOpt md vd w lo hi f) := by
  refine Thread.vecOnly_foldl (fun (t : Thread) (k : Nat) =>
    if s.th.active md (lo + k) then (match f (lo + k) with | some v => t.setElem vd w (lo + k) v | none => t)
    else if vtMd s.th.vt then s.deadElem t vd w (lo + k)
    else t) (fun t k => ?_) (List.range (hi - lo)) s.th
  split
  · split
    · exact Thread.vecOnly_setElem _ _ _ _ _
    · exact Thread.vecOnly_refl t
  · split
    · exact Thread.vecOnly_setAt _ _ _ _ _
    · exact Thread.vecOnly_refl t

/-! ## The element loop -/

/-- The first `hi` elements of width `w` of the group that starts at register `n` lie in registers the shape has, and the
thread has lanes. -/
def Thread.fits (t : Thread) (n w hi : Nat) : Prop :=
  t.lanes ≠ 0 ∧ t.lanes ≤ 64 ∧ 0 < w ∧ w ≠ 4 ∧ w ∣ t.regBits ∧
    ∀ i < hi, t.bitAt n w i + w ≤ 8192 ∧ t.regAt (t.bitAt n w i) < 64

/-- An element whose width divides a register's bits lies inside one register. -/
theorem Thread.inReg_of_dvd (t : Thread) (n w i : Nat) (hd : w ∣ t.regBits) (hp : 0 < t.regBits) :
    t.inReg (t.bitAt n w i) w := by
  unfold Thread.inReg
  obtain ⟨q, hq⟩ := hd
  have hb : t.bitAt n w i = w * (n * q + i / t.lanes) := by
    have : t.bitAt n w i = n * t.regBits + i / t.lanes * w := by unfold Thread.bitAt Thread.regBits; rw [Nat.mul_assoc]
    rw [this, hq, Nat.mul_add, Nat.mul_left_comm, Nat.mul_comm w (i / t.lanes)]
  have hq0 : 0 < q := Nat.pos_of_ne_zero (fun e => by rw [hq, e] at hp; omega)
  rw [hb, hq, Nat.mul_mod_mul_left]
  have := Nat.mod_lt (n * q + i / t.lanes) hq0
  calc w * ((n * q + i / t.lanes) % q) + w = w * ((n * q + i / t.lanes) % q + 1) := by rw [Nat.mul_add, Nat.mul_one]
    _ ≤ w * q := Nat.mul_le_mul_left w this

/-- Two elements of one group share neither lane nor bits. -/
theorem Thread.elems_disjoint (t : Thread) (n w i j : Nat) (h : i ≠ j) :
    i % t.lanes ≠ j % t.lanes ∨ t.bitAt n w i + w ≤ t.bitAt n w j ∨ t.bitAt n w j + w ≤ t.bitAt n w i := by
  by_cases hm : i % t.lanes = j % t.lanes
  · right
    have hne : i / t.lanes ≠ j / t.lanes := fun e => h (by
      rw [← Nat.div_add_mod i t.lanes, ← Nat.div_add_mod j t.lanes, e, hm])
    unfold Thread.bitAt
    rcases Nat.lt_or_gt_of_ne hne with hlt | hlt
    · left
      have : (i / t.lanes + 1) * w ≤ j / t.lanes * w := Nat.mul_le_mul_right w hlt
      rw [Nat.add_mul, Nat.one_mul] at this
      omega
    · right
      have : (j / t.lanes + 1) * w ≤ i / t.lanes * w := Nat.mul_le_mul_right w hlt
      rw [Nat.add_mul, Nat.one_mul] at this
      omega
  · exact Or.inl hm

/-- What one turn of the loop writes to unit `i`, if it writes. -/
def State.unitValue (s : State) (md : VMod) (vd w i : Nat) (f : Nat → Option Nat) : Option Nat :=
  if s.th.active md i then f i
  else if vtMd s.th.vt then
    some (deadValue (Config.deadChoice (s.pick (vd * 2 ^ 20 + i))) w (s.th.getAt vd w i))
  else none

/-- The loop as writes of the units that have a value. -/
theorem State.loopOpt_eq (s : State) (md : VMod) (vd w lo hi : Nat) (f : Nat → Option Nat) (h4 : w ≠ 4) :
    s.loopOpt md vd w lo hi f = (List.range (hi - lo)).foldl (fun (t : Thread) k =>
      match s.unitValue md vd w (lo + k) f with | some v => t.setElem vd w (lo + k) v | none => t) s.th := by
  unfold State.loopOpt
  congr 1
  funext t k
  unfold State.unitValue
  split
  · rfl
  · split
    · simp only [State.deadElem, Thread.setAt, h4, if_false]
    · rfl

/-- A run of element writes: the control registers stay, each unit written holds its value, and what lies elsewhere stays. -/
theorem Thread.writes (t : Thread) (n w lo : Nat) (g : Nat → Option Nat) (k hi : Nat) (hk : lo + k ≤ hi) (h : t.fits n w hi) :
    let u := (List.range k).foldl (fun (t : Thread) k =>
      match g (lo + k) with | some v => t.setElem n w (lo + k) v | none => t) t
    u.csr = t.csr ∧
    (∀ i < hi, u.elem n w i = if lo ≤ i ∧ i < lo + k then (match g i with | some v => v % 2 ^ w | none => t.elem n w i)
      else t.elem n w i) ∧
    (∀ m c j, t.inReg (t.bitAt m c j) c → (∀ i, lo ≤ i → i < lo + k → i % t.lanes ≠ j % t.lanes ∨
      t.bitAt n w i + w ≤ t.bitAt m c j ∨ t.bitAt m c j + c ≤ t.bitAt n w i) → u.elem m c j = t.elem m c j) := by
  obtain ⟨hl, h64, h0, h4, hd, hin⟩ := h
  have hp : 0 < t.regBits := by
    by_cases hlo : lo < hi
    · have := (hin lo hlo).2
      unfold Thread.regBits
      apply Nat.pos_of_ne_zero
      intro e
      have hport : t.portion = 0 := by omega
      have hn : t.nreg ∣ 256 := by
        unfold Thread.nreg nregOf
        have : (t.get .vshape).toNat % 4 < 4 := Nat.mod_lt _ (by decide)
        generalize (t.get .vshape).toNat % 4 = q at *
        match q, this with
        | 0, _ => decide
        | 1, _ => decide
        | 2, _ => decide
        | 3, _ => decide
      unfold Thread.portion at hport
      obtain ⟨c, hc⟩ := hn
      have hpos : 0 < t.nreg := Nat.pos_of_ne_zero (fun e => by rw [e] at hc; omega)
      have : t.nreg * c / t.nreg = c := Nat.mul_div_cancel_left c hpos
      rw [← hc, hport] at this
      rw [← this] at hc
      omega
    · apply Nat.pos_of_ne_zero
      intro e
      have hn : t.nreg = 8 ∨ t.nreg = 16 ∨ t.nreg = 32 ∨ t.nreg = 64 := by
        unfold Thread.nreg nregOf
        have : (t.get .vshape).toNat % 4 < 4 := Nat.mod_lt _ (by decide)
        generalize (t.get .vshape).toNat % 4 = q at *
        match q, this with
        | 0, _ => decide
        | 1, _ => decide
        | 2, _ => decide
        | 3, _ => decide
      unfold Thread.regBits Thread.portion at e
      rcases hn with h | h | h | h <;> rw [h] at e <;> omega
  intro u
  show u.csr = t.csr ∧ _
  induction k with
  | zero =>
    refine ⟨rfl, fun i hi => ?_, fun m c j _ _ => rfl⟩
    rw [if_neg (by omega)]; rfl
  | succ k ih =>
    have ih' := ih (by omega)
    simp only [] at ih'
    have hu : u = (match g (lo + k) with
        | some v => ((List.range k).foldl (fun (t : Thread) k =>
            match g (lo + k) with | some v => t.setElem n w (lo + k) v | none => t) t).setElem n w (lo + k) v
        | none => (List.range k).foldl (fun (t : Thread) k =>
            match g (lo + k) with | some v => t.setElem n w (lo + k) v | none => t) t) := by
      simp only [u, List.range_succ, List.foldl_append, List.foldl_cons, List.foldl_nil]
    generalize (List.range k).foldl (fun (t : Thread) k =>
      match g (lo + k) with | some v => t.setElem n w (lo + k) v | none => t) t = p at ih' hu
    obtain ⟨hc, he, ho⟩ := ih'
    have gc : ∀ c, p.get c = t.get c := fun c => by unfold Thread.get; rw [hc]
    have glanes : p.lanes = t.lanes := by unfold Thread.lanes Thread.octets; rw [gc]
    have gport : p.portion = t.portion := by unfold Thread.portion Thread.nreg; rw [gc]
    have gbit : ∀ m c j, p.bitAt m c j = t.bitAt m c j := fun m c j => by unfold Thread.bitAt; rw [gport, glanes]
    have greg : ∀ b, p.regAt b = t.regAt b := fun b => by unfold Thread.regAt; rw [gport]
    have grb : p.regBits = t.regBits := by unfold Thread.regBits; rw [gport]
    have gin : ∀ b c, p.inReg b c ↔ t.inReg b c := fun b c => by unfold Thread.inReg; rw [grb]
    cases hg : g (lo + k) with
    | none =>
      rw [hg] at hu
      simp only [] at hu
      rw [hu]
      refine ⟨hc, fun i hi' => ?_, fun m c j hr hdis => ho m c j hr (fun i h1 h2 => hdis i h1 (by omega))⟩
      rw [he i hi']
      by_cases h1 : lo ≤ i ∧ i < lo + k
      · rw [if_pos h1, if_pos (by omega)]
      · rw [if_neg h1]
        by_cases h2 : i = lo + k
        · subst h2; rw [if_pos (by omega), hg]
        · rw [if_neg (by omega)]
    | some v =>
      rw [hg] at hu
      simp only [] at hu
      rw [hu]
      refine ⟨by rw [Thread.setElem_csr, hc], fun i hi' => ?_, fun m c j hr hdis => ?_⟩
      · by_cases h2 : i = lo + k
        · subst h2
          rw [if_pos (by omega), hg]
          exact Thread.elem_setElem_self p n w (lo + k) v (by rw [glanes]; exact hl) (by rw [glanes]; exact h64)
            (by rw [gbit]; exact (hin _ hi').1) (by rw [gbit, greg]; exact (hin _ hi').2)
        · rw [Thread.elem_setElem_ne p n w (lo + k) v n w i (by rw [glanes]; exact hl) (by rw [glanes]; exact h64)
            (by rw [gin, gbit]; exact t.inReg_of_dvd n w i hd hp) (by rw [gin, gbit]; exact t.inReg_of_dvd n w (lo + k) hd hp) h0
            (by rw [gbit, gbit, glanes]; exact t.elems_disjoint n w (lo + k) i (fun e => h2 e.symm)), he i hi']
          by_cases h1 : lo ≤ i ∧ i < lo + k
          · rw [if_pos h1, if_pos (by omega)]
          · rw [if_neg h1, if_neg (by omega)]
      · rw [Thread.elem_setElem_ne p n w (lo + k) v m c j (by rw [glanes]; exact hl) (by rw [glanes]; exact h64)
          (by rw [gin, gbit]; exact hr) (by rw [gin, gbit]; exact t.inReg_of_dvd n w (lo + k) hd hp) h0
          (by rw [gbit, gbit, glanes]; exact hdis (lo + k) (by omega) (by omega))]
        exact ho m c j hr (fun i h1 h2 => hdis i h1 (by omega))

/-- R158: a unit of the loop holds what the loop writes there, and every other unit of the group what it held. -/
theorem State.loopOpt_elem (s : State) (md : VMod) (vd w lo hi : Nat) (f : Nat → Option Nat) (h : s.th.fits vd w hi)
    (i : Nat) (hi' : i < hi) : (s.loopOpt md vd w lo hi f).elem vd w i =
      if lo ≤ i then (match s.unitValue md vd w i f with | some v => v % 2 ^ w | none => s.th.elem vd w i)
      else s.th.elem vd w i := by
  rw [State.loopOpt_eq s md vd w lo hi f h.2.2.2.1]
  by_cases hlo : lo ≤ hi
  · have := (Thread.writes s.th vd w lo (fun i => s.unitValue md vd w i f) (hi - lo) hi (by omega) h).2.1 i hi'
    rw [this]
    by_cases h1 : lo ≤ i
    · rw [if_pos (by omega), if_pos h1]
    · rw [if_neg (by omega), if_neg h1]
  · rw [if_neg (by omega)]
    have : hi - lo = 0 := by omega
    rw [this]; rfl

/-- R158: the loop leaves every element that shares neither lane nor bits with a unit from `lo` to `hi`. -/
theorem State.loopOpt_elem_ne (s : State) (md : VMod) (vd w lo hi : Nat) (f : Nat → Option Nat) (h : s.th.fits vd w hi)
    (m c j : Nat) (hr : s.th.inReg (s.th.bitAt m c j) c)
    (hd : ∀ i, lo ≤ i → i < hi → i % s.th.lanes ≠ j % s.th.lanes ∨
      s.th.bitAt vd w i + w ≤ s.th.bitAt m c j ∨ s.th.bitAt m c j + c ≤ s.th.bitAt vd w i) :
    (s.loopOpt md vd w lo hi f).elem m c j = s.th.elem m c j := by
  rw [State.loopOpt_eq s md vd w lo hi f h.2.2.2.1]
  by_cases hlo : lo ≤ hi
  · exact (Thread.writes s.th vd w lo (fun i => s.unitValue md vd w i f) (hi - lo) hi (by omega) h).2.2 m c j hr
      (fun i h1 h2 => hd i h1 (by omega))
  · have : hi - lo = 0 := by omega
    rw [this]; rfl

/-- The loop leaves the control registers. -/
@[simp] theorem State.loopOpt_csr (s : State) (md : VMod) (vd w lo hi : Nat) (f : Nat → Option Nat) :
    (s.loopOpt md vd w lo hi f).csr = s.th.csr := by
  unfold State.loopOpt
  generalize List.range (hi - lo) = l
  have key : ∀ (l : List Nat) (t : Thread), (l.foldl (fun t k =>
      if s.th.active md (lo + k) then (match f (lo + k) with | some v => t.setElem vd w (lo + k) v | none => t)
      else if vtMd s.th.vt then s.deadElem t vd w (lo + k)
      else t) t).csr = t.csr := by
    intro l
    induction l with
    | nil => intro t; rfl
    | cons k l ih =>
      intro t
      rw [List.foldl_cons, ih]
      split
      · split
        · exact Thread.setElem_csr _ _ _ _ _
        · rfl
      · split
        · unfold State.deadElem Thread.setAt
          split
          · unfold Thread.setNibble; exact Thread.setElem_csr _ _ _ _ _
          · exact Thread.setElem_csr _ _ _ _ _
        · rfl
  exact key l s.th

end Sys2Proof.Machine
end

