-- ==== Sys2Proof/Laws/Memory.lean ====
section
/-! SUPPORT. The laws of the sparse tables, and that every memory operation keeps the canonical form of memory. -/

namespace Sys2Proof.Machine

/-! ## Tables -/

/-- A key reads what was written to it. -/
theorem Map.get_put_self {α : Type} [DecidableEq α] (d : α) (k : Nat) (v : α) :
    ∀ (m : List (Nat × α)) (lo : Nat), Map.wfFrom d lo m = true → Map.get d (Map.put d m k v) k = v
  | [], _, _ => by unfold Map.put; split <;> simp_all [Map.get]
  | (k', v') :: m, lo, h => by
    simp only [Map.wfFrom, Bool.and_eq_true, decide_eq_true_eq] at h
    have get_above : ∀ (m : List (Nat × α)) (lo : Nat), Map.wfFrom d lo m = true → k < lo → Map.get d m k = d := by
      intro m
      induction m with
      | nil => intros; rfl
      | cons e m ih =>
        intro lo h hk
        simp only [Map.wfFrom, Bool.and_eq_true, decide_eq_true_eq] at h
        rw [Map.get, if_neg (by omega)]
        exact ih _ h.2 (by omega)
    unfold Map.put
    split
    · next hlt =>
      split
      · next hv => rw [Map.get, if_neg (by omega), hv]; exact get_above m _ h.2 (by omega)
      · simp [Map.get]
    · split
      · next he =>
        split
        · next hv => rw [hv]; exact get_above m _ h.2 (by omega)
        · simp [Map.get]
      · next he =>
        rw [Map.get, if_neg (fun e => he e)]
        exact Map.get_put_self d k v m _ h.2

/-- A key reads a value written to it that is not what an unlisted key reads as, in a table of any form. -/
theorem Map.get_put_of_ne {α : Type} [DecidableEq α] (d : α) (k : Nat) (v : α) (hv : v ≠ d) :
    ∀ m : List (Nat × α), Map.get d (Map.put d m k v) k = v
  | [] => by simp [Map.put, hv, Map.get]
  | (k', v') :: m => by
    unfold Map.put
    split
    · simp [hv, Map.get]
    · split
      · simp [hv, Map.get]
      · next he => rw [Map.get, if_neg (fun e => he e)]; exact Map.get_put_of_ne d k v hv m

/-- A write to a key leaves the others. -/
theorem Map.get_put_ne {α : Type} [DecidableEq α] (d : α) (k j : Nat) (v : α) (h : j ≠ k) :
    ∀ m : List (Nat × α), Map.get d (Map.put d m k v) j = Map.get d m j
  | [] => by unfold Map.put; split <;> simp [Map.get, h]
  | (k', v') :: m => by
    unfold Map.put
    split
    · split <;> simp [Map.get, h]
    · split
      · next he => subst he; split <;> simp [Map.get, h]
      · simp only [Map.get]; split
        · rfl
        · exact Map.get_put_ne d k j v h m

/-- A write keeps the canonical form above any bound at or below the key. -/
theorem Map.put_wfFrom {α : Type} [DecidableEq α] (d : α) (k : Nat) (v : α) :
    ∀ (m : List (Nat × α)) (lo : Nat), lo ≤ k → Map.wfFrom d lo m = true → Map.wfFrom d lo (Map.put d m k v) = true
  | [], lo, hk, _ => by unfold Map.put; split <;> simp_all [Map.wfFrom]
  | (k', v') :: m, lo, hk, h => by
    simp only [Map.wfFrom, Bool.and_eq_true, decide_eq_true_eq] at h
    unfold Map.put
    split
    · next hlt =>
      split
      · simp [Map.wfFrom, h]
      · next hv =>
        simp only [Map.wfFrom, Bool.and_eq_true, decide_eq_true_eq]
        exact ⟨⟨hk, hv⟩, ⟨⟨by omega, h.1.2⟩, h.2⟩⟩
    · split
      · next he =>
        split
        · next hv =>
          have weaken : ∀ (m : List (Nat × α)) (a b : Nat), b ≤ a → Map.wfFrom d a m = true → Map.wfFrom d b m = true := by
            intro m
            cases m with
            | nil => intros; rfl
            | cons e m =>
              intro a b hab hm
              simp only [Map.wfFrom, Bool.and_eq_true, decide_eq_true_eq] at hm ⊢
              exact ⟨⟨by omega, hm.1.2⟩, hm.2⟩
          exact weaken m _ _ (by omega) h.2
        · next hv =>
          simp only [Map.wfFrom, Bool.and_eq_true, decide_eq_true_eq]
          exact ⟨⟨hk, hv⟩, by rw [he]; exact h.2⟩
      · next he =>
        simp only [Map.wfFrom, Bool.and_eq_true, decide_eq_true_eq]
        exact ⟨h.1, Map.put_wfFrom d k v m _ (by omega) h.2⟩

/-- A write keeps the canonical form. -/
theorem Map.put_wf {α : Type} [DecidableEq α] (d : α) (m : List (Nat × α)) (k : Nat) (v : α) (h : Map.wf d m = true) :
    Map.wf d (Map.put d m k v) = true := Map.put_wfFrom d k v m 0 (Nat.zero_le k) h

/-- The canonical form holds above any lower bound. -/
theorem Map.wfFrom_mono {α : Type} [DecidableEq α] (d : α) :
    ∀ (m : List (Nat × α)) (a b : Nat), b ≤ a → Map.wfFrom d a m = true → Map.wfFrom d b m = true
  | [], _, _, _, _ => rfl
  | e :: m, a, b, hab, hm => by
    simp only [Map.wfFrom, Bool.and_eq_true, decide_eq_true_eq] at hm ⊢
    exact ⟨⟨by omega, hm.1.2⟩, hm.2⟩

/-- Dropping entries keeps the canonical form. -/
theorem Map.filter_wfFrom {α : Type} [DecidableEq α] (d : α) (p : Nat → α → Bool) :
    ∀ (m : List (Nat × α)) (lo : Nat), Map.wfFrom d lo m = true → Map.wfFrom d lo (Map.filter p m) = true
  | [], _, _ => rfl
  | (k, v) :: m, lo, h => by
    simp only [Map.wfFrom, Bool.and_eq_true, decide_eq_true_eq] at h
    have ih := Map.filter_wfFrom d p m _ h.2
    simp only [Map.filter, List.filter_cons]
    split
    · simp only [Map.wfFrom, Bool.and_eq_true, decide_eq_true_eq]; exact ⟨h.1, ih⟩
    · exact Map.wfFrom_mono d _ _ _ (by omega) ih

/-- Dropping entries keeps the canonical form. -/
theorem Map.filter_wf {α : Type} [DecidableEq α] (d : α) (p : Nat → α → Bool) (m : List (Nat × α))
    (h : Map.wf d m = true) : Map.wf d (Map.filter p m) = true := Map.filter_wfFrom d p m 0 h

/-- What a filtered table reads: an entry kept, or what an unlisted key reads as. -/
theorem Map.get_filter {α : Type} [DecidableEq α] (d : α) (p : Nat → Bool) (k : Nat) :
    ∀ m : List (Nat × α), Map.get d (Map.filter (fun a _ => p a) m) k = if p k then Map.get d m k else d
  | [] => by simp [Map.filter, Map.get]
  | (k', v') :: m => by
    have ih := Map.get_filter d p k m
    simp only [Map.filter, List.filter_cons] at ih ⊢
    by_cases hp : p k' = true
    · simp only [hp, if_true, Map.get]
      by_cases he : k = k'
      · subst he; simp [hp]
      · simp only [if_neg he]; exact ih
    · simp only [hp, Map.get]
      by_cases he : k = k'
      · subst he
        simp only [Bool.false_eq_true, if_false, ih]
        simp [hp]
      · simp only [if_neg he]; exact ih

/-! ## Memory -/

/-- The canonical form of a state's memory. -/
def State.memWf (s : State) : Prop := Memory.wf s.mem = true

/-- Equal memories have equal form. -/
theorem State.memWf_of_eq {s t : State} (h : t.mem = s.mem) (hs : s.memWf) : t.memWf := by
  unfold State.memWf at *; rw [h]; exact hs

/-- Memory at release lists nothing. -/
theorem State.memWf_reset : State.reset.memWf := rfl

/-- Bytes stored keep the form. -/
theorem State.memWf_putBytes : ∀ (bs : List Byte) (s : State) (pa : Nat), s.memWf → (s.putBytes pa bs).memWf
  | [], _, _, h => h
  | b :: bs, s, pa, h => by
    unfold State.putBytes
    exact State.memWf_putBytes bs _ _ (Map.put_wf 0 s.mem (s.memKey pa) b h)

/-- A cleared range keeps the form. -/
theorem State.memWf_clearKeys (s : State) (k n : Nat) (h : s.memWf) : (s.clearKeys k n).memWf := by
  unfold State.memWf Memory.wf State.clearKeys at *
  exact Map.filter_wf (0 : Byte) (fun a _ => decide (a < k ∨ k + n ≤ a)) s.mem h

/-- A VSP block claimed keeps the form. -/
theorem State.memWf_claimBlock (s : State) (o pa : Nat) (h : s.memWf) : (s.claimBlock o pa).memWf := by
  unfold State.claimBlock
  simp only []
  split
  · exact h
  · exact State.memWf_clearKeys s _ _ h

/-- A line readied for a write keeps the form. -/
theorem State.memWf_claim (s : State) (o pa n : Nat) (h : s.memWf) : (s.claim o pa n).memWf := by
  unfold State.claim
  split
  · split
    · exact State.memWf_claimBlock _ _ _ (State.memWf_claimBlock _ _ _ h)
    · exact State.memWf_claimBlock _ _ _ h
  · simp only []
    split
    · exact h
    · split
      · exact h
      · split
        · exact h
        · split
          · exact State.memWf_clearKeys s _ _ h
          · exact h

/-! ### The coherence points: lines that a slice takes, holds and gives up leave memory as it is -/

/-- A condition of REPL leaves memory. -/
@[simp] theorem State.indicate_mem (s : State) (bit unit : Nat) : (s.indicate bit unit).mem = s.mem := by
  unfold State.indicate; split <;> rfl

/-- A poisoned line leaves memory. -/
@[simp] theorem State.poisonLine_mem (s : State) (pa : Nat) : (s.poisonLine pa).mem = s.mem := rfl

/-- A line read from HBM, with what its ECC finds, leaves memory: an uncorrectable error poisons the line. -/
@[simp] theorem State.hbmRead_mem (s : State) (line : Nat) : (s.hbmRead line).mem = s.mem := by
  unfold State.hbmRead
  simp only []
  split
  · rfl
  · rfl
  · split
    · exact State.indicate_mem _ _ _
    · rfl
  · split
    · exact State.indicate_mem _ _ _
    · rfl

/-- A line that a slice gives up leaves memory. -/
@[simp] theorem State.evictLine_mem (s : State) (line : Nat) : (s.evictLine line).mem = s.mem := by
  unfold State.evictLine; simp only []; split <;> rfl

/-- A line that a slice takes leaves memory. -/
@[simp] theorem State.fillSlice_mem (s : State) (line : Nat) (d : Bool) : (s.fillSlice line d).mem = s.mem := by
  unfold State.fillSlice
  split
  · rfl
  · simp only []
    split
    · exact State.evictLine_mem _ _
    · rfl

/-- A line read under an owner leaves memory. -/
@[simp] theorem State.readLineAs_mem (s : State) (o line : Nat) : (s.readLineAs o line).mem = s.mem := by
  unfold State.readLineAs; simp only []; split <;> simp

/-- A line fetched for an access leaves memory. -/
@[simp] theorem State.fetchLine_mem (s : State) (o line : Nat) : (s.fetchLine o line).mem = s.mem := by
  unfold State.fetchLine; split <;> simp

/-- The line of a write placed in its slice leaves memory. -/
@[simp] theorem State.slotLine_mem (s : State) (o pa n : Nat) : (s.slotLine o pa n).mem = s.mem := by
  unfold State.slotLine
  split
  · rfl
  · split <;> simp

/-- A fold of operations that leave memory leaves it. -/
theorem State.foldl_mem {α : Type} (f : State → α → State) (hf : ∀ s a, (f s a).mem = s.mem) :
    ∀ (l : List α) (s : State), (l.foldl f s).mem = s.mem
  | [], _ => rfl
  | a :: l, s => (State.foldl_mem f hf l (f s a)).trans (hf s a)

/-- A recall leaves memory. -/
@[simp] theorem State.recallL1_mem (s : State) (ls : List Nat) : (s.recallL1 ls).mem = s.mem := rfl

/-- Loads served by the coherence points leave memory. -/
@[simp] theorem State.serveLines_mem (s : State) (o : Nat) (ls : List Nat) : (s.serveLines o ls).mem = s.mem :=
  State.foldl_mem _ (fun s l => State.fetchLine_mem s o l) ls _

/-- A table's line served leaves memory. -/
@[simp] theorem State.serveTable_mem (s : State) (pa : Nat) : (s.serveTable pa).mem = s.mem := by
  unfold State.serveTable; split <;> simp

/-- The reads of a walk leave memory. -/
@[simp] theorem State.walkServe_mem : ∀ (ls : List Nat) (s : State) (va table : Nat), (s.walkServe va ls table).mem = s.mem
  | [], _, _, _ => rfl
  | l :: ls, s, va, table => by
    unfold State.walkServe
    split
    · rfl
    · simp only []
      split
      · exact State.serveTable_mem _ _
      · split
        · rw [State.walkServe_mem ls]; exact State.serveTable_mem _ _
        · exact State.serveTable_mem _ _

/-- The reads of a translation leave memory. -/
@[simp] theorem State.walkAt_mem (s : State) (c : Ctx) (va : Nat) : (s.walkAt c va).mem = s.mem := by
  unfold State.walkAt
  simp only []
  split <;> split <;> (try split) <;> simp

/-- The reads of some translations leave memory. -/
@[simp] theorem State.walked_mem (s : State) (c : Ctx) (vas : List Word) : (s.walked c vas).mem = s.mem :=
  State.foldl_mem _ (fun s p => State.walkAt_mem s c (4096 * p)) _ s

/-- The reads of the translations of aligned addresses leave memory. -/
@[simp] theorem State.reach_mem (s : State) (c : Ctx) (n : Nat) (vas : List Word) : (s.reach c n vas).mem = s.mem :=
  State.walked_mem s c _

/-- The lines at some addresses served leave memory. -/
@[simp] theorem State.serveAt_mem (s : State) (c : Ctx) (vas : List Word) : (s.serveAt c vas).mem = s.mem := by
  unfold State.serveAt; simp

/-- A scalar load's way through its core's L1 leaves memory. -/
@[simp] theorem State.loadLine_mem (s : State) (l : Loc) (acq : Bool) : (s.loadLine l acq).mem = s.mem := by
  unfold State.loadLine
  simp only []
  split
  · rfl
  · split <;> simp

/-- The L1 copies of a line dropped leave memory. -/
@[simp] theorem State.dropL1_mem (s : State) (line : Nat) : (s.dropL1 line).mem = s.mem := rfl

/-! ### Writes -/

/-- A write at the coherence point keeps the form. -/
theorem State.memWf_writePhys (s : State) (o pa : Nat) (bs : List Byte) (h : s.memWf) : (s.writePhys o pa bs).memWf :=
  State.memWf_of_eq (State.dropL1_mem _ _)
    (State.memWf_putBytes bs _ pa (State.memWf_claim _ o pa bs.length (State.memWf_of_eq (State.slotLine_mem s o pa _) h)))

/-- A fold of operations that keep the form keeps it. -/
theorem State.memWf_foldl {α : Type} (f : State → α → State) (hf : ∀ s a, s.memWf → (f s a).memWf) :
    ∀ (l : List α) (s : State), s.memWf → (l.foldl f s).memWf
  | [], _, h => h
  | a :: l, s, h => State.memWf_foldl f hf l (f s a) (hf s a h)

/-- A line made clean leaves memory. -/
@[simp] theorem State.cleanLine_mem (s : State) (o l : Nat) : (s.cleanLine o l).mem = s.mem := rfl

/-- The units of a store keep the form. -/
theorem State.memWf_writeUnits (s : State) (o : Nat) (us : List (Nat × List Byte)) (h : s.memWf) :
    (s.writeUnits o us).memWf := by
  unfold State.writeUnits
  exact State.memWf_foldl _ (fun s l hs => State.memWf_of_eq (State.cleanLine_mem s o l) hs) _ _
    (State.memWf_foldl _ (fun s u hs => State.memWf_writePhys s o u.1 u.2 hs) us _
      (State.memWf_of_eq (State.foldl_mem _ (fun s l => State.slotLine_mem s o (128 * l) 128) _ s) h))

/-- A write of any length keeps the form. -/
theorem State.memWf_writeSpan (s : State) (o pa : Nat) (bs : List Byte) (h : s.memWf) : (s.writeSpan o pa bs).memWf :=
  State.memWf_writeUnits s o _ h

/-- Marking a block leaves memory. -/
@[simp] theorem State.markBlock_mem (s : State) (r : Region) (d : Nat) (f : Option Nat) (pa : Nat) :
    (s.markBlock r d f pa).mem = s.mem := rfl

/-- A join keeps the form. -/
theorem State.memWf_joinCell (s : State) (o : Nat) (r : Region) (d pa v : Nat) (h : s.memWf) :
    (s.joinCell o r d pa v).memWf := by
  unfold State.joinCell
  simp only []
  split
  · exact State.memWf_writePhys s _ _ _ h
  · exact State.memWf_of_eq (State.markBlock_mem _ _ _ _ _) (State.memWf_writePhys s _ _ _ h)

/-- A store performed keeps the form. -/
theorem State.memWf_storePerform (s : State) (c : Ctx) (l : Loc) (n v : Nat) (h : s.memWf) :
    (s.storePerform c l n v).memWf := by
  unfold State.storePerform
  split
  · exact State.memWf_writePhys s _ _ _ h
  · exact State.memWf_joinCell s _ _ _ _ _ h

/-- A copy in an L1 leaves memory. -/
@[simp] theorem State.fillL1_mem (s : State) (c line : Nat) (d : Bool) : (s.fillL1 c line d).mem = s.mem := rfl

/-- A pending store performed keeps the form. -/
theorem State.memWf_performOne (s : State) (c : Nat) (p : PendingStore) (h : s.memWf) : (s.performOne c p).memWf := by
  unfold State.performOne
  simp only []
  split
  · exact State.memWf_writePhys s _ _ _ h
  · exact State.memWf_of_eq (State.fillL1_mem _ _ _ _) (State.memWf_writePhys s _ _ _ h)

/-- A seat's thread replaced leaves memory. -/
@[simp] theorem State.setSeat_mem (s : State) (n : Nat) (t : Thread) : (s.setSeat n t).mem = s.mem := by
  unfold State.setSeat; split <;> rfl

/-- A tile load leaves memory. -/
@[simp] theorem State.transfer_mem (s : State) (t : Tile) : (s.transfer t).1.mem = s.mem := by
  unfold State.transfer
  split
  · simp only []
    split
    · simp
    · simp only []; split <;> simp
  · rfl

/-- A seat's tile loads leave memory. -/
@[simp] theorem State.readTiles_mem (s : State) (n : Nat) : (s.readTiles n).mem = s.mem := by
  simp [State.readTiles]

/-- The pending stores of the focused seat performed keep the form. -/
theorem State.memWf_drain (s : State) (h : s.memWf) : s.drain.memWf :=
  State.memWf_of_eq (s := (s.readTiles s.cur).th.lsq.foldl (fun r p => r.performOne (coreOf r.cur) p) (s.readTiles s.cur)) rfl
    (State.memWf_foldl _ (fun s p => State.memWf_performOne s _ p) _ _ (State.memWf_of_eq (State.readTiles_mem s s.cur) h))

/-- The pending stores of a seat performed keep the form. -/
theorem State.memWf_drainSeat (s : State) (n : Nat) (h : s.memWf) : (s.drainSeat n).memWf :=
  State.memWf_of_eq (State.setSeat_mem _ _ _)
    (State.memWf_foldl _ (fun s p => State.memWf_performOne s _ p) _ _ (State.memWf_of_eq (State.readTiles_mem s n) h))

/-- A store that enters the queue keeps the form: memory does not change. -/
theorem State.memWf_enqueue (s : State) (p : PendingStore) (h : s.memWf) : (s.enqueue p).memWf :=
  State.memWf_of_eq (s := s) rfl h

/-- A port that is fenced leaves memory. -/
@[simp] theorem State.fencePort_mem (s : State) (port : Nat) : (s.fencePort port).mem = s.mem := by
  unfold State.fencePort State.indicate
  simp only []
  split
  · rfl
  · split
    · split <;> rfl
    · rfl

/-- Flits leave without touching memory. -/
@[simp] theorem State.emit_mem (s : State) (port : Nat) (f : Flit) : (s.emit port f).mem = s.mem := by
  unfold State.emit; simp only []; split <;> rfl

/-! ## Reading memory back -/

/-- A write of one byte leaves every byte stored elsewhere. -/
theorem State.rawByte_putBytes_one (s : State) (pa q : Nat) (b : Byte) (h : s.memKey q ≠ s.memKey pa) :
    (s.putBytes pa [b]).rawByte q = s.rawByte q :=
  Map.get_put_ne 0 _ _ b h s.mem

/-- Where a byte is stored does not depend on what memory holds. -/
theorem State.memKey_putBytes : ∀ (bs : List Byte) (s : State) (pa q : Nat), (s.putBytes pa bs).memKey q = s.memKey q
  | [], _, _, _ => rfl
  | b :: bs, s, pa, q => by unfold State.putBytes; rw [State.memKey_putBytes bs]; rfl

/-- A write of bytes leaves every byte stored elsewhere. -/
theorem State.rawByte_putBytes : ∀ (bs : List Byte) (s : State) (pa q : Nat),
    (∀ i < bs.length, s.memKey q ≠ s.memKey (pa + i)) → (s.putBytes pa bs).rawByte q = s.rawByte q
  | [], _, _, _, _ => rfl
  | b :: bs, s, pa, q, h => by
    unfold State.putBytes
    rw [State.rawByte_putBytes bs _ (pa + 1) q]
    · exact Map.get_put_ne 0 _ _ b (h 0 (by simp)) s.mem
    · intro i hi
      have := h (i + 1) (by simp; omega)
      rw [show pa + 1 + i = pa + (i + 1) by omega]
      exact this

end Sys2Proof.Machine
end

