-- ==== Sys2Proof/Laws/Events.lean ====
section
/-! SUPPORT. What the shared operations of the device's events leave of memory. -/

namespace Sys2Proof.Machine

/-- A translation that enters a TLB leaves memory. -/
@[simp] theorem State.tlbPut_mem (s : State) (tlb : Nat) (c : Ctx) (va : Nat) (x : Xlat) : (s.tlbPut tlb c va x).mem = s.mem := by
  unfold State.tlbPut; simp only []; split <;> rfl

/-- A cached descriptor leaves memory. -/
@[simp] theorem State.cacheDescriptor_mem (s : State) (lrt leaf : Nat) : (s.cacheDescriptor lrt leaf).mem = s.mem := by
  unfold State.cacheDescriptor
  simp only []
  split
  · rfl
  · exact State.serveTable_mem _ _

/-- Blocks of a replica served to the Settle leave memory. -/
@[simp] theorem State.serveBlocks_mem (s : State) (r : Region) (cs : List Change) : (s.serveBlocks r cs).mem = s.mem :=
  State.foldl_mem _ (fun s _ => State.serveTable_mem s _) cs s

/-- A completion of a host request leaves memory. -/
@[simp] theorem State.answer_mem (s : State) (c : Completion) : (s.answer c).mem = s.mem := rfl

/-- A count of dropped blocks leaves memory. -/
@[simp] theorem State.dropped_mem (s : State) (d n : Nat) : (s.dropped d n).mem = s.mem := rfl

/-- Blocks sent to another die leave memory. -/
@[simp] theorem State.settleSend_mem (s : State) (lrt idx t src dst : Nat) : (s.settleSend lrt idx t src dst).mem = s.mem := by
  unfold State.settleSend
  simp only []
  split
  · rfl
  · exact State.serveBlocks_mem _ _ _

/-- What a port's flits have come to leaves memory. -/
@[simp] theorem State.linkErrors_mem (s : State) (p : Nat) : (s.linkErrors p).mem = s.mem := by
  unfold State.linkErrors
  simp only []
  split
  · rfl
  · split
    · exact State.fencePort_mem _ _
    · rfl

end Sys2Proof.Machine
end

