-- ==== Sys2Proof/Laws/PerInstr.lean ====
section
/-! SUPPORT. What holds of every instruction as syntax, one lemma for each: an event has no words, an instruction has as many
as its form (spec/03_encoding.md R78). -/

namespace Sys2Proof.Laws.EventOrWords

/-- An event of the device has no words; an instruction has one, two or three, as `Instr.words` says. -/
def Statement (i : Instr) : Prop :=
  (encode i).length = i.words ∧ (i.isEvent = true → i.words = 0) ∧ (i.isEvent = false → 1 ≤ i.words ∧ i.words ≤ 3)

/-- The words of a prefix and a base word. -/
theorem modified (md : VMod) (w : IWord) :
    (encPre md ++ [w]).length = (if md.pre.isSome then 2 else 1) ∧ 1 ≤ (if md.pre.isSome then 2 else 1) ∧
      (if md.pre.isSome then 2 else 1) ≤ 3 := by
  unfold encPre
  cases md.pre <;> simp

/-- An event: no words. -/
theorem event {i : Instr} (h : encode i = []) (w : i.words = 0) (e : i.isEvent = true) : Statement i :=
  ⟨by rw [h, w]; rfl, fun _ => w, fun f => absurd (e.symm.trans f) (by decide)⟩

/-- An instruction of `n` words. -/
theorem words {i : Instr} (n : Nat) (h : (encode i).length = n) (w : i.words = n) (e : i.isEvent = false)
    (b : 1 ≤ n ∧ n ≤ 3) : Statement i :=
  ⟨by rw [h, w], fun f => absurd (e.symm.trans f) (by decide), fun _ => by rw [w]; exact b⟩

theorem add (d : SReg) (a : SReg) (b : SReg) : Statement (.add d a b) := words 1 rfl rfl rfl (by decide)
theorem sub (d : SReg) (a : SReg) (b : SReg) : Statement (.sub d a b) := words 1 rfl rfl rfl (by decide)
theorem and (d : SReg) (a : SReg) (b : SReg) : Statement (.and d a b) := words 1 rfl rfl rfl (by decide)
theorem or (d : SReg) (a : SReg) (b : SReg) : Statement (.or d a b) := words 1 rfl rfl rfl (by decide)
theorem xor (d : SReg) (a : SReg) (b : SReg) : Statement (.xor d a b) := words 1 rfl rfl rfl (by decide)
theorem andn (d : SReg) (a : SReg) (b : SReg) : Statement (.andn d a b) := words 1 rfl rfl rfl (by decide)
theorem sll (d : SReg) (a : SReg) (b : SReg) : Statement (.sll d a b) := words 1 rfl rfl rfl (by decide)
theorem srl (d : SReg) (a : SReg) (b : SReg) : Statement (.srl d a b) := words 1 rfl rfl rfl (by decide)
theorem sra (d : SReg) (a : SReg) (b : SReg) : Statement (.sra d a b) := words 1 rfl rfl rfl (by decide)
theorem slt (d : SReg) (a : SReg) (b : SReg) : Statement (.slt d a b) := words 1 rfl rfl rfl (by decide)
theorem sltu (d : SReg) (a : SReg) (b : SReg) : Statement (.sltu d a b) := words 1 rfl rfl rfl (by decide)
theorem min (d : SReg) (a : SReg) (b : SReg) : Statement (.min d a b) := words 1 rfl rfl rfl (by decide)
theorem max (d : SReg) (a : SReg) (b : SReg) : Statement (.max d a b) := words 1 rfl rfl rfl (by decide)
theorem minu (d : SReg) (a : SReg) (b : SReg) : Statement (.minu d a b) := words 1 rfl rfl rfl (by decide)
theorem maxu (d : SReg) (a : SReg) (b : SReg) : Statement (.maxu d a b) := words 1 rfl rfl rfl (by decide)
theorem mul (d : SReg) (a : SReg) (b : SReg) : Statement (.mul d a b) := words 1 rfl rfl rfl (by decide)
theorem mulh (d : SReg) (a : SReg) (b : SReg) : Statement (.mulh d a b) := words 1 rfl rfl rfl (by decide)
theorem mulhu (d : SReg) (a : SReg) (b : SReg) : Statement (.mulhu d a b) := words 1 rfl rfl rfl (by decide)
theorem div (d : SReg) (a : SReg) (b : SReg) : Statement (.div d a b) := words 1 rfl rfl rfl (by decide)
theorem divu (d : SReg) (a : SReg) (b : SReg) : Statement (.divu d a b) := words 1 rfl rfl rfl (by decide)
theorem rem (d : SReg) (a : SReg) (b : SReg) : Statement (.rem d a b) := words 1 rfl rfl rfl (by decide)
theorem remu (d : SReg) (a : SReg) (b : SReg) : Statement (.remu d a b) := words 1 rfl rfl rfl (by decide)
theorem clz (d : SReg) (a : SReg) : Statement (.clz d a) := words 1 rfl rfl rfl (by decide)
theorem ctz (d : SReg) (a : SReg) : Statement (.ctz d a) := words 1 rfl rfl rfl (by decide)
theorem popc (d : SReg) (a : SReg) : Statement (.popc d a) := words 1 rfl rfl rfl (by decide)
theorem sext (d : SReg) (a : SReg) (wid : ExtW) : Statement (.sext d a wid) := words 1 rfl rfl rfl (by decide)
theorem zext (d : SReg) (a : SReg) (wid : ExtW) : Statement (.zext d a wid) := words 1 rfl rfl rfl (by decide)
theorem addi (d : SReg) (a : SReg) (imm : BitVec 14) : Statement (.addi d a imm) := words 1 rfl rfl rfl (by decide)
theorem addiWide (d : SReg) (a : SReg) (imm : BitVec 34) : Statement (.addiWide d a imm) := words 2 rfl rfl rfl (by decide)
theorem andi (d : SReg) (a : SReg) (imm : BitVec 12) : Statement (.andi d a imm) := words 1 rfl rfl rfl (by decide)
theorem ori (d : SReg) (a : SReg) (imm : BitVec 12) : Statement (.ori d a imm) := words 1 rfl rfl rfl (by decide)
theorem xori (d : SReg) (a : SReg) (imm : BitVec 12) : Statement (.xori d a imm) := words 1 rfl rfl rfl (by decide)
theorem slli (d : SReg) (a : SReg) (sh : BitVec 6) : Statement (.slli d a sh) := words 1 rfl rfl rfl (by decide)
theorem srli (d : SReg) (a : SReg) (sh : BitVec 6) : Statement (.srli d a sh) := words 1 rfl rfl rfl (by decide)
theorem srai (d : SReg) (a : SReg) (sh : BitVec 6) : Statement (.srai d a sh) := words 1 rfl rfl rfl (by decide)
theorem slti (d : SReg) (a : SReg) (imm : BitVec 13) : Statement (.slti d a imm) := words 1 rfl rfl rfl (by decide)
theorem sltiu (d : SReg) (a : SReg) (imm : BitVec 13) : Statement (.sltiu d a imm) := words 1 rfl rfl rfl (by decide)
theorem lhi (d : SReg) (imm : BitVec 20) : Statement (.lhi d imm) := words 1 rfl rfl rfl (by decide)
theorem lhiWide (d : SReg) (imm : BitVec 40) : Statement (.lhiWide d imm) := words 2 rfl rfl rfl (by decide)
theorem lpc (d : SReg) (imm : BitVec 20) : Statement (.lpc d imm) := words 1 rfl rfl rfl (by decide)
theorem lpcWide (d : SReg) (imm : BitVec 40) : Statement (.lpcWide d imm) := words 2 rfl rfl rfl (by decide)
theorem beq (a : SReg) (b : SReg) (off : BitVec 14) : Statement (.beq a b off) := words 1 rfl rfl rfl (by decide)
theorem bne (a : SReg) (b : SReg) (off : BitVec 14) : Statement (.bne a b off) := words 1 rfl rfl rfl (by decide)
theorem blt (a : SReg) (b : SReg) (off : BitVec 14) : Statement (.blt a b off) := words 1 rfl rfl rfl (by decide)
theorem bge (a : SReg) (b : SReg) (off : BitVec 14) : Statement (.bge a b off) := words 1 rfl rfl rfl (by decide)
theorem bltu (a : SReg) (b : SReg) (off : BitVec 14) : Statement (.bltu a b off) := words 1 rfl rfl rfl (by decide)
theorem bgeu (a : SReg) (b : SReg) (off : BitVec 14) : Statement (.bgeu a b off) := words 1 rfl rfl rfl (by decide)
theorem jlr (d : SReg) (a : SReg) (off : BitVec 14) : Statement (.jlr d a off) := words 1 rfl rfl rfl (by decide)
theorem j (off : BitVec 26) : Statement (.j off) := words 1 rfl rfl rfl (by decide)
theorem jl (off : BitVec 26) : Statement (.jl off) := words 1 rfl rfl rfl (by decide)
theorem ldB (d : SReg) (a : SReg) (acq : Bool) (imm : BitVec 10) : Statement (.ldB d a acq imm) := words 1 rfl rfl rfl (by decide)
theorem ldH (d : SReg) (a : SReg) (acq : Bool) (imm : BitVec 10) : Statement (.ldH d a acq imm) := words 1 rfl rfl rfl (by decide)
theorem ldW (d : SReg) (a : SReg) (acq : Bool) (imm : BitVec 10) : Statement (.ldW d a acq imm) := words 1 rfl rfl rfl (by decide)
theorem ldD (d : SReg) (a : SReg) (acq : Bool) (imm : BitVec 10) : Statement (.ldD d a acq imm) := words 1 rfl rfl rfl (by decide)
theorem ldBu (d : SReg) (a : SReg) (acq : Bool) (imm : BitVec 10) : Statement (.ldBu d a acq imm) := words 1 rfl rfl rfl (by decide)
theorem ldHu (d : SReg) (a : SReg) (acq : Bool) (imm : BitVec 10) : Statement (.ldHu d a acq imm) := words 1 rfl rfl rfl (by decide)
theorem ldWu (d : SReg) (a : SReg) (acq : Bool) (imm : BitVec 10) : Statement (.ldWu d a acq imm) := words 1 rfl rfl rfl (by decide)
theorem stB (d : SReg) (a : SReg) (rel : Bool) (imm : BitVec 10) : Statement (.stB d a rel imm) := words 1 rfl rfl rfl (by decide)
theorem stH (d : SReg) (a : SReg) (rel : Bool) (imm : BitVec 10) : Statement (.stH d a rel imm) := words 1 rfl rfl rfl (by decide)
theorem stW (d : SReg) (a : SReg) (rel : Bool) (imm : BitVec 10) : Statement (.stW d a rel imm) := words 1 rfl rfl rfl (by decide)
theorem stD (d : SReg) (a : SReg) (rel : Bool) (imm : BitVec 10) : Statement (.stD d a rel imm) := words 1 rfl rfl rfl (by decide)
theorem ldBIndexed (d : SReg) (a : SReg) (b : SReg) (acq : Bool) : Statement (.ldBIndexed d a b acq) := words 1 rfl rfl rfl (by decide)
theorem ldHIndexed (d : SReg) (a : SReg) (b : SReg) (acq : Bool) : Statement (.ldHIndexed d a b acq) := words 1 rfl rfl rfl (by decide)
theorem ldWIndexed (d : SReg) (a : SReg) (b : SReg) (acq : Bool) : Statement (.ldWIndexed d a b acq) := words 1 rfl rfl rfl (by decide)
theorem ldDIndexed (d : SReg) (a : SReg) (b : SReg) (acq : Bool) : Statement (.ldDIndexed d a b acq) := words 1 rfl rfl rfl (by decide)
theorem ldBuIndexed (d : SReg) (a : SReg) (b : SReg) (acq : Bool) : Statement (.ldBuIndexed d a b acq) := words 1 rfl rfl rfl (by decide)
theorem ldHuIndexed (d : SReg) (a : SReg) (b : SReg) (acq : Bool) : Statement (.ldHuIndexed d a b acq) := words 1 rfl rfl rfl (by decide)
theorem ldWuIndexed (d : SReg) (a : SReg) (b : SReg) (acq : Bool) : Statement (.ldWuIndexed d a b acq) := words 1 rfl rfl rfl (by decide)
theorem stBIndexed (d : SReg) (a : SReg) (b : SReg) (rel : Bool) : Statement (.stBIndexed d a b rel) := words 1 rfl rfl rfl (by decide)
theorem stHIndexed (d : SReg) (a : SReg) (b : SReg) (rel : Bool) : Statement (.stHIndexed d a b rel) := words 1 rfl rfl rfl (by decide)
theorem stWIndexed (d : SReg) (a : SReg) (b : SReg) (rel : Bool) : Statement (.stWIndexed d a b rel) := words 1 rfl rfl rfl (by decide)
theorem stDIndexed (d : SReg) (a : SReg) (b : SReg) (rel : Bool) : Statement (.stDIndexed d a b rel) := words 1 rfl rfl rfl (by decide)
theorem amoAdd (d : SReg) (a : SReg) (b : SReg) (dbl : Bool) (rel : Bool) (acq : Bool) : Statement (.amoAdd d a b dbl rel acq) := words 1 rfl rfl rfl (by decide)
theorem amoAnd (d : SReg) (a : SReg) (b : SReg) (dbl : Bool) (rel : Bool) (acq : Bool) : Statement (.amoAnd d a b dbl rel acq) := words 1 rfl rfl rfl (by decide)
theorem amoOr (d : SReg) (a : SReg) (b : SReg) (dbl : Bool) (rel : Bool) (acq : Bool) : Statement (.amoOr d a b dbl rel acq) := words 1 rfl rfl rfl (by decide)
theorem amoXor (d : SReg) (a : SReg) (b : SReg) (dbl : Bool) (rel : Bool) (acq : Bool) : Statement (.amoXor d a b dbl rel acq) := words 1 rfl rfl rfl (by decide)
theorem amoMin (d : SReg) (a : SReg) (b : SReg) (dbl : Bool) (rel : Bool) (acq : Bool) : Statement (.amoMin d a b dbl rel acq) := words 1 rfl rfl rfl (by decide)
theorem amoMax (d : SReg) (a : SReg) (b : SReg) (dbl : Bool) (rel : Bool) (acq : Bool) : Statement (.amoMax d a b dbl rel acq) := words 1 rfl rfl rfl (by decide)
theorem amoMinu (d : SReg) (a : SReg) (b : SReg) (dbl : Bool) (rel : Bool) (acq : Bool) : Statement (.amoMinu d a b dbl rel acq) := words 1 rfl rfl rfl (by decide)
theorem amoMaxu (d : SReg) (a : SReg) (b : SReg) (dbl : Bool) (rel : Bool) (acq : Bool) : Statement (.amoMaxu d a b dbl rel acq) := words 1 rfl rfl rfl (by decide)
theorem amoSwap (d : SReg) (a : SReg) (b : SReg) (dbl : Bool) (rel : Bool) (acq : Bool) : Statement (.amoSwap d a b dbl rel acq) := words 1 rfl rfl rfl (by decide)
theorem cas (d : SReg) (a : SReg) (b : SReg) (dbl : Bool) (rel : Bool) (acq : Bool) : Statement (.cas d a b dbl rel acq) := words 1 rfl rfl rfl (by decide)
theorem fadd (d : SReg) (a : SReg) (b : SReg) (dbl : Bool) : Statement (.fadd d a b dbl) := words 1 rfl rfl rfl (by decide)
theorem fsub (d : SReg) (a : SReg) (b : SReg) (dbl : Bool) : Statement (.fsub d a b dbl) := words 1 rfl rfl rfl (by decide)
theorem fmul (d : SReg) (a : SReg) (b : SReg) (dbl : Bool) : Statement (.fmul d a b dbl) := words 1 rfl rfl rfl (by decide)
theorem fdiv (d : SReg) (a : SReg) (b : SReg) (dbl : Bool) : Statement (.fdiv d a b dbl) := words 1 rfl rfl rfl (by decide)
theorem fsqrt (d : SReg) (a : SReg) (dbl : Bool) : Statement (.fsqrt d a dbl) := words 1 rfl rfl rfl (by decide)
theorem fmin (d : SReg) (a : SReg) (b : SReg) (dbl : Bool) : Statement (.fmin d a b dbl) := words 1 rfl rfl rfl (by decide)
theorem fmax (d : SReg) (a : SReg) (b : SReg) (dbl : Bool) : Statement (.fmax d a b dbl) := words 1 rfl rfl rfl (by decide)
theorem fcmpEq (d : SReg) (a : SReg) (b : SReg) (dbl : Bool) : Statement (.fcmpEq d a b dbl) := words 1 rfl rfl rfl (by decide)
theorem fcmpLt (d : SReg) (a : SReg) (b : SReg) (dbl : Bool) : Statement (.fcmpLt d a b dbl) := words 1 rfl rfl rfl (by decide)
theorem fcmpLe (d : SReg) (a : SReg) (b : SReg) (dbl : Bool) : Statement (.fcmpLe d a b dbl) := words 1 rfl rfl rfl (by decide)
theorem fcmpUo (d : SReg) (a : SReg) (b : SReg) (dbl : Bool) : Statement (.fcmpUo d a b dbl) := words 1 rfl rfl rfl (by decide)
theorem fclass (d : SReg) (a : SReg) (dbl : Bool) : Statement (.fclass d a dbl) := words 1 rfl rfl rfl (by decide)
theorem fmadd (d : SReg) (a : SReg) (b : SReg) (c : SReg) (dbl : Bool) : Statement (.fmadd d a b c dbl) := words 1 rfl rfl rfl (by decide)
theorem fmsub (d : SReg) (a : SReg) (b : SReg) (c : SReg) (dbl : Bool) : Statement (.fmsub d a b c dbl) := words 1 rfl rfl rfl (by decide)
theorem fnmadd (d : SReg) (a : SReg) (b : SReg) (c : SReg) (dbl : Bool) : Statement (.fnmadd d a b c dbl) := words 1 rfl rfl rfl (by decide)
theorem fcvt (d : SReg) (a : SReg) (conv : FcvtPair) : Statement (.fcvt d a conv) := words 1 rfl rfl rfl (by decide)
theorem fmvS (d : SReg) (a : SReg) : Statement (.fmvS d a) := words 1 rfl rfl rfl (by decide)
theorem fmvD (d : SReg) (a : SReg) : Statement (.fmvD d a) := words 1 rfl rfl rfl (by decide)
theorem fmvX (d : SReg) (a : SReg) : Statement (.fmvX d a) := words 1 rfl rfl rfl (by decide)
theorem fmvF (d : SReg) (a : SReg) : Statement (.fmvF d a) := words 1 rfl rfl rfl (by decide)
theorem trap (code : BitVec 12) : Statement (.trap code) := words 1 rfl rfl rfl (by decide)
theorem eret : Statement (.eret) := words 1 rfl rfl rfl (by decide)
theorem brk (code : BitVec 12) : Statement (.brk code) := words 1 rfl rfl rfl (by decide)
theorem fence (scope : FenceScope) (kinds : FenceKinds) : Statement (.fence scope kinds) := words 1 rfl rfl rfl (by decide)
theorem fencei : Statement (.fencei) := words 1 rfl rfl rfl (by decide)
theorem tlbi (v : TlbiKind) (a : SReg) (b : SReg) : Statement (.tlbi v a b) := words 1 rfl rfl rfl (by decide)
theorem ctxsv (a : SReg) : Statement (.ctxsv a) := words 1 rfl rfl rfl (by decide)
theorem ctxld (a : SReg) : Statement (.ctxld a) := words 1 rfl rfl rfl (by decide)
theorem halt : Statement (.halt) := words 1 rfl rfl rfl (by decide)
theorem xrd (d : SReg) (n : BitVec 12) : Statement (.xrd d n) := words 1 rfl rfl rfl (by decide)
theorem xwr (n : BitVec 12) (a : SReg) : Statement (.xwr n a) := words 1 rfl rfl rfl (by decide)
theorem xset (d : SReg) (n : BitVec 12) (a : SReg) : Statement (.xset d n a) := words 1 rfl rfl rfl (by decide)
theorem xclr (d : SReg) (n : BitVec 12) (a : SReg) : Statement (.xclr d n a) := words 1 rfl rfl rfl (by decide)
theorem setvl (d : SReg) (a : SReg) (b : SReg) (lanes : LaneReq) : Statement (.setvl d a b lanes) := words 1 rfl rfl rfl (by decide)
theorem vcfg (a : SReg) : Statement (.vcfg a) := words 1 rfl rfl rfl (by decide)
theorem vshape (n : BitVec 2) : Statement (.vshape n) := words 1 rfl rfl rfl (by decide)
theorem setvli (d : SReg) (a : SReg) (imm : BitVec 14) : Statement (.setvli d a imm) := words 1 rfl rfl rfl (by decide)
theorem vadd (vd : VReg) (va : VReg) (b : VSrc) (md : VMod) : Statement (.vadd vd va b md) := words _ (modified md _).1 rfl rfl (modified md 0).2
theorem vsub (vd : VReg) (va : VReg) (b : VSrc) (md : VMod) : Statement (.vsub vd va b md) := words _ (modified md _).1 rfl rfl (modified md 0).2
theorem vrsub (vd : VReg) (va : VReg) (b : VSrc) (md : VMod) : Statement (.vrsub vd va b md) := words _ (modified md _).1 rfl rfl (modified md 0).2
theorem vmul (vd : VReg) (va : VReg) (b : VSrc) (md : VMod) : Statement (.vmul vd va b md) := words _ (modified md _).1 rfl rfl (modified md 0).2
theorem vmulh (vd : VReg) (va : VReg) (b : VSrc) (md : VMod) : Statement (.vmulh vd va b md) := words _ (modified md _).1 rfl rfl (modified md 0).2
theorem vmulhu (vd : VReg) (va : VReg) (b : VSrc) (md : VMod) : Statement (.vmulhu vd va b md) := words _ (modified md _).1 rfl rfl (modified md 0).2
theorem vmacc (vd : VReg) (va : VReg) (b : VSrc) (md : VMod) : Statement (.vmacc vd va b md) := words _ (modified md _).1 rfl rfl (modified md 0).2
theorem vnmsac (vd : VReg) (va : VReg) (b : VSrc) (md : VMod) : Statement (.vnmsac vd va b md) := words _ (modified md _).1 rfl rfl (modified md 0).2
theorem vdiv (vd : VReg) (va : VReg) (b : VSrc) (md : VMod) : Statement (.vdiv vd va b md) := words _ (modified md _).1 rfl rfl (modified md 0).2
theorem vdivu (vd : VReg) (va : VReg) (b : VSrc) (md : VMod) : Statement (.vdivu vd va b md) := words _ (modified md _).1 rfl rfl (modified md 0).2
theorem vrem (vd : VReg) (va : VReg) (b : VSrc) (md : VMod) : Statement (.vrem vd va b md) := words _ (modified md _).1 rfl rfl (modified md 0).2
theorem vremu (vd : VReg) (va : VReg) (b : VSrc) (md : VMod) : Statement (.vremu vd va b md) := words _ (modified md _).1 rfl rfl (modified md 0).2
theorem vmin (vd : VReg) (va : VReg) (b : VSrc) (md : VMod) : Statement (.vmin vd va b md) := words _ (modified md _).1 rfl rfl (modified md 0).2
theorem vmax (vd : VReg) (va : VReg) (b : VSrc) (md : VMod) : Statement (.vmax vd va b md) := words _ (modified md _).1 rfl rfl (modified md 0).2
theorem vminu (vd : VReg) (va : VReg) (b : VSrc) (md : VMod) : Statement (.vminu vd va b md) := words _ (modified md _).1 rfl rfl (modified md 0).2
theorem vmaxu (vd : VReg) (va : VReg) (b : VSrc) (md : VMod) : Statement (.vmaxu vd va b md) := words _ (modified md _).1 rfl rfl (modified md 0).2
theorem vand (vd : VReg) (va : VReg) (b : VSrc) (md : VMod) : Statement (.vand vd va b md) := words _ (modified md _).1 rfl rfl (modified md 0).2
theorem vor (vd : VReg) (va : VReg) (b : VSrc) (md : VMod) : Statement (.vor vd va b md) := words _ (modified md _).1 rfl rfl (modified md 0).2
theorem vxor (vd : VReg) (va : VReg) (b : VSrc) (md : VMod) : Statement (.vxor vd va b md) := words _ (modified md _).1 rfl rfl (modified md 0).2
theorem vsll (vd : VReg) (va : VReg) (b : VSrc) (md : VMod) : Statement (.vsll vd va b md) := words _ (modified md _).1 rfl rfl (modified md 0).2
theorem vsrl (vd : VReg) (va : VReg) (b : VSrc) (md : VMod) : Statement (.vsrl vd va b md) := words _ (modified md _).1 rfl rfl (modified md 0).2
theorem vsra (vd : VReg) (va : VReg) (b : VSrc) (md : VMod) : Statement (.vsra vd va b md) := words _ (modified md _).1 rfl rfl (modified md 0).2
theorem vclz (vd : VReg) (va : VReg) (md : VMod) : Statement (.vclz vd va md) := words _ (modified md _).1 rfl rfl (modified md 0).2
theorem vpopc (vd : VReg) (va : VReg) (md : VMod) : Statement (.vpopc vd va md) := words _ (modified md _).1 rfl rfl (modified md 0).2
theorem vwadd (vd : VReg) (va : VReg) (b : VSrc) (md : VMod) : Statement (.vwadd vd va b md) := words _ (modified md _).1 rfl rfl (modified md 0).2
theorem vwaddU (vd : VReg) (va : VReg) (b : VSrc) (md : VMod) : Statement (.vwaddU vd va b md) := words _ (modified md _).1 rfl rfl (modified md 0).2
theorem vwsub (vd : VReg) (va : VReg) (b : VSrc) (md : VMod) : Statement (.vwsub vd va b md) := words _ (modified md _).1 rfl rfl (modified md 0).2
theorem vwsubU (vd : VReg) (va : VReg) (b : VSrc) (md : VMod) : Statement (.vwsubU vd va b md) := words _ (modified md _).1 rfl rfl (modified md 0).2
theorem vwmul (vd : VReg) (va : VReg) (b : VSrc) (md : VMod) : Statement (.vwmul vd va b md) := words _ (modified md _).1 rfl rfl (modified md 0).2
theorem vwmulU (vd : VReg) (va : VReg) (b : VSrc) (md : VMod) : Statement (.vwmulU vd va b md) := words _ (modified md _).1 rfl rfl (modified md 0).2
theorem vwmulSu (vd : VReg) (va : VReg) (b : VSrc) (md : VMod) : Statement (.vwmulSu vd va b md) := words _ (modified md _).1 rfl rfl (modified md 0).2
theorem vwmacc (vd : VReg) (va : VReg) (b : VSrc) (md : VMod) : Statement (.vwmacc vd va b md) := words _ (modified md _).1 rfl rfl (modified md 0).2
theorem vwmaccU (vd : VReg) (va : VReg) (b : VSrc) (md : VMod) : Statement (.vwmaccU vd va b md) := words _ (modified md _).1 rfl rfl (modified md 0).2
theorem vwmaccSu (vd : VReg) (va : VReg) (b : VSrc) (md : VMod) : Statement (.vwmaccSu vd va b md) := words _ (modified md _).1 rfl rfl (modified md 0).2
theorem vnsrl (vd : VReg) (va : VReg) (b : VSrc) (md : VMod) : Statement (.vnsrl vd va b md) := words _ (modified md _).1 rfl rfl (modified md 0).2
theorem vnsra (vd : VReg) (va : VReg) (b : VSrc) (md : VMod) : Statement (.vnsra vd va b md) := words _ (modified md _).1 rfl rfl (modified md 0).2
theorem vsadd (vd : VReg) (va : VReg) (b : VSrc) (md : VMod) : Statement (.vsadd vd va b md) := words _ (modified md _).1 rfl rfl (modified md 0).2
theorem vsaddU (vd : VReg) (va : VReg) (b : VSrc) (md : VMod) : Statement (.vsaddU vd va b md) := words _ (modified md _).1 rfl rfl (modified md 0).2
theorem vssub (vd : VReg) (va : VReg) (b : VSrc) (md : VMod) : Statement (.vssub vd va b md) := words _ (modified md _).1 rfl rfl (modified md 0).2
theorem vssubU (vd : VReg) (va : VReg) (b : VSrc) (md : VMod) : Statement (.vssubU vd va b md) := words _ (modified md _).1 rfl rfl (modified md 0).2
theorem vaadd (vd : VReg) (va : VReg) (b : VSrc) (md : VMod) : Statement (.vaadd vd va b md) := words _ (modified md _).1 rfl rfl (modified md 0).2
theorem vaaddU (vd : VReg) (va : VReg) (b : VSrc) (md : VMod) : Statement (.vaaddU vd va b md) := words _ (modified md _).1 rfl rfl (modified md 0).2
theorem vsmul (vd : VReg) (va : VReg) (b : VSrc) (md : VMod) : Statement (.vsmul vd va b md) := words _ (modified md _).1 rfl rfl (modified md 0).2
theorem vssrl (vd : VReg) (va : VReg) (b : VSrc) (md : VMod) : Statement (.vssrl vd va b md) := words _ (modified md _).1 rfl rfl (modified md 0).2
theorem vssra (vd : VReg) (va : VReg) (b : VSrc) (md : VMod) : Statement (.vssra vd va b md) := words _ (modified md _).1 rfl rfl (modified md 0).2
theorem vnclip (vd : VReg) (va : VReg) (b : VSrc) (md : VMod) : Statement (.vnclip vd va b md) := words _ (modified md _).1 rfl rfl (modified md 0).2
theorem vnclipU (vd : VReg) (va : VReg) (b : VSrc) (md : VMod) : Statement (.vnclipU vd va b md) := words _ (modified md _).1 rfl rfl (modified md 0).2
theorem vcmp (cc : IntCmp) (vd : VReg) (va : VReg) (b : VSrc) (md : VMod) : Statement (.vcmp cc vd va b md) := words _ (modified md _).1 rfl rfl (modified md 0).2
theorem vcmpBrk (cc : IntCmp) (vd : VReg) (va : VReg) (b : VSrc) (md : VMod) : Statement (.vcmpBrk cc vd va b md) := words _ (modified md _).1 rfl rfl (modified md 0).2
theorem mkAnd (vd : VReg) (va : VReg) (vb : VReg) (md : VMod) : Statement (.mkAnd vd va vb md) := words _ (modified md _).1 rfl rfl (modified md 0).2
theorem mkOr (vd : VReg) (va : VReg) (vb : VReg) (md : VMod) : Statement (.mkOr vd va vb md) := words _ (modified md _).1 rfl rfl (modified md 0).2
theorem mkXor (vd : VReg) (va : VReg) (vb : VReg) (md : VMod) : Statement (.mkXor vd va vb md) := words _ (modified md _).1 rfl rfl (modified md 0).2
theorem mkAndn (vd : VReg) (va : VReg) (vb : VReg) (md : VMod) : Statement (.mkAndn vd va vb md) := words _ (modified md _).1 rfl rfl (modified md 0).2
theorem mkNot (vd : VReg) (va : VReg) (md : VMod) : Statement (.mkNot vd va md) := words _ (modified md _).1 rfl rfl (modified md 0).2
theorem mcount (d : SReg) (va : VReg) (md : VMod) : Statement (.mcount d va md) := words _ (modified md _).1 rfl rfl (modified md 0).2
theorem mfirst (d : SReg) (va : VReg) (md : VMod) : Statement (.mfirst d va md) := words _ (modified md _).1 rfl rfl (modified md 0).2
theorem vrank (vd : VReg) (va : VReg) (md : VMod) : Statement (.vrank vd va md) := words _ (modified md _).1 rfl rfl (modified md 0).2
theorem vindex (vd : VReg) (md : VMod) : Statement (.vindex vd md) := words _ (modified md _).1 rfl rfl (modified md 0).2
theorem vmv (vd : VReg) (va : VReg) (md : VMod) : Statement (.vmv vd va md) := words _ (modified md _).1 rfl rfl (modified md 0).2
theorem vmvScalar (vd : VReg) (a : SReg) (md : VMod) : Statement (.vmvScalar vd a md) := words _ (modified md _).1 rfl rfl (modified md 0).2
theorem vmvSv (d : SReg) (va : VReg) (md : VMod) : Statement (.vmvSv d va md) := words _ (modified md _).1 rfl rfl (modified md 0).2
theorem vmvVs (vd : VReg) (a : SReg) (md : VMod) : Statement (.vmvVs vd a md) := words _ (modified md _).1 rfl rfl (modified md 0).2
theorem vslideu (vd : VReg) (va : VReg) (b : SReg) (md : VMod) : Statement (.vslideu vd va b md) := words _ (modified md _).1 rfl rfl (modified md 0).2
theorem vslided (vd : VReg) (va : VReg) (b : SReg) (md : VMod) : Statement (.vslided vd va b md) := words _ (modified md _).1 rfl rfl (modified md 0).2
theorem vperm (vd : VReg) (va : VReg) (vb : VReg) (md : VMod) : Statement (.vperm vd va vb md) := words _ (modified md _).1 rfl rfl (modified md 0).2
theorem vcompr (vd : VReg) (va : VReg) (vb : VReg) (md : VMod) : Statement (.vcompr vd va vb md) := words _ (modified md _).1 rfl rfl (modified md 0).2
theorem vexpd (vd : VReg) (va : VReg) (vb : VReg) (md : VMod) : Statement (.vexpd vd va vb md) := words _ (modified md _).1 rfl rfl (modified md 0).2
theorem vmerge (vd : VReg) (va : VReg) (b : VSrc) (md : VMod) : Statement (.vmerge vd va b md) := words _ (modified md _).1 rfl rfl (modified md 0).2
theorem vtopk (vd : VReg) (va : VReg) (b : SReg) (md : VMod) : Statement (.vtopk vd va b md) := words _ (modified md _).1 rfl rfl (modified md 0).2
theorem vred (op : RedOp) (d : SReg) (va : VReg) (b : SReg) (md : VMod) : Statement (.vred op d va b md) := words _ (modified md _).1 rfl rfl (modified md 0).2
theorem vscan (op : RedOp) (vd : VReg) (va : VReg) (b : SReg) (md : VMod) : Statement (.vscan op vd va b md) := words _ (modified md _).1 rfl rfl (modified md 0).2
theorem vfadd (vd : VReg) (va : VReg) (b : VSrc) (md : VMod) : Statement (.vfadd vd va b md) := words _ (modified md _).1 rfl rfl (modified md 0).2
theorem vfsub (vd : VReg) (va : VReg) (b : VSrc) (md : VMod) : Statement (.vfsub vd va b md) := words _ (modified md _).1 rfl rfl (modified md 0).2
theorem vfmul (vd : VReg) (va : VReg) (b : VSrc) (md : VMod) : Statement (.vfmul vd va b md) := words _ (modified md _).1 rfl rfl (modified md 0).2
theorem vfdiv (vd : VReg) (va : VReg) (b : VSrc) (md : VMod) : Statement (.vfdiv vd va b md) := words _ (modified md _).1 rfl rfl (modified md 0).2
theorem vfsqrt (vd : VReg) (va : VReg) (md : VMod) : Statement (.vfsqrt vd va md) := words _ (modified md _).1 rfl rfl (modified md 0).2
theorem vfrsqe (vd : VReg) (va : VReg) (md : VMod) : Statement (.vfrsqe vd va md) := words _ (modified md _).1 rfl rfl (modified md 0).2
theorem vfrece (vd : VReg) (va : VReg) (md : VMod) : Statement (.vfrece vd va md) := words _ (modified md _).1 rfl rfl (modified md 0).2
theorem vfexp2 (vd : VReg) (va : VReg) (md : VMod) : Statement (.vfexp2 vd va md) := words _ (modified md _).1 rfl rfl (modified md 0).2
theorem vfmacc (vd : VReg) (va : VReg) (b : VSrc) (md : VMod) : Statement (.vfmacc vd va b md) := words _ (modified md _).1 rfl rfl (modified md 0).2
theorem vfnmacc (vd : VReg) (va : VReg) (b : VSrc) (md : VMod) : Statement (.vfnmacc vd va b md) := words _ (modified md _).1 rfl rfl (modified md 0).2
theorem vfmsac (vd : VReg) (va : VReg) (b : VSrc) (md : VMod) : Statement (.vfmsac vd va b md) := words _ (modified md _).1 rfl rfl (modified md 0).2
theorem vfnmsac (vd : VReg) (va : VReg) (b : VSrc) (md : VMod) : Statement (.vfnmsac vd va b md) := words _ (modified md _).1 rfl rfl (modified md 0).2
theorem vfmin (vd : VReg) (va : VReg) (b : VSrc) (md : VMod) : Statement (.vfmin vd va b md) := words _ (modified md _).1 rfl rfl (modified md 0).2
theorem vfmax (vd : VReg) (va : VReg) (b : VSrc) (md : VMod) : Statement (.vfmax vd va b md) := words _ (modified md _).1 rfl rfl (modified md 0).2
theorem vfclass (vd : VReg) (va : VReg) (md : VMod) : Statement (.vfclass vd va md) := words _ (modified md _).1 rfl rfl (modified md 0).2
theorem vfsgnj (vd : VReg) (va : VReg) (b : VSrc) (md : VMod) : Statement (.vfsgnj vd va b md) := words _ (modified md _).1 rfl rfl (modified md 0).2
theorem vfsgnjN (vd : VReg) (va : VReg) (b : VSrc) (md : VMod) : Statement (.vfsgnjN vd va b md) := words _ (modified md _).1 rfl rfl (modified md 0).2
theorem vfsgnjX (vd : VReg) (va : VReg) (b : VSrc) (md : VMod) : Statement (.vfsgnjX vd va b md) := words _ (modified md _).1 rfl rfl (modified md 0).2
theorem vfcmp (cc : FltCmp) (vd : VReg) (va : VReg) (b : VSrc) (md : VMod) : Statement (.vfcmp cc vd va b md) := words _ (modified md _).1 rfl rfl (modified md 0).2
theorem vfcvt (vd : VReg) (va : VReg) (src : SrcFmt) (md : VMod) : Statement (.vfcvt vd va src md) := words _ (modified md _).1 rfl rfl (modified md 0).2
theorem vfncvt (vd : VReg) (va : VReg) (src : SrcFmt) (md : VMod) : Statement (.vfncvt vd va src md) := words _ (modified md _).1 rfl rfl (modified md 0).2
theorem vfwadd (vd : VReg) (va : VReg) (b : VSrc) (md : VMod) : Statement (.vfwadd vd va b md) := words _ (modified md _).1 rfl rfl (modified md 0).2
theorem vfwmul (vd : VReg) (va : VReg) (b : VSrc) (md : VMod) : Statement (.vfwmul vd va b md) := words _ (modified md _).1 rfl rfl (modified md 0).2
theorem vfwmacc (vd : VReg) (va : VReg) (b : VSrc) (md : VMod) : Statement (.vfwmacc vd va b md) := words _ (modified md _).1 rfl rfl (modified md 0).2
theorem vfred (op : FRedOp) (d : SReg) (va : VReg) (b : SReg) (md : VMod) : Statement (.vfred op d va b md) := words _ (modified md _).1 rfl rfl (modified md 0).2
theorem vfredoSum (d : SReg) (va : VReg) (b : SReg) (md : VMod) : Statement (.vfredoSum d va b md) := words _ (modified md _).1 rfl rfl (modified md 0).2
theorem vfscan (op : FRedOp) (vd : VReg) (va : VReg) (c : SReg) (md : VMod) : Statement (.vfscan op vd va c md) := words _ (modified md _).1 rfl rfl (modified md 0).2
theorem vlrec (vd : VReg) (va : VReg) (c : SReg) (md : VMod) : Statement (.vlrec vd va c md) := words _ (modified md _).1 rfl rfl (modified md 0).2
theorem vlq (vd : VReg) (va : VReg) (src : SrcFmt) (md : VMod) : Statement (.vlq vd va src md) := words _ (modified md _).1 rfl rfl (modified md 0).2
theorem vlx (vd : VReg) (va : VReg) (src : SrcFmt) (md : VMod) : Statement (.vlx vd va src md) := words _ (modified md _).1 rfl rfl (modified md 0).2
theorem vlrq (vd : VReg) (va : VReg) (src : SrcFmt) (md : VMod) : Statement (.vlrq vd va src md) := words _ (modified md _).1 rfl rfl (modified md 0).2
theorem pair (x : PairHalf) (y : PairHalf) : Statement (.pair x y) := words 3 rfl rfl rfl (by decide)
theorem vld (vd : VReg) (a : SReg) (wid : MWidth) (md : VMod) (mo : MOrd) : Statement (.vld vd a wid md mo) := words _ (modified md _).1 rfl rfl (modified md 0).2
theorem vlds (vd : VReg) (a : SReg) (b : SReg) (wid : MWidth) (md : VMod) (mo : MOrd) : Statement (.vlds vd a b wid md mo) := words _ (modified md _).1 rfl rfl (modified md 0).2
theorem vldx (vd : VReg) (a : SReg) (vi : VReg) (wid : MWidth) (md : VMod) (mo : MOrd) : Statement (.vldx vd a vi wid md mo) := words _ (modified md _).1 rfl rfl (modified md 0).2
theorem vlseg (vd : VReg) (a : SReg) (nf : BitVec 3) (wid : MWidth) (md : VMod) (mo : MOrd) : Statement (.vlseg vd a nf wid md mo) := words _ (modified md _).1 rfl rfl (modified md 0).2
theorem vst (vs : VReg) (a : SReg) (wid : MWidth) (md : VMod) (mo : MOrd) : Statement (.vst vs a wid md mo) := words _ (modified md _).1 rfl rfl (modified md 0).2
theorem vsts (vs : VReg) (a : SReg) (b : SReg) (wid : MWidth) (md : VMod) (mo : MOrd) : Statement (.vsts vs a b wid md mo) := words _ (modified md _).1 rfl rfl (modified md 0).2
theorem vstx (vs : VReg) (a : SReg) (vi : VReg) (wid : MWidth) (md : VMod) (mo : MOrd) : Statement (.vstx vs a vi wid md mo) := words _ (modified md _).1 rfl rfl (modified md 0).2
theorem vsseg (vs : VReg) (a : SReg) (nf : BitVec 3) (wid : MWidth) (md : VMod) (mo : MOrd) : Statement (.vsseg vs a nf wid md mo) := words _ (modified md _).1 rfl rfl (modified md 0).2
theorem vldsl (vd : VReg) (a : SReg) (p : SparsePat) (md : VMod) (mo : MOrd) : Statement (.vldsl vd a p md mo) := words _ (modified md _).1 rfl rfl (modified md 0).2
theorem vstp (vs : VReg) (a : SReg) (sl : SReg) (p : SparsePat) (md : VMod) (mo : MOrd) : Statement (.vstp vs a sl p md mo) := words _ (modified md _).1 rfl rfl (modified md 0).2
theorem vstc (vs : VReg) (a : SReg) (sl : SReg) (wid : MWidth) (md : VMod) (mo : MOrd) : Statement (.vstc vs a sl wid md mo) := words _ (modified md _).1 rfl rfl (modified md 0).2
theorem vamo (op : VAmoOp) (dbl : Bool) (vd : VReg) (a : SReg) (vi : VReg) (md : VMod) (mo : MOrd) : Statement (.vamo op dbl vd a vi md mo) := words _ (modified md _).1 rfl rfl (modified md 0).2
theorem vstxr (vs : VReg) (a : SReg) (vi : VReg) (wid : MWidth) (md : VMod) (mo : MOrd) : Statement (.vstxr vs a vi wid md mo) := words _ (modified md _).1 rfl rfl (modified md 0).2
theorem vstj (vs : VReg) (a : SReg) (wid : MWidth) (md : VMod) (mo : MOrd) : Statement (.vstj vs a wid md mo) := words _ (modified md _).1 rfl rfl (modified md 0).2
theorem vstjIndexed (vs : VReg) (a : SReg) (vi : VReg) (wid : MWidth) (md : VMod) (mo : MOrd) : Statement (.vstjIndexed vs a vi wid md mo) := words _ (modified md _).1 rfl rfl (modified md 0).2
theorem mxr (vd : VReg) (vs : VReg) (tb : Bool) : Statement (.mxr vd vs tb) := words 1 rfl rfl rfl (by decide)
theorem mxri (vd : VReg) (vs : VReg) (vi : VReg) (tb : Bool) : Statement (.mxri vd vs vi tb) := words 1 rfl rfl rfl (by decide)
theorem mxrt (vd : VReg) (vs : VReg) (tb : Bool) : Statement (.mxrt vd vs tb) := words 1 rfl rfl rfl (by decide)
theorem tld (tb : Bool) (a : SReg) (b : SReg) (fmt : TileFmt) : Statement (.tld tb a b fmt) := words 1 rfl rfl rfl (by decide)
theorem twait (tb : Bool) : Statement (.twait tb) := words 1 rfl rfl rfl (by decide)
theorem tzero (tb : Bool) : Statement (.tzero tb) := words 1 rfl rfl rfl (by decide)
theorem fx (vd : VReg) (va : VReg) (slot : BitVec 6) : Statement (.fx vd va slot) := words 1 rfl rfl rfl (by decide)
theorem fxTwo (vd : VReg) (va : VReg) (vb : VReg) (slot : BitVec 6) : Statement (.fxTwo vd va vb slot) := words 1 rfl rfl rfl (by decide)
theorem fxLong (vd : VReg) (slot : BitVec 6) (src : FxSrcs) (len : SReg) (arg : SReg) : Statement (.fxLong vd slot src len arg) := words 2 (by cases src <;> rfl) rfl rfl (by decide)
theorem fbind (slot : BitVec 6) (a : SReg) : Statement (.fbind slot a) := words 1 rfl rfl rfl (by decide)
theorem funbind (slot : BitVec 6) : Statement (.funbind slot) := words 1 rfl rfl rfl (by decide)
theorem fload (d : SReg) (a : SReg) : Statement (.fload d a) := words 1 rfl rfl rfl (by decide)
theorem fdrop (a : SReg) : Statement (.fdrop a) := words 1 rfl rfl rfl (by decide)
theorem fshadow (slot : BitVec 6) (a : SReg) : Statement (.fshadow slot a) := words 1 rfl rfl rfl (by decide)
theorem fquery (d : SReg) (slot : BitVec 6) (a : SReg) : Statement (.fquery d slot a) := words 1 rfl rfl rfl (by decide)
theorem stj (a : SReg) (b : SReg) (rel : Bool) (dbl : Bool) : Statement (.stj a b rel dbl) := words 1 rfl rfl rfl (by decide)
theorem ltw (d : SReg) (a : SReg) (b : SReg) (acq : Bool) (dbl : Bool) : Statement (.ltw d a b acq dbl) := words 1 rfl rfl rfl (by decide)
theorem ltwn (d : SReg) (a : SReg) (b : SReg) (acq : Bool) (dbl : Bool) : Statement (.ltwn d a b acq dbl) := words 1 rfl rfl rfl (by decide)
theorem lsync (a : SReg) : Statement (.lsync a) := words 1 rfl rfl rfl (by decide)
theorem wait : Statement (.wait) := words 1 rfl rfl rfl (by decide)
theorem waitY : Statement (.waitY) := words 1 rfl rfl rfl (by decide)
theorem cbar : Statement (.cbar) := words 1 rfl rfl rfl (by decide)
theorem await (d : SReg) (a : SReg) : Statement (.await d a) := words 1 rfl rfl rfl (by decide)
theorem aquery (d : SReg) (a : SReg) : Statement (.aquery d a) := words 1 rfl rfl rfl (by decide)
theorem vsendNx (vs : VReg) : Statement (.vsendNx vs) := words 1 rfl rfl rfl (by decide)
theorem vsendPv (vs : VReg) : Statement (.vsendPv vs) := words 1 rfl rfl rfl (by decide)
theorem vrecvNx (vd : VReg) : Statement (.vrecvNx vd) := words 1 rfl rfl rfl (by decide)
theorem vrecvPv (vd : VReg) : Statement (.vrecvPv vd) := words 1 rfl rfl rfl (by decide)
theorem launch (d : SReg) (a : SReg) : Statement (.launch d a) := words 1 rfl rfl rfl (by decide)
theorem exit : Statement (.exit) := words 1 rfl rfl rfl (by decide)
theorem acopy (d : SReg) (a : SReg) (b : SReg) (c : SReg) : Statement (.acopy d a b c) := words 1 rfl rfl rfl (by decide)
theorem acopy2d (d : SReg) (a : SReg) (b : SReg) (c : SReg) (rows : SReg) (sstr : SReg) (dstr : SReg) : Statement (.acopy2d d a b c rows sstr dstr) := words 2 rfl rfl rfl (by decide)
theorem instructionFetchReturn (core : Nat) (line : Nat) : Statement (.instructionFetchReturn core line) := event rfl rfl rfl
theorem loadReturn (core : Nat) (line : Nat) : Statement (.loadReturn core line) := event rfl rfl rfl
theorem storePerformed (seat : Nat) (k : Nat) : Statement (.storePerformed seat k) := event rfl rfl rfl
theorem walkComplete (seat : Nat) (va : Nat) : Statement (.walkComplete seat va) := event rfl rfl rfl
theorem vspcfgTakesEffect (core : Nat) : Statement (.vspcfgTakesEffect core) := event rfl rfl rfl
theorem vectorDispatch (seat : Nat) : Statement (.vectorDispatch seat) := event rfl rfl rfl
theorem elementGroupEntry (seat : Nat) (k : Nat) : Statement (.elementGroupEntry seat k) := event rfl rfl rfl
theorem vectorComplete (seat : Nat) : Statement (.vectorComplete seat) := event rfl rfl rfl
theorem reflowComplete (core : Nat) (seat : Nat) : Statement (.reflowComplete core seat) := event rfl rfl rfl
theorem matrixRowStart (core : Nat) : Statement (.matrixRowStart core) := event rfl rfl rfl
theorem tileLoadComplete (seat : Nat) (tb : Bool) : Statement (.tileLoadComplete seat tb) := event rfl rfl rfl
theorem shortSeatServe (core : Nat) : Statement (.shortSeatServe core) := event rfl rfl rfl
theorem gceilRaise (core : Nat) : Statement (.gceilRaise core) := event rfl rfl rfl
theorem fxStart (seat : Nat) : Statement (.fxStart seat) := event rfl rfl rfl
theorem nodeFire (seat : Nat) (tile : Nat) (node : Nat) : Statement (.nodeFire seat tile node) := event rfl rfl rfl
theorem fxEndOfStream (seat : Nat) : Statement (.fxEndOfStream seat) := event rfl rfl rfl
theorem preemptionCut (seat : Nat) : Statement (.preemptionCut seat) := event rfl rfl rfl
theorem tileClockChangeComplete (core : Nat) (tile : Nat) : Statement (.tileClockChangeComplete core tile) := event rfl rfl rfl
theorem acopyComplete (seat : Nat) (handle : Nat) : Statement (.acopyComplete seat handle) := event rfl rfl rfl
theorem copyPageRetry (token : Nat) : Statement (.copyPageRetry token) := event rfl rfl rfl
theorem cbarRelease (core : Nat) (queue : Nat) (seq : Nat) : Statement (.cbarRelease core queue seq) := event rfl rfl rfl
theorem ltwSatisfied (seat : Nat) : Statement (.ltwSatisfied seat) := event rfl rfl rfl
theorem ltwtoExpiry (seat : Nat) : Statement (.ltwtoExpiry seat) := event rfl rfl rfl
theorem waitResume (seat : Nat) : Statement (.waitResume seat) := event rfl rfl rfl
theorem messageArrival (core : Nat) (fromNext : Bool) : Statement (.messageArrival core fromNext) := event rfl rfl rfl
theorem vsendRoom (seat : Nat) : Statement (.vsendRoom seat) := event rfl rfl rfl
theorem settleRound (lrt : Nat) (idx : Nat) : Statement (.settleRound lrt idx) := event rfl rfl rfl
theorem settleBlockReceive (k : Nat) : Statement (.settleBlockReceive k) := event rfl rfl rfl
theorem hostRecordCommit (queue : Nat) (wide : Bool) (data : Word) : Statement (.hostRecordCommit queue wide data) := event rfl rfl rfl
theorem gateTest (queue : Nat) : Statement (.gateTest queue) := event rfl rfl rfl
theorem priorityAging (queue : Nat) (seq : Nat) : Statement (.priorityAging queue seq) := event rfl rfl rfl
theorem taskPlacement : Statement (.taskPlacement) := event rfl rfl rfl
theorem gangPlacement : Statement (.gangPlacement) := event rfl rfl rfl
theorem gangReservation : Statement (.gangReservation) := event rfl rfl rfl
theorem groupCompletion (queue : Nat) (seq : Nat) : Statement (.groupCompletion queue seq) := event rfl rfl rfl
theorem faultRecordPost (seat : Nat) : Statement (.faultRecordPost seat) := event rfl rfl rfl
theorem fqRetry (fn : Nat) (token : Nat) : Statement (.fqRetry fn token) := event rfl rfl rfl
theorem fqSkip (fn : Nat) (token : Nat) : Statement (.fqSkip fn token) := event rfl rfl rfl
theorem fqRemove (fn : Nat) (token : Nat) : Statement (.fqRemove fn token) := event rfl rfl rfl
theorem parkedTimeout (token : Nat) : Statement (.parkedTimeout token) := event rfl rfl rfl
theorem runtimeLimitExpiry (seat : Nat) : Statement (.runtimeLimitExpiry seat) := event rfl rfl rfl
theorem stopTimeout (seat : Nat) : Statement (.stopTimeout seat) := event rfl rfl rfl
theorem exitRoutineTimeout (seat : Nat) : Statement (.exitRoutineTimeout seat) := event rfl rfl rfl
theorem level3SaveTimeout (seat : Nat) : Statement (.level3SaveTimeout seat) := event rfl rfl rfl
theorem seatPreemption (queue : Nat) (seq : Nat) : Statement (.seatPreemption queue seq) := event rfl rfl rfl
theorem contextRestore (token : Nat) : Statement (.contextRestore token) := event rfl rfl rfl
theorem bar2Read (fn : Nat) (off : Nat) (n : Nat) : Statement (.bar2Read fn off n) := event rfl rfl rfl
theorem bar2Write (fn : Nat) (off : Nat) (bytes : List Byte) : Statement (.bar2Write fn off bytes) := event rfl rfl rfl
theorem seatgo (value : Word) : Statement (.seatgo value) := event rfl rfl rfl
theorem keyCreate (id : Nat) : Statement (.keyCreate id) := event rfl rfl rfl
theorem keyDestroy (id : Nat) : Statement (.keyDestroy id) := event rfl rfl rfl
theorem keyCommandDone : Statement (.keyCommandDone) := event rfl rfl rfl
theorem stcmdWarm (guard : Nat) (outcome : List StartFail) : Statement (.stcmdWarm guard outcome) := event rfl rfl rfl
theorem stcmdCold (guard : Nat) (outcome : List StartFail) : Statement (.stcmdCold guard outcome) := event rfl rfl rfl
theorem powerApplied (outcome : List StartFail) : Statement (.powerApplied outcome) := event rfl rfl rfl
theorem warmReset (outcome : List StartFail) : Statement (.warmReset outcome) := event rfl rfl rfl
theorem vfFunctionReset (vf : Nat) : Statement (.vfFunctionReset vf) := event rfl rfl rfl
theorem heartbeatSend (agent : AgentId) : Statement (.heartbeatSend agent) := event rfl rfl rfl
theorem agentDeath (agent : AgentId) : Statement (.agentDeath agent) := event rfl rfl rfl
theorem powerSample (watts : Nat) : Statement (.powerSample watts) := event rfl rfl rfl
theorem temperatureSample (temps : List Nat) : Statement (.temperatureSample temps) := event rfl rfl rfl
theorem tripRecoveryStart (outcome : List StartFail) : Statement (.tripRecoveryStart outcome) := event rfl rfl rfl
theorem tclkWrite (die : Nat) (idx : Nat) (value : Word) : Statement (.tclkWrite die idx value) := event rfl rfl rfl
theorem portTraining (port : Nat) : Statement (.portTraining port) := event rfl rfl rfl
theorem loadRequest (port : Nat) (flit : Flit) : Statement (.loadRequest port flit) := event rfl rfl rfl
theorem loadResponse (port : Nat) (flit : Flit) : Statement (.loadResponse port flit) := event rfl rfl rfl
theorem store (port : Nat) (flit : Flit) : Statement (.store port flit) := event rfl rfl rfl
theorem trainUnits (port : Nat) (flit : Flit) : Statement (.trainUnits port flit) := event rfl rfl rfl
theorem trainTail (port : Nat) (flit : Flit) : Statement (.trainTail port flit) := event rfl rfl rfl
theorem acknowledgement (port : Nat) (flit : Flit) : Statement (.acknowledgement port flit) := event rfl rfl rfl
theorem latticeExchange (port : Nat) (flit : Flit) : Statement (.latticeExchange port flit) := event rfl rfl rfl
theorem peerHeartbeat (port : Nat) (flit : Flit) : Statement (.peerHeartbeat port flit) := event rfl rfl rfl
theorem linkTimeout (tag : Nat) : Statement (.linkTimeout tag) := event rfl rfl rfl
theorem qerrRead (fn : Nat) (queue : RegRead) : Statement (.qerrRead fn queue) := event rfl rfl rfl
theorem setcfgRead (die : RegRead) : Statement (.setcfgRead die) := event rfl rfl rfl
theorem fleetCounterRead (off : RegRead) : Statement (.fleetCounterRead off) := event rfl rfl rfl
theorem registerWrite (fn : Nat) (off : Nat) (size : Nat) (value : Word) : Statement (.registerWrite fn off size value) := event rfl rfl rfl
theorem copyEnginePageFault (seat : Nat) (handle : Nat) : Statement (.copyEnginePageFault seat handle) := event rfl rfl rfl
theorem fqconsWrite (fn : Nat) (value : Word) : Statement (.fqconsWrite fn value) := event rfl rfl rfl
theorem qctlWrite (queue : Nat) (value : Word) : Statement (.qctlWrite queue value) := event rfl rfl rfl
theorem hbmRefresh (stack : Nat) (bank : Nat) : Statement (.hbmRefresh stack bank) := event rfl rfl rfl

end Sys2Proof.Laws.EventOrWords
end

