-- ==== Sys2Proof/Tests/Slice0.lean ====
section
/-! SUPPORT. Tests: terms that are not well formed, words written out from the encodings of spec/03_encoding.md, one step of some
instructions on small states, and for each statement with hypotheses concrete states and operands that meet them. -/

namespace Sys2Proof.Tests

open Sys2Proof.Machine Sys2Proof.Safety

set_option Elab.async false

/-! ## Ill-formed terms -/

theorem test_wf_fcvt : (Instr.fcvt 1 2 ⟨.s, .s⟩).wf = false ∧ (Instr.fcvt 1 2 ⟨.w, .l⟩).wf = false ∧
    (Instr.fcvt 1 2 ⟨.w, .d⟩).wf = true := by decide
theorem test_wf_fence : (Instr.fence .core ⟨false, false, false, false⟩).wf = false := by decide
theorem test_wf_lanes : (Instr.setvl 1 2 3 (.octets 9)).wf = false ∧ (Instr.setvl 1 2 3 (.octets 8)).wf = true := by decide
theorem test_wf_negated_mask : (Instr.vadd 1 2 (.reg 3) ⟨false, some ⟨true, false, none⟩⟩).wf = false := by decide
theorem test_wf_x_register : (Instr.vadd 1 2 (.reg 3) ⟨true, some ⟨false, false, some 4⟩⟩).wf = false ∧
    (Instr.vfadd 1 2 (.reg 3) ⟨true, some ⟨false, false, some 4⟩⟩).wf = true := by decide
theorem test_wf_mask_not_allowed : (Instr.vmerge 1 2 (.reg 3) ⟨true, none⟩).wf = false ∧ (Instr.mkAnd 1 2 3 ⟨true, none⟩).wf = false := by
  decide
theorem test_wf_segments : (Instr.vlseg 1 2 0 .w ⟨false, none⟩ .unord).wf = false ∧
    (Instr.vsseg 1 2 1 .w ⟨false, none⟩ .ff).wf = false := by decide
theorem test_wf_store_order : (Instr.vst 1 2 .w ⟨false, none⟩ .ff).wf = false ∧ (Instr.vstp 1 2 3 .p24b ⟨false, none⟩ .ff).wf = false ∧
    (Instr.vamo .add true 1 2 3 ⟨false, none⟩ .ff).wf = false ∧ (Instr.vstxr 1 2 3 .w ⟨false, none⟩ .ord).wf = false := by decide
theorem test_wf_fx_lengths : (Instr.fxLong 1 2 (.two 3 4) 31 0).wf = false ∧ (Instr.fxLong 1 2 (.three 3 4 5) 30 0).wf = false ∧
    (Instr.fxLong 1 2 (.three 3 4 5) 29 0).wf = true := by decide
theorem test_wf_pair : (Instr.pair ⟨.int .clz, 1, 2, .reg 3, none⟩ ⟨.int .add, 1, 2, .reg 3, none⟩).wf = false ∧
    (Instr.pair ⟨.flt .add, 1, 2, .reg 3, some 4⟩ ⟨.flt .add, 1, 2, .reg 3, none⟩).wf = false ∧
    (Instr.pair ⟨.flt .add, 1, 2, .reg 3, none⟩ ⟨.int .add, 1, 2, .reg 3, some 4⟩).wf = false := by decide
theorem test_wf_cores : (Instr.instructionFetchReturn 192 0).wf = false ∧ (Instr.loadReturn 192 0).wf = false ∧
    (Instr.vspcfgTakesEffect 192).wf = false ∧ (Instr.matrixRowStart 192).wf = false ∧ (Instr.shortSeatServe 192).wf = false ∧
    (Instr.gceilRaise 192).wf = false ∧ (Instr.messageArrival 192 true).wf = false ∧ (Instr.cbarRelease 192 0 0).wf = false ∧
    (Instr.tileClockChangeComplete 0 8).wf = false ∧ (Instr.reflowComplete 192 0).wf = false := by decide
theorem test_wf_seats : (Instr.storePerformed 1536 0).wf = false ∧ (Instr.walkComplete 1536 0).wf = false ∧
    (Instr.vectorDispatch 1536).wf = false ∧ (Instr.elementGroupEntry 1536 0).wf = false ∧ (Instr.vectorComplete 1536).wf = false ∧
    (Instr.tileLoadComplete 1536 true).wf = false ∧ (Instr.fxStart 1536).wf = false ∧ (Instr.nodeFire 0 8 0).wf = false ∧
    (Instr.nodeFire 0 0 27).wf = false ∧ (Instr.nodeFire 0 1 20).wf = false ∧ (Instr.nodeFire 0 0 24).wf = true ∧ (Instr.fxEndOfStream 1536).wf = false ∧ (Instr.preemptionCut 1536).wf = false ∧
    (Instr.acopyComplete 1536 0).wf = false ∧ (Instr.ltwSatisfied 1536).wf = false ∧ (Instr.ltwtoExpiry 1536).wf = false ∧
    (Instr.waitResume 1536).wf = false ∧ (Instr.vsendRoom 1536).wf = false := by decide
theorem test_wf_faults : (Instr.faultRecordPost 1536).wf = false ∧ (Instr.runtimeLimitExpiry 1536).wf = false ∧
    (Instr.stopTimeout 1536).wf = false ∧ (Instr.exitRoutineTimeout 1536).wf = false ∧ (Instr.level3SaveTimeout 1536).wf = false ∧
    (Instr.seatPreemption 64 0).wf = false ∧ (Instr.fqRetry 17 0).wf = false ∧ (Instr.fqSkip 17 0).wf = false ∧
    (Instr.fqRemove 17 0).wf = false ∧ (Instr.fqconsWrite 17 0).wf = false ∧ (Instr.copyEnginePageFault 1536 0).wf = false := by decide
theorem test_wf_queues : (Instr.hostRecordCommit 64 true 0).wf = false ∧ (Instr.gateTest 64).wf = false ∧
    (Instr.priorityAging 64 0).wf = false ∧ (Instr.groupCompletion 64 0).wf = false ∧ (Instr.qctlWrite 64 0).wf = false ∧
    (Instr.settleRound 0 4096).wf = false ∧ (Instr.qerrRead 0 ⟨64, .whole⟩).wf = false := by decide
theorem test_wf_host : (Instr.bar2Read 17 0 0).wf = false ∧ (Instr.bar2Write 17 0 []).wf = false ∧ (Instr.keyCreate 1024).wf = false ∧
    (Instr.keyDestroy 1024).wf = false ∧ (Instr.vfFunctionReset 16).wf = false ∧ (Instr.tclkWrite 6 0 0).wf = false ∧
    (Instr.setcfgRead ⟨6, .low⟩).wf = false ∧ (Instr.registerWrite 17 0 8 0).wf = false ∧ (Instr.hbmRefresh 12 0).wf = false := by decide
theorem test_wf_agents : (Instr.heartbeatSend (.core 192)).wf = false ∧ (Instr.agentDeath (.die 6)).wf = false ∧
    (Instr.agentDeath (.peer 128)).wf = false := by decide
/-- A flit for the tests of ports: a peer heartbeat from device 1 to device 0. -/
def beat1 : Flit := unitFlit 8 1 0 0 0 0 []
theorem test_wf_ports : (Instr.portTraining 12).wf = false ∧ (Instr.loadRequest 12 beat1).wf = false ∧
    (Instr.loadResponse 12 beat1).wf = false ∧ (Instr.store 12 beat1).wf = false ∧ (Instr.trainUnits 12 beat1).wf = false ∧
    (Instr.trainTail 12 beat1).wf = false ∧ (Instr.acknowledgement 12 beat1).wf = false ∧ (Instr.latticeExchange 12 beat1).wf = false ∧
    (Instr.peerHeartbeat 12 beat1).wf = false := by decide

/-! ## Words written out from the encodings (spec/03_encoding.md R79 to R109) -/

theorem test_decode_scalar : decodeWords [0x01#6 ++ 3#6 ++ 1#6 ++ 2#6 ++ 0x08#8] = .ok (.sra 3 1 2) ∧
    decodeWords [0x01#6 ++ 3#6 ++ 1#6 ++ 2#6 ++ 0x1C#8] = .ok (.sext 3 1 .w) ∧
    decodeWords [0x05#6 ++ 3#6 ++ 1#6 ++ 1#1 ++ 0x1FFF#13] = .ok (.sltiu 3 1 0x1FFF) ∧
    decodeWords [0x3E#6 ++ 1#6 ++ 2#6 ++ 2#6 ++ 3#8, 0x07#6 ++ 9#6 ++ 4#20] = .ok (.lpcWide 9 (1#6 ++ 2#6 ++ 3#8 ++ 4#20)) := by
  refine ⟨?_, ?_, ?_, ?_⟩ <;> rfl
theorem test_decode_branch : decodeWords [0x09#6 ++ 1#1 ++ 4#5 ++ 0#1 ++ 5#5 ++ 0x3FFF#14] = .ok (.jlr 4 5 0x3FFF) ∧
    decodeWords [0x0B#6 ++ 0x3FFFFFF#26] = .ok (.jl 0x3FFFFFF) := by refine ⟨?_, ?_⟩ <;> rfl
theorem test_decode_memory : decodeWords [0x0D#6 ++ 3#6 ++ 1#6 ++ 2#3 ++ 0#1 ++ 0x200#10] = .ok (.stW 3 1 false 0x200) ∧
    decodeWords [0x0E#6 ++ 3#6 ++ 1#6 ++ 2#6 ++ 4#3 ++ 0#1 ++ 1#1 ++ 0#3] = .ok (.ldBuIndexed 3 1 2 true) := by
  refine ⟨?_, ?_⟩ <;> rfl
theorem test_decode_atomic : decodeWords [0x0F#6 ++ 3#6 ++ 1#6 ++ 2#6 ++ 9#4 ++ 1#1 ++ 2#2 ++ 0#1] = .ok (.cas 3 1 2 true true false) := rfl
theorem test_decode_float : decodeWords [0x10#6 ++ 3#6 ++ 1#6 ++ 2#6 ++ 0x13#8] = .ok (.fcmpLt 3 1 2 true) ∧
    decodeWords [0x13#6 ++ 3#6 ++ 1#6 ++ 2#6 ++ 4#6 ++ 2#2] = .ok (.fnmadd 3 1 2 4 true) ∧
    decodeWords [0x12#6 ++ 3#6 ++ 1#6 ++ 0#6 ++ 0x25#8] = .ok (.fcvt 3 1 ⟨.w, .d⟩) := by refine ⟨?_, ?_, ?_⟩ <;> rfl
theorem test_decode_system : decodeWords [0x14#6 ++ 0#6 ++ 0xABC#12 ++ 1#8] = .ok (.trap 0xABC) ∧
    decodeWords [0x14#6 ++ 0#3 ++ 3#3 ++ 0#2 ++ 9#4 ++ 0#6 ++ 4#8] = .ok (.fence .device ⟨true, false, false, true⟩) ∧
    decodeWords [0x15#6 ++ 0#6 ++ 5#6 ++ 0x007#12 ++ 1#2] = .ok (.xwr 7 5) := by refine ⟨?_, ?_, ?_⟩ <;> rfl
theorem test_decode_config : decodeWords [0x16#6 ++ 3#6 ++ 1#6 ++ 2#6 ++ 15#4 ++ 0#4] = .ok (.setvl 3 1 2 .cur) ∧
    decodeWords [0x16#6 ++ 0#6 ++ 0#6 ++ 3#6 ++ 0#4 ++ 2#4] = .ok (.vshape 3) ∧
    decodeWords [0x17#6 ++ 3#6 ++ 1#6 ++ 0x2A5A#14] = .ok (.setvli 3 1 0x2A5A) := by refine ⟨?_, ?_, ?_⟩ <;> rfl
theorem test_decode_vector : decodeWords [0x19#6 ++ 4#6 ++ 9#6 ++ 8#6 ++ 0#1 ++ 0#1 ++ 0x0A#6] = .ok (.vwmulSu 4 8 (.reg 9) ⟨false, none⟩) ∧
    decodeWords [0x1A#6 ++ 4#6 ++ 9#6 ++ 8#6 ++ 1#1 ++ 0#1 ++ 0x0B#6] = .ok (.vnclipU 4 8 (.reg 9) ⟨true, none⟩) ∧
    decodeWords [0x3E#6 ++ 0#6 ++ 0#6 ++ 1#6 ++ 1#8, 0x18#6 ++ 4#6 ++ 63#6 ++ 8#6 ++ 1#1 ++ 0#1 ++ 0x07#6] =
      .ok (.vnmsac 4 8 (.reg 63) ⟨true, some ⟨true, false, none⟩⟩) := by refine ⟨?_, ?_, ?_⟩ <;> rfl
theorem test_decode_compare : decodeWords [0x1B#6 ++ 4#6 ++ 9#6 ++ 8#6 ++ 0#1 ++ 1#1 ++ 1#1 ++ 0#1 ++ 9#4] =
    .ok (.vcmpBrk .geu 4 8 (.scalar 9) ⟨false, none⟩) ∧
    decodeWords [0x1C#6 ++ 4#6 ++ 9#6 ++ 8#6 ++ 0#1 ++ 0#1 ++ 3#6] = .ok (.mkAndn 4 8 9 ⟨false, none⟩) ∧
    decodeWords [0x1D#6 ++ 4#6 ++ 9#6 ++ 8#6 ++ 0#1 ++ 1#1 ++ 4#6] = .ok (.vslided 4 8 9 ⟨false, none⟩) ∧
    decodeWords [0x1E#6 ++ 4#6 ++ 9#6 ++ 8#6 ++ 0#1 ++ 1#1 ++ 0x0D#6] = .ok (.vscan .and 4 8 9 ⟨false, none⟩) := by
  refine ⟨?_, ?_, ?_, ?_⟩ <;> rfl
theorem test_decode_vector_float :
    decodeWords [0x3E#6 ++ 33#6 ++ 0#6 ++ 1#6 ++ 4#8, 0x20#6 ++ 4#6 ++ 9#6 ++ 8#6 ++ 0#1 ++ 1#1 ++ 0x0B#6] =
      .ok (.vfnmsac 4 8 (.scalar 9) ⟨false, some ⟨false, false, some 33⟩⟩) ∧
    decodeWords [0x22#6 ++ 4#6 ++ 0x14#6 ++ 8#6 ++ 0#1 ++ 0#1 ++ 1#6] = .ok (.vfncvt 4 8 .bf16 ⟨false, none⟩) ∧
    decodeWords [0x23#6 ++ 4#6 ++ 9#6 ++ 8#6 ++ 0#1 ++ 1#1 ++ 0x10#6] = .ok (.vlrec 4 8 9 ⟨false, none⟩) ∧
    decodeWords [0x24#6 ++ 4#6 ++ 0x19#6 ++ 8#6 ++ 0#1 ++ 0#1 ++ 1#6] = .ok (.vlx 4 8 .el16 ⟨false, none⟩) := by
  refine ⟨?_, ?_, ?_, ?_⟩ <;> rfl
theorem test_decode_vector_memory :
    decodeWords [0x28#6 ++ 4#6 ++ 9#6 ++ 8#6 ++ 2#3 ++ 2#2 ++ 1#1 ++ 2#2] = .ok (.vldx 4 9 8 .w ⟨true, none⟩ .ff) ∧
    decodeWords [0x29#6 ++ 4#6 ++ 9#6 ++ 7#6 ++ 0#3 ++ 3#2 ++ 0#1 ++ 1#2] = .ok (.vsseg 4 9 7 .b ⟨false, none⟩ .ord) ∧
    decodeWords [0x2A#6 ++ 4#6 ++ 9#6 ++ 7#6 ++ 5#3 ++ 1#2 ++ 0#1 ++ 0#2] = .ok (.vstp 4 9 7 .p48h ⟨false, none⟩ .unord) ∧
    decodeWords [0x2B#6 ++ 4#6 ++ 9#6 ++ 8#6 ++ 2#2 ++ 1#1 ++ 0#2 ++ 0#1 ++ 0#2] = .ok (.vamo .swap true 4 9 8 ⟨false, none⟩ .unord) := by
  refine ⟨?_, ?_, ?_, ?_⟩ <;> rfl
theorem test_decode_matrix : decodeWords [0x2E#6 ++ 4#6 ++ 9#6 ++ 8#6 ++ 0#1 ++ 1#1 ++ 1#6] = .ok (.mxri 4 8 9 true) ∧
    decodeWords [0x2F#6 ++ 1#6 ++ 9#6 ++ 8#6 ++ 4#4 ++ 0#4] = .ok (.tld true 9 8 .bf16) := by refine ⟨?_, ?_⟩ <;> rfl
theorem test_decode_fabric : decodeWords [0x30#6 ++ 4#6 ++ 9#6 ++ 8#6 ++ 0#1 ++ 1#1 ++ 63#6] = .ok (.fxTwo 4 8 9 63) ∧
    decodeWords [0x31#6 ++ 4#6 ++ 9#6 ++ 8#6 ++ 6#8] = .ok (.fquery 4 8 9) := by refine ⟨?_, ?_⟩ <;> rfl
theorem test_decode_sync : decodeWords [0x34#6 ++ 4#6 ++ 9#6 ++ 8#6 ++ 0x1B#8] = .ok (.ltwn 4 9 8 true true) ∧
    decodeWords [0x34#6 ++ 4#6 ++ 0#6 ++ 0#6 ++ 0x31#8] = .ok (.vsendPv 4) ∧
    decodeWords [0x34#6 ++ 4#6 ++ 9#6 ++ 0#6 ++ 0x38#8] = .ok (.launch 4 9) ∧
    decodeWords [0x3E#6 ++ 5#6 ++ 6#6 ++ 4#6 ++ 7#6 ++ 0#2, 0x35#6 ++ 1#6 ++ 2#6 ++ 3#6 ++ 4#6 ++ 0#2] = .ok (.acopy2d 1 2 3 4 5 6 7) := by
  refine ⟨?_, ?_, ?_, ?_⟩ <;> rfl
/-- The refusals of R114 in their order. -/
theorem test_decode_refusals : decodeWords [0x00000000] = .error .major ∧ decodeWords [0x3E#6 ++ 0#12 ++ 5#6 ++ 0#8] = .error .major ∧
    decodeWords [0x3E#6 ++ 0#12 ++ 1#6 ++ 0#8, 0x3E#6 ++ 0#12 ++ 1#6 ++ 0#8] = .error .misuse ∧
    decodeWords [0x01#6 ++ 3#6 ++ 1#6 ++ 2#6 ++ 0x13#8] = .error .code ∧
    decodeWords [0x01#6 ++ 3#6 ++ 1#6 ++ 2#6 ++ 0x18#8] = .error .field ∧
    decodeWords [0x01#6 ++ 0x23#6 ++ 1#6 ++ 2#6 ++ 0x00#8] = .error .top ∧
    decodeWords [0x3E#6 ++ 0#6 ++ 0#6 ++ 1#6 ++ 1#8, 0x18#6 ++ 4#6 ++ 9#6 ++ 8#6 ++ 0#8] = .error .misuse := by
  refine ⟨?_, ?_, ?_, ?_, ?_, ?_, ?_⟩ <;> rfl
/-- An odd vd of a widening instruction comes before the top bit of its scalar (R114, R173). -/
theorem test_decode_odd : decodeWords [0x19#6 ++ 5#6 ++ 40#6 ++ 8#6 ++ 0#1 ++ 1#1 ++ 0x00#6] = .error .code ∧
    decodeWords [0x19#6 ++ 4#6 ++ 40#6 ++ 8#6 ++ 0#1 ++ 1#1 ++ 0x00#6] = .error .top := by
  refine ⟨?_, ?_⟩ <;> rfl

/-! ## Single steps on small states -/

/-- The state an instruction leads to. -/
def out (i : Instr) (s : State) : State :=
  match exec i s with
  | .next t => t
  | _ => s

/-- Some lines, rising, are owner 0's, without poison, and in their slices. -/
def withLines (ls : List Nat) (s : State) : State := { s with lines := ls.map (fun l => (l, ⟨some 0, false⟩)), slice := ls.map (fun l => (l, false)) }
/-- Reset with the first GiB mapped, in the TLB of die 0, to the first GiB of HBM for owner 0, whose line at 0x2000 is valid and in its slice, as
the first line of the page tables is. -/
def mapped : State := withLines [0, 64] { State.reset with tlb := [⟨dieTlb 0, 0, 0, 30, 0, 0x3D⟩] }

/-- Scalar registers with values. -/
def regs (l : List (SReg × Word)) (s : State := mapped) : State := s.withTh (l.foldl (fun t e => t.setX e.1 e.2) s.th)

/-- f registers with values. -/
def fregs (l : List (SReg × Word)) (s : State := mapped) : State := s.withTh (l.foldl (fun t e => t.setFr e.1 e.2) s.th)

/-- Control registers with values. -/
def csrs (l : List (Csr × Word)) (s : State := mapped) : State := s.withTh (l.foldl (fun t e => t.set e.1 e.2) s.th)

/-- One octet, a VTYPE and a VL, and elements of vector registers from element 0. -/
def vec (vt : Word) (vl : Nat) (es : List (Nat × List Nat)) (s : State := mapped) : State :=
  let s := csrs [(.grant, grantWord [0]), (.vtype, vt), (.vl, BitVec.ofNat 64 vl)] s
  s.withTh (es.foldl (fun t e => e.2.zipIdx.foldl (fun t v => t.setElem e.1 t.ew v.2 v.1) t) s.th)

/-- Elements 0 and 1 of a register. -/
def two (s : State) (n : Nat) : List Nat := [s.th.elem n s.th.ew 0, s.th.elem n s.th.ew 1]

/-- INT32 and FP32 elements; unmasked. -/
def i32 : Word := 2
def f32 : Word := 26
def um : VMod := ⟨false, none⟩

theorem test_add_wraps : (out (.add 3 1 2) (regs [(1, 0xFFFFFFFFFFFFFFFF), (2, 2)])).th.x 3 = 1 := by decide
theorem test_sra_keeps_sign : (out (.sra 3 1 2) (regs [(1, 0x8000000000000000), (2, 65)])).th.x 3 = 0xC000000000000000 := by decide
theorem test_div_by_zero : (out (.div 3 1 2) (regs [(1, 7)])).th.x 3 = 0xFFFFFFFFFFFFFFFF ∧
    (out (.rem 3 1 2) (regs [(1, 7)])).th.x 3 = 7 := by decide
theorem test_rem_sign : (out (.rem 3 1 2) (regs [(1, 0xFFFFFFFFFFFFFFF9), (2, 2)])).th.x 3 = 0xFFFFFFFFFFFFFFFF := by decide
theorem test_s0_discards : (out (.addi 0 0 5) mapped).th.x 0 = 0 := by decide
theorem test_sltiu_extends : (out (.sltiu 3 1 0x1FFF) (regs [(1, 0xFFFFFFFFFFFFFFFE)])).th.x 3 = 1 := by decide
theorem test_lhi : (out (.lhi 3 0x80000) mapped).th.x 3 = 0xFFFFFFFF80000000 := by decide
theorem test_blt_taken : (out (.blt 1 2 0x3FFF) (regs [(1, 0xFFFFFFFFFFFFFFFF)] { mapped with th := { mapped.th with pc := 8 } })).th.pc = 4 := by
  decide
theorem test_jlr_misaligned : (out (.jlr 3 1 0) (regs [(1, 0x2002)])).th.get .ecause = 3 := by decide
theorem test_ld_b_extends : (out (.ldB 3 1 false 0) (regs [(1, 0x2000)] { mapped with mem := [(0x2000, 0x80)] })).th.x 3 =
    0xFFFFFFFFFFFFFF80 := by decide +kernel
theorem test_st_d_bytes : (out (.stD 2 1 false 1) (regs [(1, 0x2000), (2, 0x0102)])).th.lsq = [⟨0x2008, [2, 1, 0, 0, 0, 0, 0, 0], 0, false, false⟩] := by
  decide +kernel
theorem test_ld_misaligned : (out (.ldD 3 1 false 0) (regs [(1, 0x2001)])).th.get .eval = 0x2001 := by decide +kernel
theorem test_amo_add : (out (.amoAdd 3 1 2 false false false) (regs [(1, 0x2000), (2, 1)] { mapped with mem := [(0x2000, 0xFF)] })).mem =
    [(0x2001, 1)] := by decide +kernel
theorem test_cas_fails : (out (.cas 3 1 2 true false false) (regs [(1, 0x2000), (2, 1), (3, 9)] { mapped with mem := [(0x2000, 5)] })).th.x 3 =
    5 := by decide +kernel
theorem test_fadd_d : (out (.fadd 3 1 2 true) (fregs [(1, 0x3FF0000000000000), (2, 0x4000000000000000)])).th.fr 3 = 0x4008000000000000 := by
  decide +kernel
theorem test_fdiv_by_zero : (out (.fdiv 3 1 2 true) (fregs [(1, 0x3FF0000000000000)])).th.get .fflags = 8 := by decide +kernel
theorem test_fcvt_w_d : (out (.fcvt 3 1 ⟨.w, .d⟩) (fregs [(1, 0xC008000000000000)])).th.x 3 = 0xFFFFFFFFFFFFFFFD := by decide +kernel
theorem test_trap_entry : (out (.trap 7) (csrs [(.evec, 0x4000)])).th.pc = 0x4000 ∧ (out (.trap 7) mapped).th.get .ecause = 0x10 := by
  decide
theorem test_eret : (out .eret (csrs [(.epc, 0x1234), (.status, 1)])).th.pc = 0x1234 ∧
    (out .eret (csrs [(.status, 1)])).th.priv = false := by decide
theorem test_user_csr : (out (.xrd 3 0x105) (csrs [(.status, 0)])).th.get .ecause = 2 := by decide
theorem test_setvl : (out (.setvl 3 1 2 (.octets 1)) (regs [(1, 1000), (2, 2)])).th.x 3 = 256 := by decide +kernel
theorem test_vcfg_reserved : (out (.vcfg 1) (regs [(1, 4)])).th.get .ecause = 0x0701 := by decide
theorem test_vadd : two (out (.vadd 3 1 (.reg 2) um) (vec i32 2 [(1, [1, 0xFFFFFFFF]), (2, [5, 1])])) 3 = [6, 0] := by decide +kernel
theorem test_vsub_masked : two (out (.vsub 3 1 (.reg 2) ⟨true, none⟩) (vec i32 2 [(0, [0, 1]), (1, [7, 7]), (2, [1, 1]), (3, [9, 9])])) 3 =
    [9, 6] := by decide +kernel
theorem test_vwmul : (out (.vwmul 4 1 (.reg 2) um) (vec i32 1 [(1, [0xFFFFFFFF]), (2, [3])])).th.elem 4 64 0 = 0xFFFFFFFFFFFFFFFD := by
  decide +kernel
theorem test_vsadd : two (out (.vsadd 3 1 (.reg 2) um) (vec i32 2 [(1, [0x7FFFFFFF, 0x80000000]), (2, [1, 0xFFFFFFFF])])) 3 =
    [0x7FFFFFFF, 0x80000000] := by decide +kernel
theorem test_vcmp_ltu : (out (.vcmp .ltu 3 1 (.reg 2) um) (vec i32 2 [(1, [1, 0xFFFFFFFF]), (2, [2, 2])])).th.maskBit 3 0 = true ∧
    (out (.vcmp .ltu 3 1 (.reg 2) um) (vec i32 2 [(1, [1, 0xFFFFFFFF]), (2, [2, 2])])).th.maskBit 3 1 = false := by decide +kernel
theorem test_vslideu : two (out (.vslideu 3 1 5 um) (regs [(5, 1)] (vec i32 2 [(1, [7, 8]), (3, [1, 2])]))) 3 = [1, 7] := by
  decide +kernel
theorem test_vperm : two (out (.vperm 3 1 2 um) (vec i32 2 [(1, [7, 8]), (2, [1, 1000])])) 3 = [8, 0] := by decide +kernel
theorem test_vred_add : (out (.vred .add 3 1 5 um) (regs [(5, 10)] (vec i32 2 [(1, [0xFFFFFFFF, 3])]))).th.x 3 = 12 := by decide +kernel
theorem test_vfadd : two (out (.vfadd 3 1 (.reg 2) um) (vec f32 2 [(1, [0x3F800000, 0x7F800000]), (2, [0x40000000, 0xFF800000])])) 3 =
    [0x40400000, 0x7FC00000] := by decide +kernel
theorem test_vfred_sum : (out (.vfred .sum 3 1 2 um) (fregs [(2, 0xFFFFFFFF3F800000)] (vec f32 2 [(1, [0x3F800000, 0x40000000])]))).th.fs 3 =
    0x40800000 := by decide +kernel
theorem test_vfcvt_int : (out (.vfcvt 3 1 .int32 um) (vec f32 1 [(1, [3])])).th.elem 3 32 0 = 0x40400000 := by decide +kernel
theorem test_vld : two (out (.vld 3 5 .w um .unord) (regs [(5, 0x2000)] (vec i32 2 [] { mapped with mem := [(0x2000, 7), (0x2005, 1)] }))) 3 =
    [7, 256] := by decide +kernel
theorem test_vst : (out (.vst 3 5 .w um .unord) (regs [(5, 0x2000)] (vec i32 2 [(3, [7, 0x100])]))).mem = [(0x2000, 7), (0x2005, 1)] := by
  decide +kernel
theorem test_pair : two (out (.pair ⟨.int .add, 3, 1, .reg 2, none⟩ ⟨.int .sub, 3, 1, .reg 2, none⟩)
    (vec i32 2 [(0, [1]), (1, [7, 7]), (2, [2, 2])])) 3 = [9, 5] := by decide +kernel
theorem test_vec_beyond_shape : (out (.vadd 8 1 (.reg 2) um) (vec i32 2 [])).th.get .ecause = 0x11 := by decide +kernel
theorem test_tzero : (out (.tzero true) (vec i32 1 [])).th.tb1.data = 0 ∧ (out (.tzero true) (vec i32 1 [])).th.tb1.tag = 0 := by decide +kernel
theorem test_wait_suspends : (out .wait mapped).th.run = .waiting (.event false) := by decide +kernel
theorem test_acopy_handle : ((out (.acopy 3 1 2 4) (regs [(1, 0x3000), (2, 0x2000), (4, 64)])).copies.map (fun c => (c.len, c.rows))) =
    [(64, 1)] := by decide +kernel
theorem test_exit_frees_seat : ((out .exit (csrs [(.status, 0)])).seat 7).run = .free := by decide +kernel

/-! ## States and operands that meet the hypotheses of the statements -/

theorem ok_of {ε α : Type} {r : Except ε α} (h : r.toOption.isSome = true) : ∃ x, r = .ok x := by
  cases r with
  | ok x => exact ⟨x, rfl⟩
  | error e => cases h
theorem err_of {ε α : Type} {r : Except ε α} (h : r.toOption.isSome = false) : ∃ e, r = .error e := by
  cases r with
  | ok x => cases h
  | error e => exact ⟨e, rfl⟩
theorem some_of {α : Type} {r : Option α} (h : r.isSome = true) : ∃ x, r = some x := Option.isSome_iff_exists.mp h

/-- The instruction answers a next state. -/
theorem exec_out {i : Instr} {s : State} (h : (match exec i s with | .next _ => true | _ => false) = true) :
    exec i s = .next (out i s) := by
  unfold out
  split at h
  · next t e => rw [e]
  · cases h

/-- An access that lands outside control space, of bytes that show no poison. -/
def landsAt (s : State) (k : Acc) (ctl : Bool) (va : Word) (n : Nat) : Bool :=
  match s.access s.ctx k ctl va n 0 with
  | .ok l => decide (s.remoteOf va = none) && decide (paKind l.pa ≠ .ctl) && decide (l.region = none) && !s.poisoned s.th.owner l
  | .error _ => false

theorem lands_of {s : State} {k : Acc} {ctl : Bool} {va : Word} {n : Nat} (h : landsAt s k ctl va n = true) :
    ∃ l, Lands s k ctl va n l ∧ l.region = none ∧ s.poisoned s.th.owner l = false := by
  unfold landsAt at h
  split at h
  · next l e =>
    simp only [Bool.and_eq_true, decide_eq_true_eq, Bool.not_eq_true'] at h
    exact ⟨l, ⟨h.1.1.1, e, h.1.1.2⟩, h.1.2, h.2⟩
  · cases h

/-- Base register at 0x2000, and register 2 with a value. -/
def base : State := regs [(1, 0x2000), (2, 0x1122334455667788)]

theorem wit_RegistersAndPassing : (1 : SReg) ≠ 0 ∧ (2 : SReg) ≠ 1 ∧
    (State.reset.th.fr 1).extractLsb' 32 32 ≠ BitVec.allOnes 32 := by decide
theorem wit_ScalarFrame : exec (.add 3 1 2) base = .next (out (.add 3 1 2) base) ∧ (base.th.x 1 + (1#14).signExtend 64 * 4).toNat % 4 = 0 ∧
    (base.th.x 1 + (1#14).signExtend 64 * 4).toNat < 2 ^ 57 ∧ exec (.jlr 3 1 1) base = .next (out (.jlr 3 1 1) base) := by
  refine ⟨rfl, by decide, by decide, rfl⟩
theorem wit_ScalarLoadResults : (Instr.ldD 3 1 false 1, base.th.x 1 + 8, 8, false) ∈ loadForms base 3 1 2 false 1 ∧
    ∃ l, Lands base .load (base.ctlAllowed 8) (base.th.x 1 + 8) 8 l ∧ l.region = none ∧ base.poisoned base.th.owner l = false :=
  ⟨by decide, lands_of (by decide +kernel)⟩
theorem wit_ScalarStoreEntersTheQueue : (Instr.stB 2 1 true 127, base.th.x 1 + 127, 1) ∈ storeForms base 2 1 2 true 127 ∧
    base.th.lsq.length < 64 ∧ ∃ l, Lands base .store (base.ctlAllowed 1) (base.th.x 1 + 127) 1 l ∧ l.region = none ∧
      base.poisoned base.th.owner l = false := ⟨by decide, by decide, lands_of (by decide +kernel)⟩
theorem wit_StoreThenLoadReturnsValue : base.th.lsq.length < 64 ∧ (3 : SReg) ≠ 0 ∧
    (∃ l, Lands base .store (base.ctlAllowed 8) (base.th.x 1 + BitVec.ofInt 64 ((0#10).toInt * 8)) 8 l ∧ l.region = none ∧
      base.poisoned base.th.owner l = false) ∧
    (∃ l, Lands base .load (base.ctlAllowed 8) (base.th.x 1 + BitVec.ofInt 64 ((0#10).toInt * 8)) 8 l ∧ l.region = none ∧
      base.poisoned base.th.owner l = false) ∧
    exec (.stD 2 1 false 0) base = .next (out (.stD 2 1 false 0) base) ∧
    exec (.ldD 3 1 false 0) (out (.stD 2 1 false 0) base) = .next (out (.ldD 3 1 false 0) (out (.stD 2 1 false 0) base)) ∧
    (out (.ldD 3 1 false 0) (out (.stD 2 1 false 0) base)).th.x 3 = 0x1122334455667788 :=
  ⟨by decide, by decide, lands_of (by decide +kernel), lands_of (by decide +kernel), rfl, rfl, by decide +kernel⟩

/-- The same with the line at 0x2000 of no owner: what it holds shows poison. -/
def poisonedLine : State := { base with lines := [(0, ⟨some 0, false⟩)] }

theorem wit_AccessTraps_scalar : (base.th.x 1 + 1).toNat % 8 ≠ 0 ∧ base.remoteOf 0x40000000 = none ∧
    (base.access base.ctx .load false 0x40000000 8 0).toOption.isSome = false ∧
    (base.access base.ctx .store false 0x40000000 8 0).toOption.isSome = false ∧
    (match poisonedLine.access poisonedLine.ctx .load false 0x2000 8 0 with
     | .ok l => poisonedLine.poisoned 0 l && decide (paKind l.pa ≠ .ctl) | .error _ => false) = true := by decide +kernel
theorem wit_AccessTraps_atomic : ((regs [(1, 0x2002)]).drain.th.x 1).toNat % 4 ≠ 0 ∧
    ((regs [(1, 0x200000000002000)]).drain.th.x 1).toNat % 8 = 0 ∧
    ((regs [(1, 0x200000000002000)]).drain.remoteOf ((regs [(1, 0x200000000002000)]).drain.th.x 1)).isSome = true := by decide +kernel
theorem wit_AtomicResults : (match base.drain.access base.drain.ctx .atomic false (base.drain.th.x 1) 8 0 with
     | .ok l => decide (base.drain.remoteOf (base.drain.th.x 1) = none) && decide (l.region = none) && !base.drain.poisoned 0 l
     | .error _ => false) = true ∧
    paKind 0x2000 = .hbm ∧ (Map.get LineTag.reset base.lines (0x2000 / 128)).owner = some 0 ∧
    ∀ i < 8, base.memKey 0x2008 ≠ base.memKey (0x2000 + i) := by decide +kernel
theorem wit_SupervisorEntry : (0x10#8 ≠ 0x0C ∨ State.reset.th.uact = true ∨ State.reset.th.priv = true) ∧
    (State.reset.th.uact = true ∨ State.reset.th.priv = true) := by decide
/-- A task in user mode. -/
def user : State := csrs [(.status, 0), (.evec, 0x4000)]
theorem wit_UserHandlerEntry : (fpTrap 3 1).cause = 0x0C ∧ (fpTrap 3 1).poisons = none ∧ user.th.uact = false ∧ user.th.priv = false ∧
    user.th.exitRoutine = false := by decide
theorem wit_ReturnFromException : State.reset.th.priv = true ∧ user.th.priv = false ∧ user.th.uact = false ∧
    (csrs [(.status, 4)]).th.priv = false ∧ (csrs [(.status, 4)]).th.uact = true := by decide
theorem wit_ControlRegisterAccess : csrLookup base.th 0x008 = .ok (.own .fflags) ∧
    csrWritable base.th (.own .fflags) (base.readCsr (.own .fflags) &&& ~~~ base.th.x 2) = .ok () ∧
    csrLookup base.th 0x000 = .ok (.own .vl) ∧ csrWritable base.th (.own .vl) 7 = .ok () ∧ csrLookup base.th 0x001 = .ok (.own .vtype) ∧
    csrWritable base.th (.own .vtype) 26 = .ok () ∧ csrLookup base.th 0x002 = .ok (.own .vshape) ∧
    csrWritable base.th (.own .vshape) 3 = .ok () ∧ csrLookup base.th 0x00A = .ok (.own .gceil) ∧
    csrWritable base.th (.own .gceil) 8 = .ok () ∧ csrLookup base.th 0x10C = .ok .vspcfg ∧ csrWritable base.th .vspcfg 2 = .ok () := by
  refine ⟨?_, ?_, ?_, ?_, ?_, ?_, ?_, ?_, ?_, ?_, ?_, ?_⟩ <;> rfl
theorem wit_ControlRegisterTraps : user.th.priv = false ∧ csrRef 0x017 = none ∧ csrRef 0x10F = none ∧ csrRef 0x031 = some (.own .retired) ∧
    (CsrRef.own .retired).readOnly true = true ∧ vtypeLegal 4 = false ∧ csrRef 0x007 = some (.own .frm) ∧
    (CsrRef.own .frm).readOnly false = false ∧ (8 : Word) &&& ~~~ Csr.mask .frm ≠ 0 ∧ csrRef 0x10C = some .vspcfg := by decide
theorem wit_SystemInstructions : State.reset.th.priv = true ∧ (State.reset.copies = []) ∧ (base.th.x 0).toNat % 4096 = 0 ∧
    base.th.tb0.pending = none ∧ base.th.tb1.pending = none := by decide
theorem wit_ScalarFloatResults : FcvtPair.wf ⟨.s, .l⟩ = true ∧ FcvtPair.wf ⟨.lu, .d⟩ = true := by decide
theorem wit_RoundingKeepsRepresentable : (0x3C00 : Nat) < 2 ^ fp16.bits ∧ fp16.read 0 0x3C00 = .fin false 1024 (-10) := by decide +kernel
/-- Registers for setvl: 1000 elements of INT32 asked for. -/
def asks : State := regs [(1, 1000), (2, 2), (3, 4)]
theorem wit_VectorConfiguration : vtypeLegal (asks.th.x 2) = true ∧ vtypeLegal (asks.th.x 3) = false ∧
    (asks.benchGrant asks.cur 1 asks.th.gceil).isSome = true ∧
    ((csrs [(.gceil, 0)] asks).benchGrant asks.cur 1 (csrs [(.gceil, 0)] asks).th.gceil) = none := by decide +kernel
theorem wit_ScalarRegisterResults : base.th.x 1 ≠ 0 ∧ base.th.x 0 = 0 := by decide
theorem wit_BranchesAndJumps : (0x08 ≤ 0x0B ∧ 0x0B ≤ 0x0B) ∧ (Csr.vl ≠ Csr.retired) := by decide
/-- A saved context in the scratchpad of core 0, at virtual address 0: the magic number and version 1, no octet, no valid register. -/
def area : State := { State.reset with
  tlb := [⟨0, 0, 0, 30, vspBase, 0x3D⟩]
  vspTags := [(vspBase / 4096, some 0)]
  mem := [(vspBase, 0x53), (vspBase + 1, 0x56), (vspBase + 2, 0x58), (vspBase + 3, 0x43), (vspBase + 4, 1)] }
theorem wit_ctxld : (match area.drain.areaRead 0 2112 with
    | .ok bs => decide (areaNat bs 0 4 = 0x43585653) && decide (areaNat bs 4 2 = 1) &&
        decide (areaNat bs (0x248 + 8 * 37) 8 % 1024 = area.drain.th.owner) && decide (areaNat bs 16 8 = 0) && decide (areaNat bs 6 1 = 0) &&
        decide (area.drain.benchGrant area.cur 0 8 = some [])
    | .error _ => false) = true := by decide +kernel
/-- The units of an area are accepted when each passes its checks outside lattice regions. -/
theorem units_ok (s : State) (va : Word) : ∀ (n : Nat) (bs : List Byte),
    (∀ k < n, (match s.access s.ctx .store false (va + BitVec.ofNat 64 (64 * k)) 64 0 with
      | .ok l => l.region.isNone | .error _ => false) = true) → ∃ us, s.areaUnits .store va n bs = .ok us := by
  intro n
  induction n generalizing va with
  | zero => intro bs _; exact ⟨[], rfl⟩
  | succ n ih =>
    intro bs h
    cases bs with
    | nil => exact ⟨[], rfl⟩
    | cons b bs =>
      have h0 := h 0 (Nat.succ_pos n)
      have e : va + BitVec.ofNat 64 (64 * 0) = va := by simp
      rw [e] at h0
      obtain ⟨us, hus⟩ := ih (va + 64) ((b :: bs).drop 64) (fun k hk => by
        have := h (k + 1) (Nat.succ_lt_succ hk)
        have e : va + BitVec.ofNat 64 (64 * (k + 1)) = va + 64 + BitVec.ofNat 64 (64 * k) := by
          rw [show 64 * (k + 1) = 64 + 64 * k by omega, BitVec.ofNat_add, ← BitVec.add_assoc]; rfl
        rw [e] at this
        exact this)
      unfold State.areaUnits
      split at h0
      · next l hl =>
        rw [hl]
        have hr : l.region = none := by simpa using h0
        simp only [hr, Option.isSome_none, Bool.false_eq_true, false_and, if_false, hus]
        exact ⟨_, rfl⟩
      · cases h0
theorem wit_ctxsv : ∃ us, base.drain.pieceUnits 0x100000 base.drain.areaPieces = .ok us := by
  have hp : base.drain.areaPieces = [(0, base.drain.areaBytes)] := rfl
  have hn : ∀ n v, (natLe n v).length = n := by
    intro n
    induction n with
    | zero => intro v; rfl
    | succ n ih => intro v; simp [natLe, ih]
  have hl : base.drain.areaBytes.length / 64 = 2112 := by
    have hs : base.drain.slotBytes.length = 512 := by decide +kernel
    have hh : base.drain.th.header.length = 64 := by decide +kernel
    simp only [State.areaBytes, List.length_append, hs, hh, hn, List.length_flatMap, List.map_const', List.sum_replicate_nat,
      Vector.length_toList]
    rfl
  have ha : ∀ k < 2112, (match base.drain.access base.drain.ctx .store false (0x100000 + BitVec.ofNat 64 (64 * k)) 64 0 with
      | .ok l => l.region.isNone | .error _ => false) = true := by decide +kernel
  obtain ⟨us, hus⟩ := units_ok base.drain 0x100000 2112 base.drain.areaBytes ha
  have e : (0x100000 : Word) + BitVec.ofNat 64 0 = 0x100000 := by decide
  exact ⟨us ++ [], by simp only [hp, State.pieceUnits, hl, e, hus]⟩

/-- Two INT32 elements in v1 and v2, a mask with element 1 set in v0; VTYPE with FP32, BF16, EL16 elements. -/
def vi : State := vec i32 2 [(0, [0, 1]), (1, [3, 5]), (2, [7, 4])]
def vf : State := vec f32 2 [(0, [0, 1]), (1, [0x3F800000, 0x40000000]), (2, [0x3F800000, 0xBF800000])]
def bf : Word := 33
def el : Word := 73
/-- FP32 with every flag of the f handler enabled, and a division by zero in element 1. -/
def vz : State := csrs [(.ften, 31)] (vec f32 2 [(1, [0x3F800000, 0x40000000]), (2, [0x3F800000, 0])])
/-- Masked, and negated with a prefix. -/
def mk : VMod := ⟨true, none⟩
def mn : VMod := ⟨true, some ⟨true, false, none⟩⟩
def mx5 : VMod := ⟨false, some ⟨false, false, some 5⟩⟩

theorem wit_VectorIntegerResults : VectorReady vi mn true (3 :: 1 :: srcRegs (.reg 2)) (decide (vtFmt vi.th.vt ≤ 1) && portClear vi.th.vt) ∧
    VectorReady vi um true (3 :: 1 :: srcRegs (.reg 0)) (decide (vtFmt vi.th.vt ≤ 1) && portClear vi.th.vt) ∧ modX mn = none ∧
    vi.th.vlc = 2 ∧ vi.th.vlmax = 256 ∧ vi.th.active mn 0 = true ∧ vi.th.active mn 1 = false := by
  unfold VectorReady; decide +kernel
theorem wit_WideningAndNarrowing : VectorReady vi mk true ([4, 5] ++ 1 :: srcRegs (.scalar 2))
      (decide (vtFmt vi.th.vt ≤ 1) && portClear vi.th.vt && decide (vtEwc vi.th.vt ≤ 2)) ∧
    VectorReady vi um (decide (2 % 2 = 0)) (7 :: [2, 3] ++ srcRegs (.reg 1))
      (decide (vtFmt vi.th.vt ≤ 1) && portClear vi.th.vt && decide (vtEwc vi.th.vt ≤ 2)) ∧ modX um = none := by
  unfold VectorReady; decide +kernel
theorem wit_FixedPointResults : (vi.th.get .vxrm).toNat < 4 ∧ modX um = none ∧
    VectorReady vi um true (3 :: 1 :: srcRegs (.reg 2)) (decide (vtFmt vi.th.vt ≤ 1) && portClear vi.th.vt) ∧
    VectorReady vi um (decide (2 % 2 = 0)) (7 :: [2, 3] ++ srcRegs (.reg 1))
      (decide (vtFmt vi.th.vt ≤ 1) && portClear vi.th.vt && decide (vtEwc vi.th.vt ≤ 2)) := by
  unfold VectorReady; decide +kernel
theorem wit_CompareResults : VectorReady vi um true (3 :: 1 :: srcRegs (.reg 2)) (decide (vtFmt vi.th.vt ≤ 1) && portClear vi.th.vt) ∧
    vi.th.vstart = 0 ∧ 1 < vi.th.vl ∧ vi.th.active um 1 = true ∧ (vi.th.elem 2 32 1 < vi.th.elem 1 32 1) ∧
    ¬ (vi.th.elem 2 32 0 < vi.th.elem 1 32 0) ∧ (∀ k, k < vi.th.vl → decide (vi.th.elem 1 32 k = vi.th.elem 2 32 k) = false) := by
  unfold VectorReady; decide +kernel
theorem wit_MaskInstructions : VectorReady vi um true [3, 1, 2] (portClear vi.th.vt) ∧ VectorReady vi mk true [3, 1] (portClear vi.th.vt) ∧
    VectorReady vi mk true [1] (portClear vi.th.vt) ∧ VectorReady vi mk true [3] (portClear vi.th.vt) ∧ um.m = false ∧ vi.th.vstart = 0 ∧
    (3 : SReg) ≠ 0 ∧ (actives vi um 2).filter (fun k => vi.th.maskBit 1 k) = [0, 1] := by
  unfold VectorReady; decide +kernel
theorem wit_MovesAndPermutations : VectorReady vi mk true [3, 1] (portClear vi.th.vt) ∧ VectorReady vi um true [3] (portClear vi.th.vt) ∧
    VectorReady vi um true [1] (portClear vi.th.vt) ∧
    VectorReady vi mk true [3, 1] (portClear vi.th.vt && decide (vi.th.vstart = 0)) ∧
    VectorReady vi mk true [3, 1, 2] (portClear vi.th.vt && decide (vi.th.vstart = 0)) ∧
    VectorReady vi um true (3 :: 1 :: srcRegs (.scalar 4)) (portClear vi.th.vt) ∧ um.m = false := by
  unfold VectorReady; decide +kernel
theorem wit_IntegerReductionsAndScans :
    VectorReady vi mk true [1] (decide (vtFmt vi.th.vt ≤ 1) && portClear vi.th.vt && decide (vi.th.vstart = 0)) ∧
    VectorReady vi mk true [3, 1] (decide (vtFmt vi.th.vt ≤ 1) && portClear vi.th.vt && decide (vi.th.vstart = 0)) ∧
    actives vi mk 2 = [1] ∧ (3 : SReg) ≠ 0 := by
  unfold VectorReady; decide +kernel
theorem wit_VectorFloatResults : VectorReady vf mx5 true (3 :: 1 :: srcRegs (.reg 2) ++ xRegs mx5)
      (decide (2 ≤ vtFmt vf.th.vt) && decide (vtFmt vf.th.vt ≤ 5) && portOk vf.th.vt (.reg 2) && xClear mx5 3 1) ∧
    VectorReady vz um true (3 :: 1 :: srcRegs (.reg 2) ++ xRegs um)
      (decide (2 ≤ vtFmt vz.th.vt) && decide (vtFmt vz.th.vt ≤ 5) && portClear vz.th.vt && xClear um 3 1) ∧
    VectorReady vf um true (3 :: 1 :: [] ++ xRegs um)
      (decide (2 ≤ vtFmt vf.th.vt) && decide (vtFmt vf.th.vt ≤ 5) && portClear vf.th.vt && xClear um 3 1) := by
  unfold VectorReady; decide +kernel
/-- The cases of FloatElements: nothing enabled; an enabled flag at element 1 and none before it. -/
theorem wit_FloatElements : (modX mx5).isSome = true ∧ vf.th.ften = 0 ∧ vz.th.ften = 31 ∧
    (fDiv fp32 ⟨0, 0, false⟩ (fp32.read 0 0x40000000) (fp32.read 0 0)).fl &&& vz.th.ften ≠ 0 ∧
    (fDiv fp32 ⟨0, 0, false⟩ (fp32.read 0 0x3F800000) (fp32.read 0 0x3F800000)).fl = 0 := by decide +kernel
theorem wit_FormatConversions : srcBits .int32 ≤ 32 ∧ VectorReady vf um true (3 :: 1 :: xRegs um) (decide (srcCode .int32 ≤ 8) &&
      decide (vtFmt vf.th.vt ≤ 8) && ((fltFmt (srcCode .int32)).isSome || (fltFmt (vtFmt vf.th.vt)).isSome) && portClear vf.th.vt &&
      xClear um 3 1) ∧
    32 < srcBits .fp64 ∧ VectorReady vf um (decide (2 % (srcBits .fp64 / 32) = 0)) (3 :: groupRegs 2 (srcBits .fp64 / 32) ++ xRegs um)
      (decide (srcCode .fp64 ≤ 8) && decide (vtFmt vf.th.vt ≤ 8) && ((fltFmt (srcCode .fp64)).isSome || (fltFmt (vtFmt vf.th.vt)).isSome) &&
        portClear vf.th.vt && xClear um 3 1) ∧
    VectorReady vf um (decide (4 % 2 = 0)) (groupRegs 4 2 ++ 1 :: srcRegs (.reg 2) ++ xRegs um)
      (decide (3 ≤ vtFmt vf.th.vt) && decide (vtFmt vf.th.vt ≤ 7) && portOk vf.th.vt (.reg 2) && xClear um 4 2) := by
  unfold VectorReady; decide +kernel
theorem wit_FloatReductions : VectorReady vf mk true (1 :: xRegs mk) (decide (2 ≤ vtFmt vf.th.vt) && decide (vtFmt vf.th.vt ≤ 5) &&
      portClear vf.th.vt && decide (vf.th.vstart = 0)) ∧
    VectorReady vf um true (3 :: 1 :: xRegs um) (decide (2 ≤ vtFmt vf.th.vt) && decide (vtFmt vf.th.vt ≤ 5) &&
      portClear vf.th.vt && decide (vf.th.vstart = 0) && xClear um 3 1) ∧ vf.th.vl ≤ 2 ^ 1 ∧
    (let s := vec bf 2 []; VectorReady s um (decide (4 % 2 = 0)) (groupRegs 4 2 ++ [1, 2] ++ xRegs um)
      (decide (vtFmt s.th.vt = 3 ∨ vtFmt s.th.vt = 4) && portClear s.th.vt && decide (s.th.vstart = 0) && xClear um 4 2)) := by
  unfold VectorReady; decide +kernel
theorem wit_LatticeConversions : (let s := vec el 8 []; let r := elGroup .bf16 s.th.vt;
    VectorReady s um (decide (0 % r = 0)) (3 :: groupRegs 0 r) (isEl (vtFmt s.th.vt) && decide (2 ≤ srcCode .bf16) && decide (srcCode .bf16 ≤ 5) &&
      portClear s.th.vt && decide (s.th.vstart % 8 = 0) && (modX um).isNone)) ∧
    (let s := vec el 8 []; let r := elGroup .el32 s.th.vt;
    VectorReady s um (decide (0 % r = 0)) (3 :: groupRegs 0 r) (isEl (vtFmt s.th.vt) && isEl (srcCode .el32) &&
      portClear s.th.vt && decide (s.th.vstart % 8 = 0) && (modX um).isNone)) ∧
    (let r := elGroup .el16 vf.th.vt;
    VectorReady vf um (decide (0 % r = 0)) (3 :: groupRegs 0 r) (decide (2 ≤ vtFmt vf.th.vt) && decide (vtFmt vf.th.vt ≤ 5) &&
      isEl (srcCode .el16) && portClear vf.th.vt && decide (vf.th.vstart % 8 = 0) && (modX um).isNone)) := by
  unfold VectorReady; decide +kernel
theorem wit_MaskedPair : (let x : PairHalf := ⟨.int .add, 3, 1, .reg 2, none⟩; let y : PairHalf := ⟨.int .sub, 3, 1, .reg 2, none⟩;
    VectorReady vi mk true (halfRegs x ++ halfRegs y) (vi.halfOk x mk && vi.halfOk y mn && xClear mn x.vd.toNat 1)) ∧ vi.th.ften = 0 ∧
    pairHalf (.vadd 3 1 (.reg 2) mk) = some (⟨.int .add, 3, 1, .reg 2, none⟩, mk) ∧
    exec (.vadd 3 1 (.reg 2) mk) vi = .next (out (.vadd 3 1 (.reg 2) mk) vi) ∧ vi.th.active mk 1 = true := by
  refine ⟨by unfold VectorReady; decide +kernel, by decide +kernel, rfl, exec_out (by decide +kernel), by decide +kernel⟩

/-- A test for `InTurn`: each unit's test passes in the state its predecessors left. -/
def inTurnTest {α : Type} (f : State → α → State) (ok : State → α → Bool) : State → List α → Bool
  | _, [] => true
  | s, u :: us => ok s u && inTurnTest f ok (f s u) us
theorem inTurn_of {α : Type} {f : State → α → State} {ok : State → α → Prop} {test : State → α → Bool}
    (h : ∀ s u, test s u = true → ok s u) : ∀ (us : List α) (s : State), inTurnTest f test s us = true → InTurn f ok s us := by
  intro us
  induction us with
  | nil => intro s _ pre u post e; simp at e
  | cons a us ih =>
    intro s ht pre u post e
    rw [inTurnTest, Bool.and_eq_true] at ht
    cases pre with
    | nil => simp only [List.nil_append, List.cons.injEq] at e; rw [← e.1]; exact h _ _ ht.1
    | cons p pre =>
      simp only [List.cons_append, List.cons.injEq] at e
      have := ih (f s a) ht.2 pre u post e.2
      rw [← e.1]
      exact this
/-- An access of a context gives this place; one of the focused thread's vector instructions. -/
def givesIn (x : Ctx) (s : State) (k : Acc) (va : Word) (n e : Nat) (l : Loc) : Bool :=
  match s.access x k false va n e with | .ok m => decide (m = l) | .error _ => false
def gives (s : State) (k : Acc) (va : Word) (n e : Nat) (l : Loc) : Bool := givesIn s.vctx s k va n e l
theorem gives_ok {s : State} {k : Acc} {va : Word} {n e : Nat} {l : Loc} (h : gives s k va n e l = true) :
    s.access s.vctx k false va n e = .ok l := by
  unfold gives givesIn at h
  split at h
  · next m hm => rw [hm, of_decide_eq_true h]
  · cases h
/-- A readable place of this device. -/
def readable (s : State) (va : Word) (n e : Nat) (l : Loc) : Bool :=
  gives s .load va n e l && decide (s.remoteOf va = none) && !s.poisoned s.th.owner l
theorem readable_ok {s : State} {va : Word} {n e : Nat} {l : Loc} (h : readable s va n e l = true) : s.remoteOf va = none ∧
    s.access s.vctx .load false va n e = .ok l ∧ s.poisoned s.th.owner l = false := by
  simp only [readable, Bool.and_eq_true, decide_eq_true_eq, Bool.not_eq_true'] at h
  exact ⟨h.1.2, gives_ok h.1.1, h.2⟩
theorem reads_of {s : State} {ks : List Nat} {n : Nat} {addrs : Nat → List Word} {loc : Nat → Nat → Loc}
    (h : ks.all (fun k => (addrs k).zipIdx.all (fun e => readable s e.1 n k (loc k e.2))) = true) : Reads s ks n addrs loc := by
  simp only [List.all_eq_true] at h
  exact fun k hk e he => readable_ok (h k hk e he)
def unitTest (n : Nat) (s : State) (u : StoreUnit) : Bool := u.2.all (fun f => gives s .store f.1 n u.1 ⟨f.2.1, none, false⟩)
theorem unitTest_ok {n : Nat} {s : State} {u : StoreUnit} (h : unitTest n s u = true) : unitOk n s u := by
  simp only [unitTest, List.all_eq_true] at h
  exact fun f hf => ⟨_, gives_ok (h f hf), rfl, rfl⟩

/-- The state a store of these units is performed from. -/
def startOf (s : State) (n : Nat) (us : List StoreUnit) : State := storeStart s n (us.map (fun u => (u.1, u.2.map (fun f => (f.1, f.2.2)))))

/-- Two INT32 elements, indexes in v1, at 0x2000, with a stride of 8 in register 2. -/
def ld : State := regs [(1, 0x2000), (2, 8)] (vec i32 2 [(1, [1, 0]), (2, [5, 6])])
/-- The same at the top of the mapped GiB: unit 1 is not mapped. -/
def edge : State := withLines [0, 0x7FFFFF] (regs [(1, 0x3FFFFFFC)] (vec i32 2 [(2, [5, 6])]))
/-- Four FP8 positions for a sparse line. -/
def sp8 : State := regs [(1, 0x2000), (4, 128)] (vec 48 4 [(2, [0x38, 0, 0x40, 0])])

theorem wit_VectorLoads :
    (let s := ld; VectorReady s um true [3] (widMatches .w s.th.vt && portClear s.th.vt) ∧
      VectorReady s um true [3, 1] (widMatches .w s.th.vt && portClear s.th.vt) ∧ s.actives um 0 2 = [0, 1] ∧ s.th.ew = 32 ∧
      Reads (s.serveAt s.vctx [0x2000, 0x2004]) [0, 1] 4 (fun k => [s.th.x 1 + BitVec.ofNat 64 (k * 4)]) (fun k _ => ⟨0x2000 + 4 * k, none, false⟩) ∧
      Reads (s.serveAt s.vctx [0x2000, 0x2008]) [0, 1] 4 (fun k => [s.th.x 1 + BitVec.ofNat 64 k * s.th.x 2]) (fun k _ => ⟨0x2000 + 8 * k, none, false⟩) ∧
      Reads (s.serveAt s.vctx [0x2004, 0x2000]) [0, 1] 4 (fun k => [s.th.x 1 + BitVec.ofNat 64 (s.th.elem 1 32 k * 4)]) (fun k _ => ⟨0x2004 - 4 * k, none, false⟩)) ∧
    (let s := edge; VectorReady s um true [3] (widMatches .w s.th.vt && portClear s.th.vt) ∧ s.remoteOf 0x40000000 = none ∧
      Reads (s.serveAt s.vctx [0x3FFFFFFC, 0x40000000]) [0] 4 (fun k => [s.th.x 1 + BitVec.ofNat 64 (k * 4)])
        (fun k _ => ⟨0x3FFFFFFC + 4 * k, none, false⟩) ∧
      ((s.serveAt s.vctx [0x3FFFFFFC, 0x40000000]).access s.vctx .load false 0x40000000 4 1).toOption.isSome = false) ∧
    (let s := ld; VectorReady s um true [3, 4] (segMatches .h s.th.vt && portClear s.th.vt) ∧
      Reads (s.serveAt s.vctx [0x2000, 0x2002, 0x2004, 0x2006]) [0, 1] 2 (fun k => (List.range 2).map (fun j => s.th.x 1 + BitVec.ofNat 64 ((k * 2 + j) * 2)))
        (fun k j => ⟨0x2000 + 4 * k + 2 * j, none, false⟩)) ∧
    (let s := sp8; VectorReady s um true [3] (sparseOk .p24b s.th.vt && portClear s.th.vt) ∧
      readable (s.serveAt s.vctx [0x2000]) (s.th.x 1 + BitVec.ofNat 64 (128 * 0)) 128 0 ⟨0x2000, none, false⟩ = true) := by
  refine ⟨⟨?_, ?_, ?_, ?_, reads_of ?_, reads_of ?_, reads_of ?_⟩, ⟨?_, ?_, reads_of ?_, ?_⟩, ⟨?_, reads_of ?_⟩, ?_, ?_⟩ <;>
    first | decide +kernel | (unfold VectorReady; decide +kernel)

/-- The stores of two units at 0x2000 under .ord at the top of the mapped GiB, and of two fields to a unit. -/
theorem wit_VectorStores :
    (let s := ld; let u (p : Nat → Nat) (k : Nat) : StoreUnit :=
        (k, [(s.th.x 1 + BitVec.ofNat 64 (p k), 0x2000 + p k, s.th.elem 2 32 k)])
      VectorReady s um true [2] (widMatches .w s.th.vt && portClear s.th.vt) ∧
      VectorReady s um true [2, 1] (widMatches .w s.th.vt && portClear s.th.vt) ∧ s.actives um 0 2 = [0, 1] ∧
      s.remoteOf 0x2000 = none ∧ s.remoteOf 0x2004 = none ∧ s.remoteOf 0x2008 = none ∧
      InTurn (putUnit 4) (unitOk 4) (startOf s 4 ([0, 1].map (u (fun k => 4 * k)))) ([0, 1].map (u (fun k => 4 * k))) ∧
      InTurn (putUnit 4) (unitOk 4) (startOf s 4 ([0, 1].map (u (fun k => 8 * k)))) ([0, 1].map (u (fun k => 8 * k))) ∧
      InTurn (putUnit 4) (unitOk 4) (startOf s 4 ([0, 1].map (u (fun k => s.th.elem 1 32 k * 4)))) ([0, 1].map (u (fun k => s.th.elem 1 32 k * 4))) ∧
      (0x2004 % 4 = 0 ∧ 4 ∣ 128 ∧ paKind 0x2004 = .hbm ∧ Map.get LineTag.reset s.drain.lines (0x2004 / 128) = ⟨some s.th.owner, false⟩)) ∧
    (let s := edge; let u : StoreUnit := (0, [(0x3FFFFFFC, 0x3FFFFFFC, s.th.elem 2 32 0)])
      VectorReady s um true [2] (widMatches .w s.th.vt && portClear s.th.vt) ∧ s.actives um 0 2 = [0] ++ 1 :: [] ∧
      InTurn (putUnit 4) (unitOk 4) (startOf s 4 [u, (1, [(0x40000000, 0, 6)])]) [u] ∧
      (let v := [u].foldl (putUnit 4) (startOf s 4 [u, (1, [(0x40000000, 0, 6)])]); (v.access v.vctx .store false 0x40000000 4 1).toOption.isSome = false)) ∧
    (let s := ld; VectorReady s um true [1, 2] (segMatches .h s.th.vt && portClear s.th.vt) ∧
      (let us : List StoreUnit := [0, 1].map (fun k => (k, [(0x2000 + BitVec.ofNat 64 (4 * k), 0x2000 + 4 * k, 5),
        (0x2002 + BitVec.ofNat 64 (4 * k), 0x2002 + 4 * k, 6)])); InTurn (putUnit 2) (unitOk 2) (startOf s 2 us) us)) := by
  refine ⟨⟨?_, ?_, ?_, ?_, ?_, ?_, inTurn_of (fun _ _ => unitTest_ok) _ _ ?_, inTurn_of (fun _ _ => unitTest_ok) _ _ ?_,
      inTurn_of (fun _ _ => unitTest_ok) _ _ ?_, ?_⟩,
    ⟨?_, ?_, inTurn_of (fun _ _ => unitTest_ok) _ _ ?_, ?_⟩, ⟨?_, inTurn_of (fun _ _ => unitTest_ok) _ _ ?_⟩⟩ <;>
    first | decide +kernel | (unfold VectorReady; decide +kernel)
theorem wit_SparseAndCompactStores :
    (let s := sp8; VectorReady s um true [2] (sparseOk .p24b s.th.vt && decide (s.th.vstart % (sparseOf .p24b).dense = 0) &&
        portClear s.th.vt) ∧ (s.th.x 4).toNat / 128 = 1 ∧ (s.th.vlc + (sparseOf .p24b).dense - 1) / (sparseOf .p24b).dense = 1 ∧
      gives s.drain .store (s.th.x 1 + BitVec.ofNat 64 (128 * 0)) 128 0 ⟨0x2000, none, false⟩ = true) ∧
    (let s := ld; VectorReady s um true [2] (widMatches .w s.th.vt && decide (vtFmt s.th.vt ≤ 7) && portClear s.th.vt) ∧
      Nat.min (s.actives um 0 s.th.vlc).length ((s.th.x 2).toNat / 4) = 2 ∧
      (let us : List StoreUnit := [(0, [(0x2000, 0x2000, s.th.elem 2 32 0)]), (1, [(0x2004, 0x2004, s.th.elem 2 32 1)])];
        InTurn (putUnit 4) (unitOk 4) (startOf s 4 us) us)) := by
  refine ⟨⟨?_, ?_, ?_, ?_⟩, ?_, ?_, inTurn_of (fun _ _ => unitTest_ok) _ _ ?_⟩ <;>
    first | decide +kernel | (unfold VectorReady; decide +kernel)

/-- Region 0, whose descriptor is at 0: 32-bit cells of type MAXU, one page at virtual address 0, die 0's replica at 0x10000. -/
def lattice : State := withLines [0, 0x10000 / 128] { regs [(1, 0)] (vec i32 2 [(1, [1, 0]), (2, [5, 6])]) with
  tlb := [⟨dieTlb 0, 0, 0, 12, 0, 0xBD⟩], mem := [(0, 0x21), (2, 0x10), (7, 0x80), (18, 1)] }
def joinRegion : Region := ⟨1, 4, false, 0, 1, 1, 0, 0x10000, 0, 0⟩
/-- Device 1 is a member of the domain, and the owner has a key; device 2 is no member. -/
def paired : State := { regs [(1, 0x200000000002000)] (vec i32 2 [(1, [1, 0]), (2, [5, 6])]) with
  routes := [(1, 0x8000000000000000)], keys := [0] }
/-- INT64 elements whose indexes reach this device, then device 1. -/
def mixed : State := { regs [(1, 0)] (vec 3 2 [(1, [0x400, 0x40000000000400]), (2, [5, 6])]) with
  routes := [(1, 0x8000000000000000)], keys := [0] }
/-- An access of seat 7 to device 1 of `n` records, answered. -/
def reply (load : Bool) (n : Nat) (fail : Option (Nat × Nat)) (recs : List UnitRec) : RemoteOp := ⟨0, 7, 1, load, n, n, recs, fail, true, 0⟩

theorem wit_VectorLoads_remote :
    (let s := paired; let at_ (k : Nat) : Word := s.th.x 1 + BitVec.ofNat 64 (4 * k)
      VectorReady s um true [3] (widMatches .w s.th.vt && portClear s.th.vt) ∧ s.th.ew = 32 ∧ s.actives um 0 2 = [0, 1] ∧
      s.member 1 = true ∧ s.keys.contains s.th.owner = true ∧ s.myRemotes = [] ∧
      (∀ k ∈ [0, 1], s.remoteOf (at_ k) = some 1 ∧ (at_ k).toNat % 4 = 0)) ∧
    (let s := { paired with remotes := [reply true 2 none [⟨0, 2, 7⟩, ⟨0, 2, 8⟩]] };
      ∃ o, s.myRemotes = [o] ∧ o.done = true ∧ o.fail = none ∧ o.recs.length = 2) ∧
    (let s := { paired with remotes := [reply true 2 (some (1, 5)) [⟨0, 2, 7⟩]] };
      ∃ o, s.myRemotes = [o] ∧ o.done = true ∧ o.fail = some (1, 5) ∧ 1 < [0, 1].length ∧ 1 ≤ o.recs.length) ∧
    (let s := mixed; let at_ (k : Nat) : Word := s.th.x 1 + BitVec.ofNat 64 (s.th.elem 1 64 k * 8)
      VectorReady s um true [3, 1] (widMatches .d s.th.vt && portClear s.th.vt) ∧ s.th.ew = 64 ∧ s.remoteOf (at_ 0) = none ∧
      s.remoteOf (at_ 1) = some 1 ∧ (s.access s.vctx .load false (at_ 1) 8 1).toOption.isSome = false) := by
  refine ⟨⟨?_, ?_, ?_, ?_, ?_, ?_, ?_⟩, ⟨reply true 2 none [⟨0, 2, 7⟩, ⟨0, 2, 8⟩], by decide +kernel, rfl, rfl, rfl⟩, ⟨reply true 2 (some (1, 5)) [⟨0, 2, 7⟩], by decide +kernel, rfl, rfl, by decide, by decide⟩, ⟨?_, ?_, ?_, ?_, ?_⟩⟩ <;>
    first | decide +kernel | (unfold VectorReady; decide +kernel)
/-- Poison at unit 0 of a load, and the first line of vldsl that fails. -/
theorem wit_VectorLoads_fail :
    (let s := { ld with lines := [(0, ⟨some 0, false⟩)] }; let u := s.serveAt s.vctx [0x2000, 0x2004]
      match u.access u.vctx .load false 0x2000 4 0 with | .ok l => u.poisoned u.th.owner l | .error _ => false) = true ∧
    (let s := regs [(1, 0x40000000)] sp8; let u := s.serveAt s.vctx [0x40000000]
      VectorReady s um true [3] (sparseOk .p24b s.th.vt && portClear s.th.vt) ∧ s.actives um 0 s.th.vlc = [0, 1, 2, 3] ∧
      (u.access u.vctx .load false (s.th.x 1 + BitVec.ofNat 64 (128 * 0)) 128 (Nat.max 0 (0 * 32))).toOption.isSome = false) := by
  unfold VectorReady; decide +kernel

theorem wit_VectorAtomicsAndJoins :
    (let s := ld; let loc (k : Nat) : Loc := ⟨0x2004 - 4 * k, none, false⟩; let idx (k : Nat) : Word := s.th.x 1 + BitVec.ofNat 64 (s.th.elem 1 32 k * 4)
      VectorReady s um true [2, 1] (decide (vtFmt s.th.vt ≤ 1) && decide (s.th.ew = 32) && portClear s.th.vt) ∧
      s.actives um 0 2 = [0, 1] ∧ InTurn (fun u k => u.writePhys u.th.owner (loc k).pa (natLe 4 (amoNew .add 32 (s.th.elem 2 32 k)
          (leNat (u.readAt u.th.owner [] (loc k).pa 4))))) (fun u k => u.remoteOf (idx k) = none ∧
        u.access u.vctx .atomic false (idx k) 4 k = .ok (loc k) ∧ (loc k).region = none ∧ u.poisoned u.th.owner (loc k) = false)
        (s.drain.atomicServe s.drain.vctx 4 ([0, 1].map idx)) [0, 1]) ∧
    (let s := lattice; let loc (k : Nat) : Loc := ⟨0x10000 + 4 * k, some joinRegion, false⟩
      let start (a : Nat → Word) : State := storeStart s 4 ([0, 1].map (fun k => (k, [(a k, s.th.elem 2 32 k)])))
      VectorReady s um true [2, 1] (widMatches .w s.th.vt && portClear s.th.vt) ∧ s.actives um 0 2 = [0, 1] ∧
      InTurn (fun u k => u.joinCell u.th.owner joinRegion (dieOf (coreOf u.cur)) (loc k).pa (s.th.elem 2 32 k)) (fun u k =>
        u.access u.vctx .store false (s.th.x 1 + BitVec.ofNat 64 (k * 4)) 4 k = .ok (loc k))
        (start (fun k => s.th.x 1 + BitVec.ofNat 64 (k * 4))) [0, 1] ∧
      InTurn (fun u k => u.joinCell u.th.owner joinRegion (dieOf (coreOf u.cur)) (0x10004 - 4 * k) (s.th.elem 2 32 k)) (fun u k =>
        u.access u.vctx .store false (s.th.x 1 + BitVec.ofNat 64 (s.th.elem 1 32 k * 4)) 4 k = .ok ⟨0x10004 - 4 * k, some joinRegion, false⟩)
        (start (fun k => s.th.x 1 + BitVec.ofNat 64 (s.th.elem 1 32 k * 4))) [0, 1] ∧ joinRegion.width = 4) := by
  refine ⟨⟨?_, ?_, inTurn_of (test := fun u k => gives u .atomic ((fun k => ld.th.x 1 + BitVec.ofNat 64 (ld.th.elem 1 32 k * 4)) k) 4 k
        ⟨0x2004 - 4 * k, none, false⟩ && decide (u.remoteOf ((fun k => ld.th.x 1 + BitVec.ofNat 64 (ld.th.elem 1 32 k * 4)) k) = none) &&
        !u.poisoned u.th.owner ⟨0x2004 - 4 * k, none, false⟩) ?_ _ _ ?_⟩,
    ⟨?_, ?_, inTurn_of (test := fun u k => gives u .store (lattice.th.x 1 + BitVec.ofNat 64 (k * 4)) 4 k
        ⟨0x10000 + 4 * k, some joinRegion, false⟩) (fun _ _ => gives_ok) _ _ ?_,
      inTurn_of (test := fun u k => gives u .store (lattice.th.x 1 + BitVec.ofNat 64 (lattice.th.elem 1 32 k * 4)) 4 k
        ⟨0x10004 - 4 * k, some joinRegion, false⟩) (fun _ _ => gives_ok) _ _ ?_, ?_⟩⟩
  case refine_3 =>
    intro u k h
    simp only [Bool.and_eq_true, decide_eq_true_eq, Bool.not_eq_true'] at h
    exact ⟨h.1.2, gives_ok h.1.1, rfl, h.2⟩
  all_goals first | decide +kernel | (unfold VectorReady; decide +kernel)
/-- vstxr on this device; on device 1; answered without and with a failure, with a unit of its own. -/
theorem wit_Vstxr :
    (let s := ld; let us : List StoreUnit := [0, 1].map (fun k => (k, [(s.th.x 1 + BitVec.ofNat 64 (s.th.elem 1 32 k * 4), 0x2004 - 4 * k,
        s.th.elem 2 32 k)]))
      VectorReady s um true [2, 1] (widMatches .w s.th.vt && decide (s.th.vstart = 0) && portClear s.th.vt) ∧ s.myRemotes = [] ∧
      InTurn (putUnit 4) (unitOk 4) (startOf s 4 us) us ∧ (∀ k ∈ us, unitOk 4 s.drain k)) ∧
    (let s := paired; VectorReady s um true [2, 1] (widMatches .w s.th.vt && decide (s.th.vstart = 0) && portClear s.th.vt) ∧
      s.myRemotes = [] ∧ s.keys.contains s.th.owner = true ∧
      ∀ k < 2, s.remoteOf (s.th.x 1 + BitVec.ofNat 64 (s.th.elem 1 32 k * 4)) = some 1 ∧ s.member 1 = true ∧
        (s.th.x 1 + BitVec.ofNat 64 (s.th.elem 1 32 k * 4)).toNat % 4 = 0) ∧
    (let s := { mixed with remotes := [reply false 1 none []] }; let d := s.dropRemotes
      let us : List StoreUnit := [(0, [(s.th.x 1 + BitVec.ofNat 64 (s.th.elem 1 64 0 * 8), 0x2000, s.th.elem 2 64 0)])]
      VectorReady s um true [2, 1] (widMatches .d s.th.vt && decide (s.th.vstart = 0) && portClear s.th.vt) ∧ s.myRemotes = [reply false 1 none []] ∧
      InTurn (putUnit 8) (unitOk 8) (d.slotWhole (d.unitsWrite 8 (us.map (fun u => (u.1, u.2.map (fun f => (f.1, f.2.2))))))) us) ∧
    (lowerFail (lowerFail none ((reply false 1 (some (0, 1)) []).failure [(1, [(0x200000000002000, 6)])])) none =
      some (1, 0x200000000002000, 1)) := by
  refine ⟨⟨?_, ?_, inTurn_of (fun _ _ => unitTest_ok) _ _ ?_, fun k hk => unitTest_ok (List.all_eq_true.mp ?_ k hk)⟩, ?_,
    ⟨?_, ?_, inTurn_of (fun _ _ => unitTest_ok) _ _ ?_⟩, ?_⟩
  all_goals first | decide +kernel | (unfold VectorReady; decide +kernel) | (refine ⟨?_, ?_⟩ <;> decide +kernel)
theorem wit_Trains : (let s := { paired with ports := [(0, { Port.reset with trained := true })] }
    (Map.get Port.reset s.ports (s.portOf 1)).up = true) := by decide +kernel
/-- A vector store into a region: values above their cells; a refused value under .ord; a width that is not the cell's. -/
theorem wit_VectorStores_region :
    (let s := lattice; let e (k : Nat) : Nat × Word × Loc × Region × Nat :=
        (k, s.th.x 1 + BitVec.ofNat 64 (k * 4), ⟨0x10000 + 4 * k, some joinRegion, false⟩, joinRegion, s.th.elem 2 32 k)
      let join (u : State) (e : Nat × Word × Loc × Region × Nat) : State :=
        u.joinCell u.th.owner e.2.2.2.1 (dieOf (coreOf u.cur)) e.2.2.1.pa e.2.2.2.2
      InTurn join (fun u e => (u.access u.vctx .store false e.2.1 4 e.1 = .ok e.2.2.1 ∧ e.2.2.1.region = some e.2.2.2.1 ∧ e.2.2.2.1.width = 4) ∧
          e.2.2.2.1.le (u.cellAt u.th.owner e.2.2.2.1 e.2.2.1.pa) (e.2.2.2.1.canon e.2.2.2.2) = true)
        (storeStart s 4 [(0, [(0, 5)]), (1, [(4, 6)])]) [e 0, e 1]) ∧
    (let s := { lattice with mem := lattice.mem ++ [(0x10000, 9)] };
      gives (storeStart s 4 [(0, [(0, 5)]), (1, [(4, 6)])]) .store 0 4 0 ⟨0x10000, some joinRegion, false⟩ = true ∧
      joinRegion.le (s.cellAt 0 joinRegion 0x10000) (joinRegion.canon 5) = false) ∧
    (let s := regs [(1, 0)] (vec 1 1 [(2, [5])] lattice);
      VectorReady s um true [2] (widMatches .h s.th.vt && portClear s.th.vt) ∧
      gives (storeStart s 2 [(0, [(0, 5)])]) .store 0 2 0 ⟨0x10000, some joinRegion, false⟩ = true ∧ joinRegion.width ≠ 2) := by
  refine ⟨inTurn_of (test := fun u e => gives u .store e.2.1 4 e.1 e.2.2.1 && decide (e.2.2.1.region = some e.2.2.2.1) &&
      decide (e.2.2.2.1.width = 4) && e.2.2.2.1.le (u.cellAt u.th.owner e.2.2.2.1 e.2.2.1.pa) (e.2.2.2.1.canon e.2.2.2.2)) ?_ _ _ ?_, ?_, ?_⟩
  case refine_1 =>
    intro u e h
    simp only [Bool.and_eq_true, decide_eq_true_eq] at h
    exact ⟨⟨gives_ok h.1.1.1, h.1.1.2, h.1.2⟩, h.2⟩
  all_goals first | decide +kernel | (unfold VectorReady; decide +kernel)
/-- A vector store whose units lie on device 1: sent; answered without and with a failure. -/
theorem wit_VectorStores_remote :
    (let s := paired; VectorReady s um true [2] (widMatches .w s.th.vt && portClear s.th.vt) ∧ s.member 1 = true ∧
      s.keys.contains s.th.owner = true ∧ s.myRemotes = [] ∧
      ∀ k ∈ s.actives um 0 2, s.remoteOf (s.th.x 1 + BitVec.ofNat 64 (k * 4)) = some 1 ∧ (s.th.x 1 + BitVec.ofNat 64 (k * 4)).toNat % 4 = 0) ∧
    (∃ o, State.myRemotes { paired with remotes := [reply false 2 none []] } = [o] ∧ o.done = true ∧ o.fail = none) ∧
    (∃ o, State.myRemotes { paired with remotes := [reply false 2 (some (1, 1)) []] } = [o] ∧ o.done = true ∧ o.fail = some (1, 1)) := by
  refine ⟨?_, ⟨reply false 2 none [], by decide +kernel, rfl, rfl⟩, ⟨reply false 2 (some (1, 1)) [], by decide +kernel, rfl, rfl⟩⟩
  unfold VectorReady; decide +kernel

/-- Two INT8 elements, and tile 0 with tag INT8 and owner 0, its elements 0 and 1 being 3 and 0. -/
def rowState : State :=
  let s := vec 0 2 [(1, [1, 2])]
  s.withTh (s.th.setTile false { s.th.tb0 with tag := 0, owner := some 0, data := 3 })
theorem wit_TileInstructions : tileShape (tileTag .int4) = some ⟨512, 256, 4⟩ ∧ vtypeLegal base.th.vt = true ∧
    (base.th.tile true).pending = none ∧ (base.th.tile true).poison = false ∧
    (∀ k < 256, ∀ m < 4, gives (base.drain.reach base.vctx 64 [0x2000]) .load (base.th.x 1 + BitVec.ofNat 64 k * 256 + BitVec.ofNat 64 (64 * m)) 64 k
      ⟨0x2000 + 256 * k + 64 * m, none, false⟩ = true) ∧
    (({ base.th.tb0 with pending := some [] } : Tile).pending.isSome = true) ∧ (({ base.th.tb0 with poison := true } : Tile).poison = true) := by
  decide +kernel
theorem wit_MatrixRows : (let s := rowState; let t := s.th; let g := t.accRegs 256 32
    (t.tile false).pending = none ∧ (t.tile false).poison = false ∧ t.vl = 2 ∧
    VectorReady s ⟨false, none⟩ (decide (4 % g = 0)) (1 :: groupRegs 4 g) (decide (t.vstart = 0) && tagFmtOk 0 (vtFmt t.vt) (vtEwc t.vt) &&
      decide (t.vl ≤ 256) && decide (vtSfmt t.vt = 0) && (!vtScl t.vt || decide (6 ≤ 0)) && (!(decide (9 ≤ 0) || vtScl t.vt) || decide ((t.vl + 31) / 32 * 256 ≤ t.portion * t.lanes * 2)))) ∧
    (let s := vec 0 0 []; s.th.vl = 0 ∧ s.th.tb0.pending = none) ∧
    (csrs [(.ften, 31)] rowState).th.ften = 31 := by
  unfold VectorReady; decide +kernel

/-- An image of one node: it adds 5 to each number of input port 0 and sends the sum to output port 0. -/
def addFive : FImage := ⟨false, 1, 0, [⟨0, 0, 1, 1, 2, false, 0, 5⟩], [⟨0, 20, 0, 0, 0, 0, 4⟩, ⟨0, 0, 0, 0, 24, 0, 4⟩], 128⟩
/-- Its words, written out from R285 to R287. -/
def addFiveWords : List Nat := [0x43464E45 + 2 ^ 32 + 2 ^ 56, 1 + 2 ^ 17, 128, 0, 0, 0, 0, 0,
  2 ^ 48 + 2 ^ 44 + 2 * 2 ^ 42 + 5, 20 * 2 ^ 56 + 4 * 2 ^ 39, 24 * 2 ^ 47 + 4 * 2 ^ 39, 0, 0, 0, 0, 0]
theorem test_image : (match imageOf addFiveWords with | .ok g => decide (g = addFive) | .error _ => false) = true := by decide +kernel
theorem test_image_bad : (match imageOf (addFiveWords.set 9 (20 * 2 ^ 56 + 3 * 2 ^ 39)) with
    | .error e => decide (e = ⟨0x12, 72⟩) | .ok _ => false) = true := by decide +kernel
/-- Image 1 is resident; slot 3 of the table at 0x4000 names it; its words, or those with another sign, lie at 0x2000. -/
def fabricOf (ws : List Nat) : State :=
  let s := csrs [(.slottab, 0x4000)] (regs [(1, 0x2000), (2, 1)] (vec i32 2 [(1, [7, 9])]))
  let bs := ws.flatMap (natLe 8)
  { withLines [0, 64, 128] s with
    images := [(1, some ⟨0, addFive⟩)]
    mem := (bs.zipIdx.map (fun e => (0x2000 + e.2, e.1))).filter (fun e => e.2 ≠ 0) ++ [(0x4018, 1), (0x401F, 0x80)] }
def fabric : State := fabricOf addFiveWords
theorem wit_FabricSlots : vtypeLegal fabric.th.vt = true ∧ paKind ((fabric.th.get .slottab).toNat + 8 * 3) = .hbm ∧ (fabric.th.x 2).toNat < 4096 ∧
    fabric.image (fabric.th.x 2).toNat = some ⟨0, addFive⟩ ∧ fabric.th.owner = 0 ∧ fabric.slotEntry 3 = 2 ^ 63 + 1 ∧
    (match fabric.areaRead 0x2000 1, fabric.areaRead 0x2040 1 with
     | .ok hb, .ok bs => (match headerOf (wordsOf hb), imageOf (wordsOf (hb ++ bs)) with
       | .ok h, .ok g => decide (h.length = 128) && decide (g = addFive) && !fabric.freeIds.isEmpty && decide (fabric.armoireUsed + g.length ≤ 2 ^ 23)
       | _, _ => false)
     | _, _ => false) = true ∧
    (let f := fabricOf (addFiveWords.set 0 0); match f.areaRead 0x2000 1 with
     | .ok hb => (match headerOf (wordsOf hb) with | .error e => decide (e.off = 0) | .ok _ => false) | .error _ => false) = true ∧
    (let f := fabricOf (addFiveWords.set 9 0); match f.areaRead 0x2000 1, f.areaRead 0x2040 1 with
     | .ok hb, .ok bs => (match headerOf (wordsOf hb), imageOf (wordsOf (hb ++ bs)) with | .ok _, .error e => decide (e.off = 72) | _, _ => false)
     | _, _ => false) = true ∧
    (2 ^ 23 : Nat) < ({ fabric with images := [(1, some ⟨0, { addFive with length := 2 ^ 23 }⟩)] } : State).armoireUsed + 128 := by
  decide +kernel
/-- Core 0 with so many armed shadows on every tile. -/
def armed (n : Nat) : State := fabric.setCore 0 { fabric.core 0 with
  ctx := (List.range 8).flatMap (fun t => (List.range n).map (fun k => (⟨t, 1, some (0x5000, k), 0, false⟩ : TileCtx))) }
def placed (s : State) : State := s.setCore 0 { s.core 0 with place := [⟨1, 2, 1⟩] }
theorem wit_FabricShadow : bitsOf (fabric.slotEntry 2) 63 1 = 0 ∧ bitsOf (fabric.slotEntry 3) 63 1 = 1 ∧ fabric.image 1 = some ⟨0, addFive⟩ ∧
    (fabric.place 7 1 1).2 = some 0 ∧ ((fabric.place 7 1 1).1.hasEntry 0 0 = true) ∧ ((armed 4).place 7 1 1).2 = none ∧
    ((placed (armed 4)).place 7 1 1).2 = some 2 ∧ ((placed (armed 4)).hasEntry 0 2 = false) ∧
    ((((placed (armed 4)).core 0).entries 2).any (fun (x : TileCtx) => decide (x.shadow = some (0x4000, 3))) = false) ∧
    (({ fabric with images := [(1, some ⟨0, { addFive with foot := 2 }⟩)] } : State).image 1).isSome = true := by
  decide +kernel
theorem wit_FabricExecuteIssue : portClear fabric.th.vt = true ∧ fabric.th.nreg = 8 ∧ fabric.image 1 = some ⟨0, addFive⟩ ∧
    addFive.port1 = false ∧ (fabric.th.get .fstat).getLsbD 1 = false ∧ unitsOf (vtFmt fabric.th.vt) fabric.th.vlc = 2 ∧
    (csrs [(.vl, 0)] fabric).th.vlc = 0 ∧ bitsOf (fabric.slotEntry 2) 63 1 = 0 ∧ ({ fabric with images := [] } : State).image 1 = none ∧
    (({ fabric with images := [(1, some ⟨3, addFive⟩)] } : State).image 1) = some ⟨3, addFive⟩ := by
  decide +kernel

/-- The cell at 0 of `lattice` is 0: below 5, at least 0. -/
theorem wit_LatticeInstructions : lattice.drain = lattice ∧ gives lattice .store 0 4 0 ⟨0x10000, some joinRegion, false⟩ = true ∧
    gives lattice .load 0 4 0 ⟨0x10000, some joinRegion, false⟩ = true ∧ gives lattice .load 0 1 0 ⟨0x10000, some joinRegion, false⟩ = true ∧
    (let s := lattice;
      gives s .load 0 4 0 ⟨0x10000, some joinRegion, false⟩ = true ∧ s.poisoned 0 ⟨0x10000, some joinRegion, false⟩ = false ∧
      joinRegion.le (joinRegion.canon 0) (s.cellAt 0 joinRegion 0x10000) = true ∧
      joinRegion.le (joinRegion.canon 5) (s.cellAt 0 joinRegion 0x10000) = false ∧ (s.th.get .ltwto).toNat = 0 ∧
      ((csrs [(.ltwto, 1)] s).th.get .ltwto).toNat ≤ 1 + (s.cycle - s.cycle) ∧
      (0x10000 + 2 * 4 ≤ joinRegion.rb + joinRegion.pages * 4096) ∧
      ([0, 1].countP (fun k => joinRegion.le (joinRegion.canon 5) (s.cellAt 0 joinRegion (0x10000 + k * 4))) = 0)) ∧
    gives base .store 0x2000 8 0 ⟨0x2000, none, false⟩ = true ∧ gives base .load 0x2000 8 0 ⟨0x2000, none, false⟩ = true := by decide +kernel
/-- A thread of group 0 of queue 3. -/
def grouped : State := base.withTh { base.th with grp := some (3, 0) }
theorem wit_WaitsAndBarriers : base.th.wake = false ∧ (base.withTh { base.th with wake := true }).th.wake = true ∧ base.th.grp = none ∧
    base.copies = [] ∧ grouped.th.grp = some (3, 0) ∧ grouped.th.cbarPassed = false ∧ grouped.saved = [] ∧
    (∀ n ∈ seatsOf (coreOf grouped.cur), (grouped.seat n).grp = some (3, 0) → (grouped.seat n).cbarIn = false) := by decide +kernel
/-- A copy from 0x2000 to 0x3000 asked for, made twice, and its first one ended. -/
def copying : State := regs [(1, 0x3000), (2, 0x2000), (4, 64), (5, 1)]
noncomputable def copied : State := out (.acopy 3 1 2 4) copying
noncomputable def ended : State := { copied with copies := copied.copies.map (fun k => { k with status := some 0 }) }
theorem wit_CopyInstructions : copying.copyRefused 0x3000 0x2000 = none ∧ copying.copies = [] ∧ copied.copies.length = 1 ∧
    ({ copied with copies := (List.range 16).flatMap (fun _ => copied.copies) } : State).copies.countP
      (fun k => decide (k.seat = copied.cur) && k.status.isNone) = 16 ∧
    copying.remoteOf 0x200000000003000 = some 1 ∧ copying.member 1 = false ∧ copying.remoteOf 0x2000 = none ∧
    copying.copyOf 1 = none ∧ (copied.copyOf 1).isSome = true ∧ ((copied.copyOf 1).bind Copy.status) = none ∧
    ((ended.copyOf 1).bind Copy.status) = some 0 := by decide +kernel
/-- A message that has arrived at core 0 from core 1. -/
def posted (m : Msg) : State := vi.setCore 0 { vi.core 0 with fromNext := ⟨[m], [], false⟩ }
theorem wit_MessageInstructions : portClear vi.th.vt = true ∧ neighbour 0 false = none ∧ neighbour 0 true = some 1 ∧ vi.coreDead 1 = false ∧
    ((vi.core 1).buf false).used + 128 ≤ 16384 ∧ ((vi.core 0).buf true).msgs = [] ∧ ((vi.core 0).buf true).dead = false ∧
    ({ vi with fleet := { vi.fleet with deadCores := [1] } } : State).coreDead 1 = true ∧
    16384 < (⟨List.replicate 128 ⟨2, 2, 0, 0, [1, 2]⟩, [], false⟩ : StreamBuf).used + 128 ∧
    ((posted ⟨2, 2, 0, 0, [8, 9]⟩).core 0).fromNext.msgs = [⟨2, 2, 0, 0, [8, 9]⟩] ∧ vtEwc vi.th.vt = 2 ∧ vi.th.vlcMax = 256 ∧
    ((posted ⟨2, 2, 0, 5, [8, 9]⟩).core 0).fromNext.msgs ≠ [] ∧ ((posted ⟨2, 3, 0, 0, [8, 9]⟩).core 0).fromNext.msgs ≠ [] ∧
    two (out (.vrecvNx 3) (posted ⟨2, 2, 0, 0, [8, 9]⟩)) 3 = [8, 9] := by decide +kernel
/-- A record of one task, in queue 0, at 0x2000; queue 0 is enabled for owner 0. -/
def recorded : State := { base with mem := [(0x2038, 1)], queues := [(0, { Queue.reset with ctl := 1 })] }
theorem wit_LaunchAndExit : (match recorded.areaRead (recorded.th.x 1) 1, base.areaRead (base.th.x 1) 1 with
    | .ok bs, .ok zs =>
      let word (bs : List Byte) (k : Nat) : Word := BitVec.ofNat 64 (leNat ((bs.drop (8 * k)).take 8))
      (recOf (word bs)).valid 0 && !(recOf (word zs)).valid 0 && decide ((recOf (word bs)).queue = 0)
    | _, _ => false) = true ∧ (recorded.queue 0).en = true ∧ (recorded.queue 0).recs = [] ∧ (base.queue 0).en = false ∧
    base.th.tb0.pending = none ∧ base.th.tb1.pending = none ∧ base.copies = [] ∧ (out (.launch 3 1) recorded).th.x 3 = 0 ∧
    (out (.launch 3 1) base).th.x 3 = 2 := by decide +kernel

/-- An entry of the vector queue: its unit, groups, groups entered, dispatched. -/
def entry (u : VUnit) (g n : Nat) (d : Bool) : VqEntry := { VqEntry.at u with groups := g, entered := n, dispatched := d, held := false }
/-- A store pending; three entries of the vector queue; a walk from 0x8000 to a gigabyte page; a tile load under way. -/
noncomputable def busy : State :=
  let s := out (.stD 2 1 false 1) base
  s.withTh { s.th with vq := [entry .lane 2 2 true, entry .lane 2 1 true, entry .lane 2 0 false], tb0 := { s.th.tb0 with pending := some [] } }
/-- The tables of a walk: from 0x8000 by 0x9000 to a leaf in 0xA000. -/
def walks : State := { withLines [0, 0x100, 0x120, 0x140] (csrs [(.ptbase, 0x8000)] State.reset) with
  mem := [(0x8000, 3), (0x8001, 0x90), (0x9000, 3), (0x9001, 0xA0), (0xA000, 0x3D)] }
/-- The same, to a lattice page of region 0. -/
def latticeWalks : State := { walks with mem := [(0x8000, 3), (0x8001, 0x90), (0x9000, 3), (0x9001, 0xA0), (0xA000, 0xBD)] }
/-- Core 0 with a short seat 3 that waits at its `setvl`, or for its first octets. -/
def short (k : WaitKind) : State := (base.setSeat 3 { (base.seat 3).set .gceil 8 with run := .waiting k }).setCore 0 { base.core 0 with shortQ := [(3, 0)] }
theorem wit_CoreEvents : base.tagOf 64 = some 0 ∧ (∃ p, busy.th.lsq[0]? = some p ∧ p.rel = false) ∧
    (∀ e ∈ walks.tlb, e.hit (dieTlb 0) (walks.th.ctx 0) 0 = false) ∧
    (match walks.walk (walks.th.ctx 0).ptbase 0x1234 with | .ok w => decide (w = ⟨0, 30, 0x3D⟩) | .error _ => false) = true ∧
    (match latticeWalks.walk (latticeWalks.th.ctx 0).ptbase 0x1234 with | .ok w => decide (w = ⟨0, 30, 0xBD⟩) | .error _ => false) = true ∧
    bitsOf 0xBD 7 1 = 1 ∧ (∀ e ∈ latticeWalks.tlb, e.hit (dieTlb 0) (latticeWalks.th.ctx 0) 0x1234 = false) ∧
    paKind ((latticeWalks.th.ctx 0).lrtbase + 64 * bitsOf 0xBD 52 12) = .hbm ∧
    paKind ((latticeWalks.th.ctx 0).lrtbase + 64 * bitsOf 0xBD 52 12 + 63) = .hbm ∧ latticeWalks.descs = [] ∧
    (match mapped.walk 0 0 with | .ok _ => false | .error _ => true) = true ∧
    ((base.setCore 0 { base.core 0 with vspPending := some (2, 1) }).core 0).vspPending = some (2, 1) ∧
    busy.th.vq = [entry .lane 2 2 true, entry .lane 2 1 true] ++ entry .lane 2 0 false :: [] ∧
    busy.th.vq = [entry .lane 2 2 true] ++ entry .lane 2 1 true :: [entry .lane 2 0 false] ∧ (entry .lane 2 2 true).lets (entry .lane 2 1 true) = true ∧
    busy.th.mayComplete 0 = true ∧ paKind (128 * 64) = .hbm ∧ base.l1 = [] ∧ ({ base with l1 := [(64, 3, true)] } : State).l1 ≠ [] ∧
    (∀ n ∈ seatsOf 0, (base.seat n).rowBusy = false) ∧ (base.core 0).matLast < 8 ∧
    ((base.setSeat 5 { base.seat 5 with vq := [{ entry .matrix 2 0 false with tile := some true }] }).seat 5).rowReady = some 0 ∧
    (busy.th.tile false).pending.isSome = true ∧ (((busy.readTiles 7).seat 7).tile false).pending.isSome = true ∧
    (short (.lanes 2)).nextShort 0 = some (3, 0) ∧ ((short (.lanes 2)).servable 3).isSome = true ∧
    (short (.firstLanes 1)).nextShort 0 = some (3, 0) ∧ ((short (.firstLanes 1)).servable 3).isSome = true ∧
    (short (.restoreLanes 1)).nextShort 0 = some (3, 0) ∧ ((short (.restoreLanes 1)).servable 3).isSome = true ∧
    (base.core 0).shortQ = [] ∧ (base.core 0).resv = [] ∧ base.freeOctets 0 ≠ [] := by decide +kernel

/-- The same image with a marker after every element, and one that loads from each address it is given. -/
def markedFive : FImage := { addFive with marked := true, seg := 1 }
def loader : FImage :=
  ⟨false, 1, 0, [⟨0, 16, 0x40, 1, 2, false, 0, 0⟩], [⟨0, 20, 0, 0, 16, 0, 4⟩, ⟨0, 16, 0, 0, 24, 0, 4⟩], 128⟩
/-- The `fx` of an image over the elements 7 and 9, started. -/
noncomputable def started (g : FImage) : State :=
  out (.fxStart 7) (out (.fx 3 1 3) { fabric with images := [(1, some ⟨0, g⟩)] })
/-- Some places of the `fx` fire in turn. -/
noncomputable def fires (ps : List Nat) (s : State) : State := ps.foldl (fun s p => out (.nodeFire 7 0 p) s) s
noncomputable def done : State := fires [20, 20, 20, 0, 0, 0, 24, 24] (started addFive)
noncomputable def cutting : State :=
  let s := fires [20, 20, 0, 0, 24] (started markedFive)
  s.withTh { s.th with fx := s.th.fx.map (fun r => { r with cut := true }) }
theorem wit_FabricEvents :
    (let s := out (.fx 3 1 3) fabric; (s.startable 7).isSome = true ∧ (s.core 0).fxq.find? (fun n => (s.startable n).isSome) = some 7) ∧
    (match (started addFive).th.fx with
      | some r => r.started && ((started addFive).firePlace r 0 24).isNone && (match (started addFive).firePlace r 0 20 with | some (.ok _ _) => true | _ => false)
      | none => false) = true ∧
    (let s := fires [20] (started loader); match s.th.fx with
      | some r => (match s.firePlace r 0 16 with | some (.fault _ _ _) => true | _ => false) | none => false) = true ∧
    (match done.th.fx with
      | some r => r.atEnd && (done.nextPlace r).isNone && decide (r.out0 = [12, 14]) && !r.img.port1 && decide (0 < r.w) &&
          decide (r.out + r.out0.length ≤ done.th.regBits / r.w * done.th.lanes)
      | none => false) = true ∧
    (match cutting.th.fx with
      | some r => r.cut && r.img.marked && decide ((r.head (nodeKey 0 24) 0).map FTok.isMark = some true) && r.caughtUp r.out0.length
      | none => false) = true ∧
    fabric.occupant 0 0 = none ∧ two (out (.fxEndOfStream 7) done) 3 = [12, 14] := by decide +kernel

/-- The copy of `copied`. -/
noncomputable def theCopy (s : State) : Copy := (s.copies.head?).getD ⟨0, 0, 0, 0, 0, 0, 0, 0, 0, 0, 0, 0, 0, false, none, none, 0, false, [], false, none, none, 0, 0, [], [], []⟩
def findsCopy (s : State) (seat h : Nat) : Bool :=
  (s.copies.find? (fun (k : Copy) => decide (k.seat = seat ∧ k.handle = h) && k.status.isNone && k.fault.isNone)).isSome
/-- A copy to an unmapped page; a copy to device 1. -/
noncomputable def copyPaged : State := out (.acopy 3 1 2 4) (regs [(1, 0x40000000), (2, 0x2000), (4, 64)])
noncomputable def copyAway : State := out (.acopy 3 1 2 4) { copying with
  th := copying.th.setX 1 0x200000000003000, routes := [(1, 0x8000000000000000)] }
/-- A thread that waits for the cell at 0 of `lattice` to reach 0, or 5 within a cycle. -/
def cellWait (thr lto : Word) : State :=
  let s := csrs [(.ltwto, lto)] lattice
  s.withTh { s.th with run := .waiting (.cells 3 false 0 thr 1 1 false false), waitUsed := 1 }
def evWait (w : Bool) : State := base.withTh { base.th with run := .waiting (.event false), wake := w }
theorem wit_CopySyncSettleEvents :
    (let s := copied; let c := theCopy s; findsCopy s 7 1 = true ∧ s.remoteOf c.dst = none ∧ s.remoteOf c.src = none ∧
      (match s.copyRun c with | .status _ w => decide (w = 0) | .page _ _ => false) = true ∧ c.rows = 1 ∧ c.len = 64 ∧
      c.len ≤ 64 - c.dst.toNat % 64 ∧ c.len ≤ 64 - c.src.toNat % 64 ∧
      c.hand = [] ∧ c.made = [] ∧ c.wrote = [] ∧ 0 < c.len ∧ (let u := s.serveCopy c (c.pieces 1);
        match u.access c.ctx .load false c.src 1 0, u.access c.ctx .store false c.dst 1 0 with
        | .ok l, .ok m => !u.poisoned c.owner l && decide (m.region = none) | _, _ => false) = true ∧
      (∀ j, j < 64 → c.writer (c.src + BitVec.ofNat 64 j) = none)) ∧
    (let s := copyPaged; let c := theCopy s; findsCopy s 7 1 = true ∧ (match s.copyRun c with | .page _ st => st | _ => false) = true ∧
      (s.copyPage c).isSome = true ∧ s.recordFn c.owner = none ∧
      ({ s with fqs := [(0, { FaultQ.reset with ctl := 1 })] } : State).recordFn c.owner = some 0) ∧
    (let s := copyAway; findsCopy s 7 1 = true ∧ (s.remoteOf (theCopy s).dst) = some 1) ∧
    (let s : State := { copied with copies := [{ theCopy copied with fault := some 9 }] };
      (s.copies.find? (fun (k : Copy) => decide (k.fault = some 9))).isSome = true ∧ s.copyPage (theCopy s) = none) ∧
    (let s := grouped.withTh { grouped.th with cbarIn := true, cbarArrived := true, run := .waiting .cbar };
      (∃ m ∈ (seatsOf 0).filter (fun m => (s.seat m).grp = some (3, 0)), (s.seat m).cbarIn = true) ∧
      (∀ m ∈ (seatsOf 0).filter (fun m => (s.seat m).grp = some (3, 0)), (s.seat m).cbarArrived = true) ∧ s.saved = []) ∧
    ((cellWait 0 0).focus 7).cellsHold = true ∧ ((cellWait 5 1).focus 7).cellsHold = false ∧ ((cellWait 5 1).focus 7).timedOut = true ∧
    ((evWait true).seat 7).wake = true ∧ ((evWait false).seat 7).wake = false ∧ ((evWait false).focus 7).cellsChanged = false ∧
    ((evWait false).focus 7).timedOut = false ∧
    ((vi.setCore 0 { vi.core 0 with fromNext := ⟨[], [⟨2, 2, 0, 0, [8, 9]⟩], false⟩ }).core 0).fromNext.flight ≠ [] ∧
    neighbour (7 / 8) true = some 1 ∧ ((vi.core 1).buf false).used + ((vi.seat 7).message 0).bytes ≤ 16384 ∧
    lattice.regionAt 0 0 = some joinRegion ∧ joinRegion.domain = false ∧
    ({ lattice with mem := [(0, 0x21), (1, 1), (2, 0x10), (7, 0x80), (18, 1)] } : State).regionAt 0 0 = some { joinRegion with domain := true } ∧
    lattice.descriptor 0 0 0 = some joinRegion ∧ lattice.descriptor 0 1 0 = none ∧ 0 ∉ lattice.fleet.deadDies ∧
    ({ lattice with settleMsgs := [⟨1, 0, 0, 0, 0, []⟩] } : State).settleMsgs[0]? = some ⟨1, 0, 0, 0, 0, []⟩ ∧
    joinRegion.pages * 64 ≤ 64 := by
  and_intros <;> decide +kernel

/-- A record of one task; a gang of two; a record behind its predecessor. -/
def oneTask : LaunchRec := ⟨0, 0, 0, 0, 0, 0, 0, 1⟩
def twoGang : LaunchRec := { oneTask with ctrl := 2 + 2 ^ 23 }
def behind : LaunchRec := { oneTask with ctrl := 1 + 2 ^ 24 }
def groupWith (r : LaunchRec) : Group := ⟨0, 0, r, 0, 0, 0, 0, 0, 0, 0, 0, 0, 0, 0, false⟩
def queued (r : LaunchRec) (prev : Option Nat) (gs : List Group) : State :=
  { base with queues := [(0, { Queue.reset with ctl := 1, recs := [(0, r)], prev := prev })], groups := gs, cycle := 200000 }
theorem wit_LaunchEvents : base.ready = true ∧
    (let s := queued oneTask none []; let x := s.queue 0; let y : Queue := { x with staging := x.staging.setIfInBounds 7 1 }
      let r := recOf (fun k => y.staging.getD k 0)
      r.queue = 0 ∧ r.valid x.owner = true ∧ x.en = true ∧ x.recs.length < 256 ∧ (s.setQueue 0 y).queue 0 = y ∧ (base.queue 0).en = false ∧
      s.gate 0 oneTask = some true) ∧
    (queued behind (some 0) [groupWith oneTask]).gate 0 behind = some false ∧
    (let s := queued oneTask none [groupWith oneTask]; s.dispatch = some (.task (groupWith oneTask)) ∧ (s.taskSeat (groupWith oneTask)).isSome = true) ∧
    (let s := queued oneTask none [groupWith twoGang]; s.dispatch = some (.gang (groupWith twoGang)) ∧ (s.gangRun (groupWith twoGang)).isSome = true ∧
      s.gangResv = none ∧ (groupWith twoGang).pending = true ∧ twoGang.gang = true ∧ 180000 < s.cycle - (groupWith twoGang).since) ∧
    (let g := { groupWith oneTask with placed := 1, exited := 1 };
      (queued oneTask none [g]).groups.find? (fun (g : Group) => decide (g.queue = 0 ∧ g.seq = 0)) = some g ∧ g.exited + g.removed = g.r.tasks) := by
  and_intros <;> decide +kernel

/-- A user thread on seat 0. -/
def task : Thread := { Thread.free with run := .running }
/-- The same after a trap of a cause, with the exception vector at 0x4000. -/
def fell (cause : Word) (x : Bool) : Thread :=
  { ((task.set .status 1).set .ecause cause).set .evec 0x4000 with pc := 0x4000, exitRoutine := x }
def seated (t : Thread) : State := { base.setSeat 0 t with cycle := 4000000 }
def answered (s : State) : State := { s with fqs := [(0, { FaultQ.reset with ctl := 1 + 2 ^ 16 })] }
/-- The thread of seat 0 parked under token 9 at the instruction at 0x2000. -/
def parked (tmo : Nat) : State := { answered base with
  saved := [⟨9, 0, { task with pc := 0x2000 }, true, false, 0, 0⟩], cycle := 4000000 * tmo }
theorem wit_FaultEvents :
    (fell 4 false).trapped = true ∧ supervisorSeat 0 = false ∧ (fell 4 false).tb0.pending = none ∧ (fell 4 false).tb1.pending = none ∧
    (fell 4 true).exitRoutine = true ∧ (seated (fell 4 false)).recordFn 0 = none ∧ (answered (seated (fell 4 false))).recordFn 0 = some 0 ∧
    ((fell 4 false).get .ecause).toNat % 256 = 4 ∧ ((fell 1 false).get .ecause).toNat % 256 = 1 ∧
    (parked 1).ready = true ∧ ((parked 1).parkedThread 0 9).isSome = true ∧
    (match (parked 1).fetchWord ((parked 1).th.ctx 0) 0x2000 with | .ok _ => true | .error _ => false) = true ∧
    (let s : State := { answered copied with copies := [{ theCopy copied with fault := some 9 }] };
      s.ready = true ∧ s.parkedThread 0 9 = none ∧ (s.faultedCopy 0 9).isSome = true) ∧
    (task.watchdog 4).get .exitpc = 0 ∧ ((task.set .exitpc 0x100).watchdog 4).get .exitpc ≠ 0 ∧
    (parked 1).saved.find? (fun (x : Saved) => decide (x.token = 9) && x.parked) ≠ none ∧ ((parked 1).fq 0).tmo = 1 ∧
    1 * 1800000 ≤ (parked 1).cycle - 0 ∧ ((parked 1).fq 0).held = [] ∧
    (let s : State := { seated task with fleet := { base.fleet with rtlim := 1 } }; s.fleet.rtlim ≠ 0 ∧
      1 * 1800000 < (s.seat 0).held + (s.cycle - (s.seat 0).placedAt) ∧ (s.seat 0).onSeat = true ∧ (s.seat 0).priv = false ∧
      (s.seat 0).exitRoutine = false ∧ (s.seat 0).fx = none) ∧
    (match (started addFive).th.fx with | some r => r.started | none => false) = true ∧
    (let s := seated { task with stopping := some (0, false) }; 1800000 ≤ s.cycle - 0 ∧ (s.seat 0).priv = false ∧ s.stopDone 0 = true) ∧
    (let s := seated { task with exitRoutine := true }; 1800000 ≤ s.cycle - (s.seat 0).placedAt) ∧
    (let s := seated { task with ceilFell := some 0 }; (s.seat 0).stopping = none ∧ 36000 ≤ s.cycle - 0) := by
  and_intros <;> decide +kernel
/-- Seats 5 and 6 run tasks of priority 0, seat 5 the younger; a saved thread of priority 1 has waited for its seat for 200 microseconds. -/
def full : State :=
  { (base.setSeat 5 { task with placedAt := 1 }).setSeat 6 task with
    saved := [⟨9, 6, { task with grp := some (0, 0), prio := 1 }, false, true, 0, 0⟩]
    cycle := 400000 }
theorem wit_FaultEvents_preemption : (∀ n ∈ full.allSeats, (full.seat n).stopping = none) ∧ (full.starved 0 0).isSome = true ∧ 5 ∈ full.allSeats ∧
    (supervisorSeat 5 = false ∧ (full.seat 5).onSeat = true ∧ (full.seat 5).prio < (full.starved 0 0).getD 0) ∧
    (∀ n ∈ full.allSeats, supervisorSeat n = false → (full.seat n).onSeat = true → n ≠ 5 → (full.seat 5).prio = (full.seat n).prio ∧
      (full.seat n).placedAt < (full.seat 5).placedAt) := by decide +kernel
theorem wit_FaultEvents_restore : (let s : State := { base with saved := [⟨9, 0, { task with grp := some (0, 0) }, false, false, 0, 0⟩] };
    s.dispatch = some (.saved ⟨9, 0, { task with grp := some (0, 0) }, false, false, 0, 0⟩)) := by decide +kernel

theorem wit_HostEvents : base.ready = true ∧ base.fnUp 0 = true ∧ base.hostReg 0 0x50000 = some .pcap ∧ HostReg.pcap.legal 48 = true ∧
    HostReg.pcap.legal 20 = false ∧ base.hostReg 0 (0x100054 - 4) = some (.qpt 0) ∧ base.seesQueue 0 63 = true ∧ base.fnOwner 0 = 0 ∧ 0 ∈ base.keys ∧
    (∀ i < 64, paKind (0x2000 + i) = .hbm) ∧ base.pfwin = 0 ∧ base.pointDead 0x2000 = false ∧ paKind 0xF000000000000 ≠ .hbm ∧
    base.fnUp 1 = false ∧ (base.setSeat 3 { base.seat 3 with run := .halted }).seat 3 = { base.seat 3 with run := .halted } ∧
    base.keyCmd = none ∧ 5 ∉ base.keys ∧ (out (.keyCreate 5) base).keyCmd = some (5, 1) ∧ (out (.keyDestroy 0) base).keyCmd = some (0, 2) ∧
    (out (.keyDestroy 5) base).keyCmd = some (5, 3) ∧ (0x1300 ≤ 0x14A0 ∧ 0x14A0 < 0x14A8) ∧ (0x1208 < 0x1300 ∧ 0x11C0 ≤ 0x1208) := by
  decide +kernel
theorem wit_StartEvents : base.start.wfail < 2 ∧ base.start.state ≠ 1 ∧ base.start.state ≠ 3 ∧ base.start.tripped = false ∧ 0 ∉ base.fleet.deadDies ∧
    (∀ d < 6, (base.die d).temp < 85) ∧ ({ base.start with tripped := true } : StartSt).tripped = true ∧
    failPossible true (.fail 3 4 0xC5) = true ∧ failPossible false (.fail 2 7 11) = true ∧ failPossible false (.fail 4 5 0) = true ∧
    failPossible true .ok = true ∧ (0x5354 : BitVec 16) ≠ 0 := by decide +kernel

theorem wit_FleetEvents : (base.agentDead (.core 3) = false) ∧ 108000 ≤ ({ base with cycle := 108000 } : State).cycle -
      Map.get 0 base.fleet.beats (agentKey (.core 3)) ∧ (base.agentDead (.die 5) = false) ∧ (base.agentDead (.peer 1) = false) ∧
    base.fleet.hbcfg = 7 ∧ paired.member 1 = true ∧ 1 ≠ paired.devnum ∧ base.remotes = [] ∧ (base.port (base.portOf 1)).fences ≠ 2 ∧
    base.fleet.thermHold = false ∧ 25 * base.fleet.pcap = 1800 ∧ (1749 + 50 < 1800 ∧ 1750 + 50 = 1800 ∧ 1800 < 1801) ∧
    ({ base.fleet with thermHold := true } : Fleet).thermHold = true ∧
    (let u := [94, 95, 99, 100, 109, 110].zipIdx.foldl (fun (u : State) d => u.setDie d.2 { u.die d.2 with temp := d.1 }) base;
      ∀ d < 6, (u.die d).temp = [94, 95, 99, 100, 109, 110].getD d 0) := by decide +kernel

/-- Device 0 beside member 1: port 0 is up, queue 0 belongs to owner 0, and its tables at 0x8000 map the first gigabyte. -/
def linked : State := { withLines [0, 64, 0x100, 0x120, 0x140] paired with
  ports := [(0, { Port.reset with trained := true })]
  queues := [(0, { Queue.reset with ctl := 1, pt := 0x8000 })]
  mem := [(0x8000, 3), (0x8001, 0x90), (0x9000, 3), (0x9001, 0xA0), (0xA000, 0x3D)]
  tlb := []
  remotes := [⟨4, 7, 1, true, 2, 0, [], none, false, 0⟩, ⟨5, 7, 1, false, 2, 0, [], none, false, 0⟩]
  lto := 1
  cycle := 4000 }
/-- A line of HBM asked for, stored, and the unit forms; from device 1, for device 0. -/
def lineFlit (ty : Nat) (bs : List Byte) : Flit :=
  { unitFlit ty 1 0 0 4 0 [] with line := true, addr := 0x2000, len := bs.length, bytes := bs }
def unitOne (ty tag : Nat) : Flit := unitFlit ty 1 0 0 tag (if ty = 1 ∨ ty = 3 then 0 else 1) [⟨0x2000, 2, if ty = 1 then 0 else 7⟩]
theorem linked_ctx (s : State) (h : (List.range 64).filter (fun q => (s.queue q).en && decide ((s.queue q).owner = 0)) = [0])
    (hp : (s.queue 0).asid = 0 ∧ (s.queue 0).pt = 0x8000 ∧ (s.queue 0).lrt = 0) : ∃ k < 6, s.remoteCtx 0 = some ⟨32 * k, dieTlb k, 0, 0, 0x8000, 0, false⟩ := by
  refine ⟨Config.freeNat (s.pick (0 + 2 ^ 32)) % 6, Nat.mod_lt _ (by decide), ?_⟩
  simp only [State.remoteCtx, h, List.length_cons, List.length_nil, Nat.max_self, Nat.zero_add, Nat.mod_one, List.getElem?_cons_zero,
    Option.map_some, hp.1, hp.2.1, hp.2.2]
  rfl
theorem wit_LinkEvents : (linked.port 0).trained = true ∧ (linked.port 0).fenced = false ∧ linked.devnum = 0 ∧
    flitOk (lineFlit 1 []) = true ∧ flitOk (unitOne 1 4) = true ∧ flitOk (lineFlit 3 (List.replicate 128 1)) = true ∧
    flitOk (unitOne 3 4) = true ∧ flitOk (unitOne 4 4) = true ∧ flitOk (unitFlit 5 1 0 0 4 1 []) = true ∧ flitOk (unitOne 2 4) = true ∧
    flitOk (lineFlit 2 (List.replicate 128 1)) = true ∧ flitOk (unitFlit 6 1 0 0 5 1 []) = true ∧ flitOk beat1 = true ∧
    flitOk { lineFlit 1 [] with addr := 1 } = false ∧ flitOk { unitOne 1 4 with dst := 1 } = true ∧ linked.member 1 = true ∧
    (∃ r, linked.remotes.find? (fun (r : RemoteOp) => decide (r.tag = 4) && !r.done) = some r ∧ r.dev = 1 ∧ r.load = true) ∧
    (∃ r, linked.remotes.find? (fun (r : RemoteOp) => decide (r.tag = 5) && !r.done) = some r ∧ r.dev = 1 ∧ r.load = false) ∧
    linked.lto * 1800 ≤ linked.cycle - 0 ∧ 3 ∉ linked.keys ∧ ({ linked with queues := [] } : State).remoteCtx 0 = none ∧
    (∃ k < 6, linked.remoteCtx 0 = some ⟨32 * k, dieTlb k, 0, 0, 0x8000, 0, false⟩) ∧
    (∀ k < 6, (match linked.access ⟨32 * k, dieTlb k, 0, 0, 0x8000, 0, false⟩ .store false 0x2000 4 0 with
      | .ok l => decide (l.region = none ∧ l.pa = 0x2000) | .error _ => false) = true) := by
  refine ⟨?_, ?_, ?_, ?_, ?_, ?_, ?_, ?_, ?_, ?_, ?_, ?_, ?_, ?_, ?_, ?_, ?_, ?_, ?_, ?_, ?_, linked_ctx _ (by decide +kernel) (by decide +kernel), ?_⟩
  case refine_17 => exact ⟨_, rfl, rfl, rfl⟩
  case refine_18 => exact ⟨_, rfl, rfl, rfl⟩
  case refine_21 =>
    have h : (List.range 64).filter (fun q => (({ linked with queues := [] } : State).queue q).en &&
      decide ((({ linked with queues := [] } : State).queue q).owner = 0)) = [] := by decide +kernel
    simp only [State.remoteCtx, h]
    rfl
  all_goals decide +kernel
/-- Region 0 of domain scope, in which die 0 settles. -/
def ring : State := { linked.setDie 0 { linked.die 0 with setEn := true } with
  mem := [(0, 0x21), (1, 1), (2, 0x10), (7, 0x80), (18, 1)] }
def ringFlit : Flit := { unitFlit 7 1 0 0 4 ({ joinRegion with domain := true } : Region).aux [] with len := 64, bytes := List.replicate 64 1 }
theorem wit_LinkEvents_exchange : flitOk ringFlit = true ∧ ring.exchangeRegion ringFlit = some { joinRegion with domain := true } ∧
    ring.settles 0 = true ∧ ringFlit.owner ∈ ring.keys ∧ ringFlit.addr = 0 := by
  refine ⟨by decide +kernel, ?_, by decide +kernel, by decide +kernel, rfl⟩
  obtain ⟨k, _, h⟩ := linked_ctx ring (by decide +kernel) (by decide +kernel)
  have hr : ring.regionAt 0 (bitsOf ringFlit.aux 0 12) = some { joinRegion with domain := true } := by decide +kernel
  have ha : ({ joinRegion with domain := true } : Region).aux = ringFlit.aux := rfl
  have e : ring.remoteCtx ringFlit.owner = some ⟨32 * k, dieTlb k, 0, 0, 0x8000, 0, false⟩ := h
  unfold State.exchangeRegion
  rw [e, Option.bind_some, hr, Option.bind_some, if_pos ⟨rfl, ha⟩]

/-- Five words at 0x2000, where the pc stands. -/
def code (ws : List (BitVec 32)) : State :=
  let bs := ws.flatMap (fun w => natLe 4 w.toNat)
  { mapped with
    th := { mapped.th with pc := 0x2000 }
    mem := (bs.zipIdx.map (fun e => (0x2000 + e.2, e.1))).filter (fun e => e.2 ≠ 0) }
noncomputable def fetches (s : State) (i : Instr) : Bool := match s.fetch with | .run j => decide (j = i) | _ => false
def wordIs (s : State) (o : Nat) (w : BitVec 32) : Bool := match s.wordAt o with | .ok v => decide (v = w) | .error _ => false
noncomputable def refuses (s : State) (sub : BitVec 8) : Bool := match s.fetch with | .trap x => decide (x = .illegal sub) | _ => false
def notPrefix (s : State) (k : Nat) : Bool := match s.wordAt k with | .ok p => !isPairPrefix p | .error _ => false
noncomputable def badPair (s : State) : Bool := match s.fetch with | .badPair _ _ => true | _ => false
theorem wit_StepRunsDecodedInstruction :
    (let s := code [0x0851BFFD]; s.sched = [] ∧ s.start.state ≠ 3 ∧ s.start.tripped = false ∧ s.tick.th.run = .running ∧
      s.tick.stopDone s.tick.cur = false ∧ s.tick.issueHeld = false ∧ fetches s.tick (.addi 5 6 (-3)) = true ∧
      wordIs s 0 0x0851BFFD = true ∧ wMajor 0x0851BFFD ≠ 0x3E ∧ notPrefix s 4 = true) ∧
    (let s := code [0xF8028301, 0xC060C205]; fetches s (.fxLong 6 5 (.two 2 3) 10 0) = true ∧ wordIs s 0 0xF8028301 = true ∧
      wordIs s 4 0xC060C205 = true ∧ wMajor 0xF8028301 = 0x3E ∧ notPrefix s 8 = true) ∧
    (let s := code [0x80424880, 0xF8000103, 0x80428881];
      fetches s (.pair ⟨.flt .add, 4, 8, .reg 9, none⟩ ⟨.flt .sub, 4, 8, .reg 10, none⟩) = true ∧ isPairPrefix 0xF8000103 = true ∧
      wordIs s 0 0x80424880 = true ∧ wordIs s 4 0xF8000103 = true ∧ wordIs s 8 0x80428881 = true) ∧
    refuses (code [0xFFFFFFFF]) 0x00 = true ∧ badPair (code [0x80424800, 0xF8000103, 0x80428881]) = true ∧
    (match ({ mapped with th := { mapped.th with pc := 0x40000000 } } : State).wordAt 0 with | .ok _ => false | .error x => decide (x.cause = 0x06)) = true ∧
    (let u := (({ code [0x0851BFFD] with sched := [.seat 7] } : State).tick.focus 7); u.th.run = .running ∧ u.stopDone u.cur = false ∧
      u.issueHeld = false) ∧ (Instr.gceilRaise 0).isEvent = true := by
  and_intros <;> decide +kernel
theorem wit_VectorIssueTraps : vtypeLegal 4 = false ∧ vtypeLegal vi.th.vt = true ∧ decide ((3 : VReg).toNat % 2 = 0) = false ∧ vi.th.nreg ≤ 8 ∧
    (∀ r ∈ [3, 1, 2], r < vi.th.nreg) ∧ (decide (vtFmt vf.th.vt ≤ 1) && portClear vf.th.vt) = false ∧ modP ⟨false, some ⟨false, true, none⟩⟩ = true := by
  and_intros <;> decide +kernel
theorem wit_DecodeEncode : (Instr.addi 5 6 (-3)).wf = true ∧ (Instr.addi 5 6 (-3)).isEvent = false ∧
    (Instr.fxLong 6 5 (.two 2 3) 10 0).wf = true ∧ (Instr.fxLong 6 5 (.two 2 3) 10 0).isEvent = false := by decide
theorem wit_StepKeepsMemoryCanonical : MemoryWf (code [0x0851BFFD]) ∧ (match step (code [0x0851BFFD]) with | .next _ => true | _ => false) = true := by
  unfold MemoryWf; decide +kernel

/-! ## Clauses on other devices, lattice regions and the units beside the core -/

/-- A seat whose request to device 1 has been answered, with these records or a failure. -/
def answers (s : State) (load : Bool) (recs : List UnitRec) (fail : Option (Nat × Nat)) : State :=
  { s with remotes := [⟨4, 7, 1, load, recs.length, recs.length, recs, fail, true, 0⟩] }
theorem wit_ScalarLoadResults_remote : paired.remoteOf (paired.th.x 1 + 8) = some 1 ∧ paired.member 1 = true ∧ paired.keys.contains paired.th.owner = true ∧ (paired.th.x 1 + 8).toNat % 8 = 0 ∧
    paired.myRemotes = [] ∧ (answers paired true [⟨0x2000, 3, 9⟩] none).myRemotes = [⟨4, 7, 1, true, 1, 1, [⟨0x2000, 3, 9⟩], none, true, 0⟩] ∧
    (answers paired true [] (some (0, 5))).myRemotes = [⟨4, 7, 1, true, 0, 0, [], some (0, 5), true, 0⟩] ∧
    (out (.ldD 3 1 false 0) (answers paired true [⟨0x2000, 3, 9⟩] none)).th.x 3 = 9 ∧
    (Map.get Port.reset linked.ports (linked.portOf 1)).up = true := by decide +kernel
/-- The cell at 0 of `lattice` holds 9. -/
def high : State := { lattice with mem := lattice.mem ++ [(0x10000, 9)] }
/-- An access of a store lands in a region, before and after the older stores. -/
def storesTo (s : State) (n : Nat) (va : Word) : Bool :=
  match s.access s.ctx .store (s.ctlAllowed n) va n 0, s.drain.access s.drain.ctx .store false va n 0 with
  | .ok l, .ok m => decide (s.remoteOf va = none) && decide (paKind l.pa ≠ .ctl) && l.region.isSome && decide (m.region = some joinRegion)
  | _, _ => false
theorem wit_ScalarStore_lattice : storesTo lattice 4 0 = true ∧ storesTo lattice 1 0 = true ∧ storesTo high 4 0 = true ∧
    joinRegion.width = 4 ∧ joinRegion.le (lattice.drain.cellAt 0 joinRegion 0x10000) (joinRegion.canon 8) = true ∧
    joinRegion.le (high.drain.cellAt 0 joinRegion 0x10000) (joinRegion.canon 8) = false ∧
    paired.remoteOf (paired.th.x 1) = some 1 ∧ (paired.th.x 1).toNat % 4 = 0 ∧ (answers paired false [] none).myRemotes ≠ [] := by decide +kernel
theorem wit_VectorLoads_answer : two (out (.vld 3 1 .w um .unord) (answers paired true [⟨0x2000, 2, 7⟩, ⟨0x2004, 2, 8⟩] none)) 3 = [7, 8] := by
  decide +kernel
theorem wit_TileInstructions_remote : vtypeLegal paired.th.vt = true ∧ (paired.th.tile true).pending = none ∧ paired.myRemotes = [] ∧
    (∀ k < 256, ∀ m < 4, (paired.th.x 1 + BitVec.ofNat 64 k * 256 + BitVec.ofNat 64 (64 * m)).toNat % 64 = 0 ∧
      paired.remoteOf (paired.th.x 1 + BitVec.ofNat 64 k * 256 + BitVec.ofNat 64 (64 * m)) = some 1) ∧ paired.member 1 = true ∧ paired.keys.contains paired.th.owner = true := by decide +kernel
theorem wit_FabricExecuteIssue_empty : (let s := csrs [(.vl, 0)] fabric;
    vtypeLegal s.th.vt = true ∧ portClear s.th.vt = true ∧ (∀ v ∈ [3, 1, 2], v < s.th.nreg) ∧ bitsOf (s.slotEntry 3) 63 1 = 1 ∧
    s.image (bitsOf (s.slotEntry 3) 0 12) = some ⟨0, addFive⟩ ∧ s.th.owner = 0 ∧ (s.th.get .fstat).getLsbD 1 = false ∧ s.th.vlc = 0) ∧
    unitsOf (vtFmt fabric.th.vt) (Nat.min (fabric.th.x 4).toNat fabric.th.vlmax) = 0 ∧
    unitsOf (vtFmt fabric.th.vt) (Nat.min (fabric.th.x 5).toNat fabric.th.vlmax) = 0 := by decide +kernel
/-- Two pages of `joinRegion`, of which the first is mapped. -/
def wide : State := withLines [0, 0x10F80 / 128] { lattice with mem := [(0, 0x21), (2, 0x10), (4, 1), (7, 0x80), (18, 1)] }
theorem wit_LatticeInstructions_many : (let s := { lattice with mem := lattice.mem ++ [(0x10000, 9)] };
      ∀ k < 2, gives s .load (BitVec.ofNat 64 (4 * k)) 4 0 ⟨0x10000 + 4 * k, some joinRegion, false⟩ = true ∧
        s.poisoned 0 ⟨0x10000 + 4 * k, some joinRegion, false⟩ = false) ∧
    (let r := { joinRegion with pages := 2 };
      givesIn wide.ctx wide .load 0xFFC 4 0 ⟨0x10FFC, some r, false⟩ = true ∧ wide.poisoned 0 ⟨0x10FFC, some r, false⟩ = false ∧
      (match wide.access wide.ctx .load false 0x1000 4 0 with | .ok _ => false | .error _ => true) = true ∧ 0x10FFC + 2 * 4 ≤ r.rb + r.pages * 4096) ∧
    (Map.get LineTag.reset lattice.lines (0x10000 / 128) = ⟨some 0, false⟩ ∧ 0x10000 % (joinRegion.bits / 8) = 0 ∧ paKind 0x10000 = .hbm ∧
      joinRegion.canon 5 < 2 ^ joinRegion.bits ∧ joinRegion.width ∈ [4, 8, 16, 32, 64]) := by decide +kernel
/-- A packed receiver of bytes: 512 elements of four bits fit in the 256 bytes a register of one octet holds. -/
theorem wit_MessageInstructions_units : (let s := vec 64 2 []; vtypeLegal s.th.vt = true ∧ portClear s.th.vt = true ∧
    s.th.vlcMax < s.th.vlmax ∧ vtEwc s.th.vt = 0) := by decide +kernel
/-- A run whose one node, `op` on 32-bit numbers with IMM 5, has these data tokens at its inputs and a free link to output port 0. -/
def nodeRun (op fmt aux : Nat) (xs : List Word) : FxRun :=
  let tok (x : Word) : FTok := ⟨.data x, [none, none, none], [(0, 0), (0, 0), (0, 0)]⟩
  let ins : List FLink := (List.range xs.length).map (fun i => ⟨0, 20 + i, 0, 0, 0, i, 4⟩)
  { img := { addFive with nodes := [⟨0, 0, op, fmt, 2, false, aux, 5⟩], links := ins ++ [⟨0, 0, 0, 0, 24, 0, 4⟩] }
    cid := 1, tab := 0x4000, slot := 3, words := 1, vd := 3, w := 32, vlmax := 256, base := 0, started := true, sources := 1
    streams := [], arg := 0, argSent := 0, copySent := 0, queues := xs.map (fun x => [tok x]) ++ [[]], nodes := [FNodeSt.reset], reqs := []
    out0 := [], out1 := [], out := 0, committed := 0, records := [], marks := 0, rem := 0, disc := 0, flags := 0, swap := false, sid := 0
    sfoot := 0, swapped := [], stores := [], cut := false }
/-- What the node has written to output port 0 when it has fired. -/
def writes (r : FxRun) : List Nat :=
  match r.img.nodes with
  | n :: _ => ((r.fireNode 0 n).queue (r.img.links.length - 1)).map FTok.val
  | [] => []
/-- The hypotheses of the node clauses of FabricEvents: the node has room and data at every linked input. -/
def canFire (r : FxRun) (is : List Nat) : Bool :=
  match r.img.nodes with
  | n :: _ => decide (r.linked n = is) && is.all (fun i => ((r.head n.key i).map FTok.isData).getD false) && r.room n.key [0] &&
      (r.st 0).close.isNone && !(r.st 0).ended && !(r.st 0).skip && decide (r.img.nodes.findIdx? (fun m => decide (m.tile = 0 ∧ m.node = 0)) = some 0) &&
      (isMemOp n.op || decide (r.fireNode 0 n ≠ r))
  | [] => false
theorem wit_FabricEvents_nodes :
    canFire (nodeRun 0x01 0 0 [7]) [0] = true ∧ writes (nodeRun 0x01 0 0 [7]) = [12] ∧
    canFire (nodeRun 0x05 0 0 [7, 0xFFFFFFFF]) [0, 1] = true ∧ writes (nodeRun 0x05 0 0 [7, 0xFFFFFFFF]) = [0xFFFFFFFF] ∧
    canFire (nodeRun 0x01 3 0 [0x3F800000, 0x40000000]) [0, 1] = true ∧ writes (nodeRun 0x01 3 0 [0x3F800000, 0x40000000]) = [0x40400000] ∧
    canFire (nodeRun 0x04 3 0 [0x3F800000, 0x40000000, 0x3F800000]) [0, 1, 2] = true ∧
    canFire (nodeRun 0x20 0 0 [7, 1]) [0, 1] = true ∧ writes (nodeRun 0x20 0 0 [7, 1]) = [7] ∧ canFire (nodeRun 0x20 0 0 [7, 0]) [0, 1] = true ∧
    canFire (nodeRun 0x24 0 0 [7, 0]) [0, 1] = true ∧ writes (nodeRun 0x24 0 0 [7, 0]) = [] ∧
    canFire (nodeRun 0x21 0 0 [0, 7, 8]) [0, 1, 2] = true ∧ writes (nodeRun 0x21 0 0 [0, 7, 8]) = [8] ∧
    (let r := (nodeRun 0x22 0 0 [6, 7, 1]).setSt 0 { FNodeSt.reset with on := true }; canFire r [0, 1, 2] = true ∧ writes r = [7]) ∧
    canFire (nodeRun 0x23 0 0 [7, 1]) [0, 1] = true ∧ writes (nodeRun 0x23 0 0 [7, 1]) = [7] ∧
    canFire (nodeRun 0x28 0 0 [7, 8]) [0, 1] = true ∧ writes (nodeRun 0x28 0 0 [7, 7]) = [7] ∧
    canFire (nodeRun 0x29 0 0 [9, 8]) [0, 1] = true ∧ writes (nodeRun 0x29 0 0 [9, 8]) = [8] ∧
    canFire (nodeRun 0x2C 0 0 [9]) [0] = true ∧ canFire (nodeRun 0x2D 0 0 [9]) [0] = true ∧ writes (nodeRun 0x2D 0 0 [9]) = [0] ∧
    canFire (nodeRun 0x2B 0 2 [9]) [0] = true := by
  and_intros <;> decide +kernel
/-- The fabric thread at 0x2000 with a load or a store node; and a run that has all its outputs. -/
theorem wit_FabricEvents_memory : (let s := regs [(1, 0x2000)] (vec i32 2 []); let r := nodeRun 0x40 0 0 [0x2000];
      canFire r [0] = true ∧ s.vspHeld = false ∧ s.th.lsqFull = false ∧ s.th.fxStores = [] ∧
      gives s .load 0x2000 4 0 ⟨0x2000, none, false⟩ = true ∧ s.poisoned 0 ⟨0x2000, none, false⟩ = false ∧
      canFire (nodeRun 0x41 0 0 [0x2000, 7]) [0, 1] = true ∧ gives s .store 0x2000 4 0 ⟨0x2000, none, false⟩ = true) ∧
    (let r : FxRun := { nodeRun 0x01 0 0 [7] with vlmax := 0 }; r.vlmax ≤ r.total ∧ r.img.port1 = false ∧ 0 < r.w) ∧
    (nodeRun 0x01 0 0 [7]).total < (nodeRun 0x01 0 0 [7]).vlmax := by
  and_intros <;> decide +kernel
theorem wit_CopySyncSettleEvents_more :
    (let s : State := { copied with copies := [{ theCopy copied with fault := some 9, retry := true }] };
      ((s.copies.find? (fun (k : Copy) => decide (k.fault = some 9))).map (fun c => c.retry)) = some true) ∧
    (let u := copied.serveCopy (theCopy copied) ((theCopy copied).pieces 1); (match u.access (theCopy copied).ctx .load false 0x2000 1 0,
        u.access (theCopy copied).ctx .store false 0x3000 1 0 with | .ok l, .ok m => !u.poisoned 0 l && decide (m.region = none) | _, _ => false) = true) ∧
    ((0 : Nat) < Map.get 0 ({ lattice with rounds := [(0, 1)] } : State).rounds 0 ∧ Map.get 0 lattice.rounds 0 ≤ 0) ∧
    (lattice.die 0).setEn = true ∧ ((lattice.setDie 0 { lattice.die 0 with setEn := false }).die 0).setEn = false := by
  and_intros <;> decide +kernel
theorem wit_FaultEvents_limit : (let s : State := { seated task with fleet := { base.fleet with rtlim := 1 } }; s.mustComplete 0 = false) ∧
    (let s : State := { base with groups := [groupWith oneTask] }; (groupWith oneTask).boost = 0 ∧ s.groups ≠ []) := by decide +kernel
theorem wit_HostEvents_more : ((3 : Nat) ≠ 4 ∧ (3 : Nat) ≠ 8) ∧ 2 % 8 ≠ 0 ∧ 0x1100 ≤ 0x1100 ∧ paKind (0 + 0xF000000000000) ≠ .hbm ∧
    base.hostRead 0 8 8 = some (.data (natLe 8 base.start.ststat)) := by decide +kernel
theorem wit_StartEvents_more : (let s : State := { base with start := { base.start with state := 3, fcode := 4 } };
    s.ready = false ∧ s.start.fcode ≠ 0 ∧ s.start.state ≠ 1 ∧ s.start.wfail < 3) ∧ failPossible true (.fail 1 8 0) = true := by decide +kernel
theorem wit_FleetEvents_more : base.ready = true ∧ (base.port 0).fenced = false ∧ (base.port 0).fences ≠ 2 ∧
    ((base.setPort 0 { base.port 0 with fences := 2 }).port 0).fences = 2 ∧ ((base.setPort 0 { base.port 0 with fenced := true }).port 0).fenced = true ∧
    (base.port 0).up = false := by decide +kernel
/-- The tables of `linked` lead to a lattice page of region 0, which has a replica on each die. -/
def linkedCells : State := { linked with
  mem := [(0, 0x21), (2, 0x10), (7, 0x80), (18, 1), (26, 1), (28, 32), (34, 1), (36, 64), (42, 1), (44, 96), (50, 1), (52, 128), (58, 1), (60, 160), (0x8000, 3),
    (0x8001, 0x90), (0x9000, 3), (0x9001, 0xA0), (0xA000, 0xBD)] }
theorem wit_LinkEvents_more :
    (let s := linked.setPort 0 { linked.port 0 with fenced := true }; (s.port 0).trained = true ∧ (s.port 0).fenced = true) ∧ (base.port 0).trained = false ∧
    (∀ k < 6, (match linkedCells.access ⟨32 * k, dieTlb k, 0, 0, 0x8000, 0, false⟩ .store false 0 4 0 with
      | .ok l => decide (l.region = some { joinRegion with rb := k * 2 ^ 37 + 0x10000 }) | .error _ => false) = true) ∧ joinRegion.typ ≠ 5 := by
  and_intros <;> decide +kernel
theorem wit_LinkEvents_noRegion : flitOk ringFlit = true ∧ ({ ring with queues := [] } : State).exchangeRegion ringFlit = none := by
  refine ⟨by decide +kernel, ?_⟩
  have h : (List.range 64).filter (fun q => (({ ring with queues := [] } : State).queue q).en &&
      decide ((({ ring with queues := [] } : State).queue q).owner = ringFlit.owner)) = [] := by decide +kernel
  simp only [State.exchangeRegion, State.remoteCtx, h]
  rfl
/-- A full load-store queue: a load must wait, and its oldest store can be performed; a tripped device. -/
theorem wit_StepRunsDecodedInstruction_more :
    (let s := (code [0x0851BFFD]).withTh { (code [0x0851BFFD]).th with lsq := List.replicate 64 ⟨0x2040, [1], 0, false, false⟩ };
      s.mustWait (.ldD 3 1 false 0) = true ∧ s.enabled (.storePerformed 7 0) = true) ∧
    (code [0x0851BFFD]).mustWait (.addi 5 6 (-3)) = false ∧ accessesMemory (.ldD 3 1 false 0) = true ∧ accessesMemory (.addi 5 6 (-3)) = false ∧
    ({ mapped with start := { mapped.start with tripped := true } } : State).start.tripped = true ∧ worksStopped (.powerApplied []) = true := by
  and_intros <;> decide +kernel

/-! ## The remaining clauses -/

/-- Device control space at 0x40000000, which a supervisor seat reaches. -/
def control : State := { regs [(1, 0x40001000), (2, 0x11)] with
  tlb := [⟨dieTlb 0, 0, 0, 30, 0, 0x3D⟩, ⟨dieTlb 0, 0, 1, 30, ctlBase, 0x1D⟩] }
def ctlAt (s : State) (k : Acc) (va : Word) (n : Nat) : Bool :=
  match s.access s.ctx k (s.ctlAllowed n) va n 0 with
  | .ok l => decide (l.pa = ctlBase + (va.toNat - 0x40000000)) && decide (paKind l.pa = .ctl) && decide (s.remoteOf va = none)
  | .error _ => false
/-- Loads and stores of the line in its slice, of control space; a join below a release. -/
theorem wit_ScalarLoads_control : base.loadLine ⟨0x2008, none, false⟩ false ≠ base ∧
    (base.loadLine ⟨0x2008, none, false⟩ false).poisoned 0 ⟨0x2008, none, false⟩ = false ∧
    (base.loadLine ⟨0x2008, none, false⟩ true).poisoned 0 ⟨0x2008, none, false⟩ = false ∧
    ctlAt control .load 0x40001000 8 = true ∧ ctlAt control .load 0x40002008 8 = true ∧ ctlAt control .store 0x40001000 4 = true ∧
    control.ctlAllowed 8 = true ∧ control.ctlAllowed 2 = false ∧ (out (.ldD 3 1 false 0) control).th.x 3 = ((control.die 0).setcfg % 2 ^ 64 : Nat) ∧
    ((out (.stD 2 1 false 0) control).die 0).setEn = true ∧ ((out (.stD 2 1 false 0) control).die 0).setShare = 1 ∧
    ({ base with l1 := [(64, 0, false)] } : State).l1.any (fun e => decide (e.1 = 64 ∧ e.2.1 = 0)) = true := by decide +kernel
/-- An address on device 2, which is no member; an owner without a key; poison at an atomic and at a load; an atomic out of reach. -/
theorem wit_AccessTraps_more : (regs [(1, 0x400000000002000)]).remoteOf 0x400000000002000 = some 2 ∧
    (regs [(1, 0x400000000002000)]).member 2 = false ∧ ({ paired with keys := [] } : State).keys.contains paired.th.owner = false ∧
    ({ paired with keys := [] } : State).member 1 = true ∧ paired.remoteOf (paired.th.x 1) = some 1 ∧
    (match poisonedLine.access poisonedLine.ctx .load (poisonedLine.ctlAllowed 8) 0x2000 8 0 with
      | .ok l => (poisonedLine.loadLine l false).poisoned 0 l && decide (paKind l.pa ≠ .ctl ∧ poisonedLine.remoteOf 0x2000 = none) | .error _ => false) = true ∧
    (let u := poisonedLine.drain.atomicServe poisonedLine.ctx 8 [poisonedLine.th.x 1];
      match u.access u.ctx .atomic false (u.th.x 1) 8 0 with
      | .ok l => u.poisoned u.th.owner l && l.region.isNone | .error _ => false) = true ∧
    (let s := regs [(1, 0x40000000)]; let u := s.drain.atomicServe s.ctx 8 [s.th.x 1];
      u.remoteOf (u.th.x 1) = none ∧ (u.access u.ctx .atomic false (u.th.x 1) 8 0).toOption.isSome = false) ∧
    (let s := lattice; let u := s.drain.atomicServe s.ctx 4 [s.th.x 1];
      (match u.access u.ctx .atomic false (u.th.x 1) 4 0 with | .ok l => l.region.isSome | .error _ => false) = true) := by decide +kernel
theorem wit_ControlRegisterTraps_reserved : csrRef 0x007 = some (.own .frm) ∧ 5 ≤ (5 : Word).toNat ∧ csrRef 0x00A = some (.own .gceil) ∧
    9 ≤ (9 : Word).toNat ∧ 3 ≤ (3 : Word).toNat ∧ State.reset.th.priv = true := by decide
theorem wit_Fence : ((⟨true, false, false, false⟩ : FenceKinds).r = true ∧ (⟨false, true, false, false⟩ : FenceKinds).w = true) ∧
    (⟨true, false, false, false⟩ : FenceKinds).a = false ∧ base.copies = [] := by decide
theorem wit_VectorConfiguration_grants : ((asks.beginSetvl asks.cur (Nat.min 1 (asks.ceiling asks.cur))).benchGrant asks.cur 1 (asks.ceiling asks.cur)).isSome = true ∧
    vtypeLegal (asks.th.x 2) = true ∧
    (let s := csrs [(.gceil, 0)] asks; (s.beginSetvl s.cur (Nat.min 1 (s.ceiling s.cur))).benchGrant s.cur 1 (s.ceiling s.cur) = none) ∧
    (let s := csrs [(.gceil, 1)] (vec i32 2 []); s.th.gceil < 2 ∧ vtTd i32 = false ∧ s.th.octetList = [0]) := by decide +kernel
/-- Sums that saturate, and that do not. -/
theorem wit_FixedPointResults_sat : clamp 32 true (0x7FFFFFFF + 1) ≠ 0x7FFFFFFF + 1 ∧ clamp 32 true (3 + 4) = 3 + 4 := by decide +kernel
/-- A vector store that fails at unit 1 without .ord, a unit above it passing. -/
theorem wit_VectorStores_unordered : (let s := regs [(1, 0x3FFFFFFC), (2, 4)] (vec i32 2 [(1, [0, 1]), (2, [5, 6])] edge);
    let us : List StoreUnit := [(0, [(0x3FFFFFFC, 0x3FFFFFFC, 5)])]
    VectorReady s um true [2, 1] (widMatches .w s.th.vt && portClear s.th.vt) ∧
    (let start := storeStart s 4 [(0, [(0x3FFFFFFC, 5)]), (1, [(0x40000000, 6)])];
      inTurnTest (putUnit 4) (unitTest 4) start us = true ∧
      (match (us.foldl (putUnit 4) start).checkFields 4 1 [(0x40000000, 6)] with | .ok _ => false | .error _ => true) = true)) := by
  unfold VectorReady; decide +kernel
theorem wit_FabricSlots_fail : (regs [(1, 0x2001)]).th.x 1 = 0x2001 ∧ (0x2001 : Word).toNat % 64 ≠ 0 ∧
    fabric.image 5 = none ∧ 4096 ≤ (fabric.th.x 1).toNat ∧ ({ fabric with images := [(1, some ⟨3, addFive⟩)] } : State).image 1 = some ⟨3, addFive⟩ ∧
    (match (regs [(1, 0x40000000)]).areaRead 0x40000000 1 with | .ok _ => false | .error _ => true) = true := by decide +kernel
/-- A thread of seat 6, before seat 7 at the Sideboard, that looks for entries again. -/
theorem wit_FabricShadow_order :
    (let s := (fabric.setSeat 6 { fabric.seat 6 with run := .running }).setCore 0 { fabric.core 0 with fxq := [6, 7] };
      s.cur = 7 ∧ (s.core 0).fxq.takeWhile (fun n => decide (n ≠ s.cur)) = [6] ∧ s.looking 6 = true ∧ s.cur ∉ (([6, 7] : List Nat).dropWhile (· ≠ 7)).drop 1) := by
  decide +kernel
/-- Cells of four bytes asked for eight, more cells than 4,096, and cells past the end of the region. -/
theorem wit_LatticeInstructions_refused : gives lattice .load 0 8 0 ⟨0x10000, some joinRegion, false⟩ = true ∧
    gives lattice .store 0 8 0 ⟨0x10000, some joinRegion, false⟩ = true ∧ ¬ (joinRegion.width = 8 ∨ (joinRegion.typ = 5 ∧ 16 ≤ joinRegion.width ∧ true = true)) ∧
    4096 < (0x1001 : Word).toNat % 2 ^ 32 ∧ joinRegion.rb + joinRegion.pages * 4096 < 0x10000 + 0x401 * joinRegion.width := by decide +kernel
/-- A later arrival at the barrier of a group. -/
theorem wit_WaitsAndBarriers_later : (let s := grouped.setSeat 5 { grouped.seat 5 with grp := some (3, 0), cbarIn := true };
    s.th.cbarPassed = false ∧ s.th.grp = some (3, 0) ∧ 5 ∈ seatsOf (coreOf s.cur) ∧ (s.seat 5).grp = some (3, 0) ∧ (s.seat 5).cbarIn = true) := by
  decide +kernel
/-- Loads under way of a line in its slice, and of one that has left it; a line of VSP; older stores to other bytes. -/
theorem wit_CoreEvents_lines : (0, 64) ∈ ({ base with loads := [(0, 64)] } : State).loads ∧ base.inSlice 64 = true ∧
    (0, 65) ∈ ({ base with loads := [(0, 65)] } : State).loads ∧ base.inSlice 65 = false ∧ paKind (128 * 65) = .hbm ∧
    paKind (128 * (vspBase / 128)) ≠ .hbm ∧ (base.fetchLine 0 64).tagOf 64 = some 0 ∧
    (let way := (base.slice.filter (fun e => decide (homeCore (128 * e.1) = homeCore (128 * 65) ∧ e.1 % 2048 = 65 % 2048))).length; way ≤ 16) ∧
    (∀ q ∈ ([⟨0x2000, [1], 0, false, false⟩] : List PendingStore), q.pa + q.bytes.length ≤ 0x2008 ∨ 0x2008 + 1 ≤ q.pa) ∧
    (∀ z < 64, (base.l1.filter (fun e => decide (e.2.1 = 0 ∧ e.1 % 64 = z % 64))).length ≤ 8) ∧
    ((base.setSeat 5 { base.seat 5 with lowered := true }).seat 5).lowered = true := by decide +kernel
/-- A shadow armed for a slot, and none for the slot of a run that starts; a load node whose line is served. -/
theorem wit_FabricEvents_armed : ((armed 1).core 0).ctx.filter (fun e => decide (e.shadow = some (0x5000, 0))) ≠ [] ∧
    (fabric.core 0).ctx.filter (fun e => decide (e.shadow = some (0x4000, 3))) = [] ∧
    (let s := regs [(1, 0x2000)] (vec i32 2 []); let q := s.serveAt s.vctx [0x2000];
      gives s .load 0x2000 4 0 ⟨0x2000, none, false⟩ = true ∧ q.poisoned q.th.owner ⟨0x2000, none, false⟩ = false) := by decide +kernel
/-- The parts of a copy read, and written from bytes in hand; a region whose descriptor fails. -/
theorem wit_CopySyncSettleEvents_parts : (let s := copied; let c := theCopy s;
    s.remoteOf c.src = none ∧ s.remoteOf c.dst = none ∧ (c.unread c.rows).length = 1 ∧ (c.todo c.rows).length = 1 ∧
    (match (s.copyTarget c (handAt [(0, List.replicate 64 1)]) ((c.todo c.rows).flatMap (fun p => p.within 0 8))).2.2 with | none => true | some _ => false) = true ∧
    s.copyHand { c with hand := [(0, List.replicate 64 1)] } = [(0, List.replicate 64 1)]) ∧
    (let s := copyPaged; let c := theCopy s;
      (match (s.copyTarget c (handAt (s.copyHand c)) ((c.todo c.rows).flatMap (fun p => p.within 0 8))).2.2 with | none => false | some _ => true) = true) ∧
    (let s : State := { (lattice.setDie 0 { lattice.die 0 with setEn := true }) with mem := [] };
      s.regionAt 0 0 = none ∧ Map.get 0 s.rounds 0 ≤ 0 ∧ s.settles 0 = true ∧ Map.wf Die.reset s.dies = true) := by
  and_intros <;> decide +kernel
/-- An exit routine, and a task under the watchdog, whose stops take a millisecond. -/
theorem wit_FaultEvents_stops : (let s := seated { task with stopping := some (0, false), exitRoutine := true };
      1800000 ≤ s.cycle - 0 ∧ (s.seat 0).priv = false ∧ s.mustComplete 0 = false ∧ (s.seat 0).exitRoutine = true) ∧
    (let s := seated { task with stopping := some (0, false) }; s.mustComplete 0 = false ∧ (s.seat 0).exitRoutine = false) ∧
    (∀ n ∈ full.allSeats, ∀ c < 2, (full.seat n).stopping ≠ some (c, true)) := by
  and_intros <;> decide +kernel
/-- The halves of a cleared counter, a BAR2 block with and without a key, with a line outside its slice, poisoned; CD0 dead. -/
theorem wit_HostEvents_windows : base.ready = true ∧ base.fnUp 0 = true ∧ base.fnOwner 0 ∈ base.keys ∧ base.pfwin = 0 ∧
    (∀ i < 64, paKind (0x2000 + 0 + i) = .hbm) ∧ base.pointDead 0x2000 = false ∧ 0x2000 % 64 + 64 ≤ 64 ∧
    ¬ (base.fnOwner 0 ∈ ({ base with keys := [] } : State).keys) ∧ base.inSlice 64 = true ∧ base.inSlice 65 = false ∧
    ({ base with fleet := { base.fleet with deadDies := [0] } } : State).hostRead 0 0 8 = none ∧ 0x1300 ≤ 0x1440 ∧ 0x1440 < 0x14A8 ∧
    base.seesQueue 0 0 = true := by
  and_intros <;> decide +kernel
/-- Device 1 at the other end of port 0, with no request to it under way. -/
theorem wit_FleetEvents_peer : (let s := { base with ports := [(0, { Port.reset with trained := true, peer := some 1 })], cycle := 108000 };
    (∃ p < 12, (s.port p).peer = some 1) ∧ 1 ≠ s.devnum ∧ s.agentDead (.peer 1) = false ∧ (s.port 0).up = true ∧ s.remotes = [] ∧
    108000 ≤ s.cycle - Map.get 0 s.fleet.beats (agentKey (.peer 1))) := by decide +kernel
/-- A request of two records for lines that this device holds. -/
def twoFlit (ty : Nat) : Flit := unitFlit ty 1 0 0 4 0 [⟨0x2000, 2, if ty = 1 then 0 else 7⟩, ⟨0x2004, 2, if ty = 1 then 0 else 8⟩]
theorem wit_LinkEvents_records : flitOk (twoFlit 1) = true ∧ flitOk (twoFlit 3) = true ∧ (twoFlit 1).dst = linked.devnum ∧ (twoFlit 1).recs.length = 2 ∧
    (∀ k < 6, let s : State := linked;
      (match s.access ⟨32 * k, dieTlb k, 0, 0, 0x8000, 0, false⟩ .load false 0x2000 4 0 with
      | .ok l => !s.poisoned 0 l && decide (l.psn = false ∧ s.pointDead l.pa = false) | .error _ => false) = true) ∧
    (∀ k < 6, let s : State := withLines [0, 0x100, 0x120, 0x140] linked;
      (match s.access ⟨32 * k, dieTlb k, 0, 0, 0x8000, 0, false⟩ .load false 0x2000 4 0 with
      | .ok l => s.poisoned 0 l | .error _ => false) = true) := by
  and_intros <;> decide +kernel
/-- The causes of State.access: each check fails at some address of these states. -/
def stopsWith (s : State) (c : Ctx) (k : Acc) (va : Word) (al : Nat) (cause sub : BitVec 8) : Bool :=
  match s.access c k false va al 0 with | .error x => decide (x.cause = cause ∧ x.sub = sub) | .ok _ => false
/-- The first gigabyte under leaf `pte`, in the TLB of die 0. -/
def leafed (pte : Nat) (b : Nat) : State := { mapped with tlb := [⟨dieTlb 0, 0, 0, 30, b, BitVec.ofNat 64 pte⟩] }
theorem wit_VectorIssueTraps_access :
    stopsWith mapped mapped.ctx .load 1 8 0x03 0 = true ∧ stopsWith mapped mapped.ctx .load 0x200000000000000 8 0x07 0 = true ∧
    (let s := walks; s.cached s.ctx.tlb s.ctx 0x1000 = none ∧ s.cached (dieTlb (dieOf s.ctx.core)) s.ctx 0x1000 = none ∧
      (match s.walk s.ctx.ptbase 0x1000 with | .ok w => decide (w = ⟨0, 30, 0x3D⟩) | .error _ => false) = true) ∧
    (let s : State := { walks with mem := [] }; (match s.walk 0x8000 0 with | .error .invalid => true | _ => false) = true ∧
      (match s.walk vspBase 0 with | .error .malformed => true | _ => false) = true) ∧
    stopsWith mapped mapped.ctx .load 0x40000000 8 0x04 0 = true ∧ stopsWith mapped mapped.ctx .store 0x40000000 8 0x05 0 = true ∧
    stopsWith (leafed 0x31 0) mapped.ctx .load 0x2000 8 0x07 0 = true ∧ stopsWith (leafed 0x3D ctlBase) mapped.ctx .load 0x2000 8 0x07 0 = true ∧
    stopsWith { mapped with keys := [] } mapped.ctx .load 0x2000 8 0x14 0 = true ∧
    stopsWith { lattice with mem := [] } lattice.ctx .load 0 4 0x0B 1 = true ∧
    stopsWith { lattice with tlb := [⟨dieTlb 0, 0, 0, 30, 0, 0xBD⟩] } lattice.ctx .load 0x1000 4 0x0B 2 = true ∧
    stopsWith { mapped with fleet := { mapped.fleet with deadDies := [0] } } mapped.ctx .store 0x2000 8 0x07 0 = true ∧
    (let e := 0xBD; let va := 0; paKind 0x8000 = .hbm ∧ e % 4 = 1 ∧ leafOk e 2 0 = true ∧ leafOk 0x83D 2 0 = false ∧ 0x9003 % 4 = 3 ∧
      walks.rawNat (0x8000 + 8 * bitsOf va 48 9) 8 = 0x9003 ∧ walks.groupXlat 4 0 0x8000 = none) := by
  and_intros <;> decide +kernel
/-- A part of a copy, an event that is none, a waiting seat, a stopped device with an empty schedule; a chain of three halves. -/
theorem wit_StepRunsDecodedInstruction_turns :
    (Instr.addi 5 6 (-3)).isEvent = false ∧ (Instr.gceilRaise 0).isEvent = true ∧ mapped.stopped = false ∧
    (let s := code [0x80424880, 0xF8000103, 0x80428881, 0xF8000103, 0x80428881]; badPair s = true ∧ wordIs s 12 0xF8000103 = true ∧
      wordIs s 16 0x80428881 = true) ∧
    (let u := evWait true; u.stopDone u.cur = false ∧ (u.waitEvent u.cur (.event false)).isSome = true) ∧
    (let u := base.withTh { base.th with run := .halted }; u.stopDone u.cur = false ∧ u.th.run = .halted) ∧
    (let u := base.withTh { base.th with stopping := some (0, false), run := .running }; u.th.stopping.isSome = true) := by
  and_intros <;> decide +kernel

/-! ## Clauses on what is served first, on the units that fail, and on what runs ahead -/

/-- Unmapped addresses at 1 GiB, of a seat with two INT32 elements. -/
def unmapped : State := regs [(1, 0x40000000), (2, 8)] (vec i32 2 [(1, [1, 0]), (2, [5, 6])])
/-- The same elements at 0x2000, whose line shows poison. -/
def sick : State := { ld with lines := [(0, ⟨some 0, false⟩)] }
def failsAt (s : State) (k : Acc) (va : Word) (n e : Nat) : Bool := !(s.access s.vctx k false va n e).toOption.isSome
theorem failsAt_err {s : State} {k : Acc} {va : Word} {n e : Nat} (h : failsAt s k va n e = true) :
    ∃ x, s.access s.vctx k false va n e = .error x := by
  unfold failsAt at h
  cases hx : s.access s.vctx k false va n e with
  | ok l => simp [hx, Except.toOption] at h
  | error x => exact ⟨x, rfl⟩
/-- Loads and atomics whose translations and lines are read first; poison there, a misaligned atomic. -/
theorem wit_ScalarLoads_served :
    (let u := (base.walked base.ctx [0x2008]).loadLine ⟨0x2008, none, false⟩ false;
      givesIn u.ctx u .load 0x2008 8 0 ⟨0x2008, none, false⟩ = true ∧ u.poisoned u.th.owner ⟨0x2008, none, false⟩ = false) ∧
    (let t := out (.stD 2 1 false 0) base; let w := (t.walked t.ctx [0x2000]).loadLine ⟨0x2000, none, false⟩ false;
      givesIn w.ctx w .load 0x2000 8 0 ⟨0x2000, none, false⟩ = true ∧ w.poisoned w.th.owner ⟨0x2000, none, false⟩ = false) ∧
    (let u := (poisonedLine.walked poisonedLine.ctx [0x2000]).loadLine ⟨0x2000, none, false⟩ false;
      givesIn u.ctx u .load 0x2000 8 0 ⟨0x2000, none, false⟩ = true ∧ u.poisoned u.th.owner ⟨0x2000, none, false⟩ = true) ∧
    (let u := base.drain.atomicServe base.ctx 8 [base.th.x 1];
      givesIn u.ctx u .atomic 0x2000 8 0 ⟨0x2000, none, false⟩ = true ∧ u.poisoned u.th.owner ⟨0x2000, none, false⟩ = false ∧
      u.remoteOf (u.th.x 1) = none) ∧
    (let u := poisonedLine.drain.atomicServe poisonedLine.ctx 8 [poisonedLine.th.x 1];
      givesIn u.ctx u .atomic 0x2000 8 0 ⟨0x2000, none, false⟩ = true ∧ u.poisoned u.th.owner ⟨0x2000, none, false⟩ = true) ∧
    (let u := (lattice.walked lattice.ctx [0]).drain; givesIn u.ctx u .store 0 4 0 ⟨0x10000, some joinRegion, false⟩ = true) ∧
    (0x2001 : Word).toNat % 8 ≠ 0 := by
  and_intros <;> decide +kernel
/-- Field 1 of the first record of vlseg fails, and poison at a field; the line of vldsl shows poison. -/
theorem wit_VectorLoads_fields :
    (let s := regs [(1, 0x3FFFFFFE)] edge; let u := s.serveAt s.vctx [0x3FFFFFFE, 0x40000000, 0x40000002, 0x40000004];
      VectorReady s um true [3, 4] (segMatches .h s.th.vt && portClear s.th.vt) ∧ s.remoteOf 0x40000000 = none ∧
      (∃ x, ReadFails u 0x40000000 2 0 x) ∧ Reads u [0] 2 (fun _ => [0x3FFFFFFE]) (fun _ _ => ⟨0x3FFFFFFE, none, false⟩)) ∧
    (let u := sick.serveAt sick.vctx [0x2000, 0x2004];
      gives u .load 0x2000 4 0 ⟨0x2000, none, false⟩ = true ∧ u.poisoned u.th.owner ⟨0x2000, none, false⟩ = true) ∧
    (let s := { sp8 with lines := [(0, ⟨some 0, false⟩)] }; let u := s.serveAt s.vctx [0x2000];
      VectorReady s um true [3] (sparseOk .p24b s.th.vt && portClear s.th.vt) ∧
      gives u .load (s.th.x 1 + BitVec.ofNat 64 (128 * 0)) 128 0 ⟨0x2000, none, false⟩ = true ∧ u.poisoned u.th.owner ⟨0x2000, none, false⟩ = true) := by
  refine ⟨⟨?_, ?_, ?_, reads_of ?_⟩, ?_, ?_⟩
  case refine_3 => obtain ⟨x, h⟩ := failsAt_err (s := (regs [(1, 0x3FFFFFFE)] edge).serveAt (regs [(1, 0x3FFFFFFE)] edge).vctx
      [0x3FFFFFFE, 0x40000000, 0x40000002, 0x40000004]) (k := .load) (va := 0x40000000) (n := 2) (e := 0) (by decide +kernel); exact ⟨x, .inl h⟩
  all_goals first | decide +kernel | (unfold VectorReady; decide +kernel)
/-- INT64 elements whose indexes reach device 1, then this device. -/
def mixedBack : State := { regs [(1, 0)] (vec 3 2 [(1, [0x40000000000400, 0x400]), (2, [5, 6])]) with
  routes := [(1, 0x8000000000000000)], keys := [0] }
/-- The first units on device 1, the next on this one; a first unit that is misaligned, of no member, of an owner without a key. -/
theorem wit_VectorLoads_split :
    (let s := mixedBack; let at_ (k : Nat) : Word := s.th.x 1 + BitVec.ofNat 64 (s.th.elem 1 64 k * 8)
      VectorReady s um true [3, 1] (widMatches .d s.th.vt && portClear s.th.vt) ∧ s.actives um 0 2 = [0] ++ [1] ∧ s.member 1 = true ∧
      s.keys.contains s.th.owner = true ∧ s.myRemotes = [] ∧ s.remoteOf (at_ 0) = some 1 ∧ (at_ 0).toNat % 8 = 0 ∧ s.remoteOf (at_ 1) = none) ∧
    (let s := { mixedBack with remotes := [reply true 1 none [⟨0, 3, 7⟩]] }; s.myRemotes = [reply true 1 none [⟨0, 3, 7⟩]]) ∧
    (let s := regs [(1, 0x200000000002001)] paired; s.remoteOf (s.th.x 1) = some 1 ∧ (s.th.x 1).toNat % 4 ≠ 0 ∧ s.actives um 0 2 = [0, 1]) ∧
    ({ paired with routes := [] } : State).member 1 = false ∧ ({ paired with keys := [] } : State).keys.contains 0 = false := by
  unfold VectorReady; decide +kernel
/-- Two units on device 1, of which `.ord` sends one at a time. -/
theorem wit_VectorStores_ordered : (let s := paired; s.actives um 0 2 = [0, 1] ++ [] ∧ ([0, 1] : List Nat).take 1 = [0] ∧ ([0, 1] : List Nat).drop 1 = [1] ∧
      s.myRemotes = []) ∧
    (let s := mixedBack; VectorReady s um true [2, 1] (widMatches .d s.th.vt && portClear s.th.vt) ∧ s.actives um 0 2 = [0] ++ [1] ∧
      ([0] : List Nat).drop 1 = []) := by
  unfold VectorReady; decide +kernel
/-- vstp at an unmapped address and in a lattice region; the second slot of vstc unmapped. -/
theorem wit_SparseAndCompactStores_fail :
    (let s := regs [(1, 0x40000000), (4, 128)] sp8; let u := s.drain.reach s.vctx 128 [0x40000000];
      VectorReady s um true [2] (sparseOk .p24b s.th.vt && decide (s.th.vstart % (sparseOf .p24b).dense = 0) && portClear s.th.vt) ∧
      failsAt u .store (s.th.x 1 + BitVec.ofNat 64 (128 * 0)) 128 0 = true) ∧
    (let s := regs [(1, 0), (4, 128)] (vec 48 4 [(2, [0x38])] lattice); let u := s.drain.reach s.vctx 128 [0];
      VectorReady s um true [2] (sparseOk .p24b s.th.vt && decide (s.th.vstart % (sparseOf .p24b).dense = 0) && portClear s.th.vt) ∧
      gives u .store 0 128 0 ⟨0x10000, some joinRegion, false⟩ = true ∧ joinRegion.width ≠ 128) ∧
    (let s := regs [(1, 0x3FFFFFFC), (2, 8)] edge; let us : List StoreUnit := [(0, [(0x3FFFFFFC, 0x3FFFFFFC, 5)])];
      let start := storeStart s 4 [(0, [(0x3FFFFFFC, 5)]), (1, [(0x40000000, 6)])];
      VectorReady s um true [2] (widMatches .w s.th.vt && decide (vtFmt s.th.vt ≤ 7) && portClear s.th.vt) ∧
      Nat.min (s.actives um 0 s.th.vlc).length ((s.th.x 2).toNat / 4) = 2 ∧ inTurnTest (putUnit 4) (unitTest 4) start us = true ∧
      (match (us.foldl (putUnit 4) start).checkFields 4 1 [(0x40000000, 6)] with | .ok _ => false | .error _ => true) = true) := by
  unfold VectorReady; decide +kernel
/-- The first unit of vamo in a lattice region, poisoned, unmapped, on another device; of vstj outside a region, of another width, unmapped. -/
theorem wit_VectorAtomics_fail :
    (let u := lattice.drain.atomicServe lattice.drain.vctx 4 [4, 0]; VectorReady lattice um true [2, 1] (decide (vtFmt lattice.th.vt ≤ 1) &&
        decide (lattice.th.ew = 32) && portClear lattice.th.vt) ∧ gives u .atomic 4 4 0 ⟨0x10004, some joinRegion, false⟩ = true ∧ u.remoteOf 4 = none) ∧
    (let u := sick.drain.atomicServe sick.drain.vctx 4 [0x2004, 0x2000]; gives u .atomic 0x2004 4 0 ⟨0x2004, none, false⟩ = true ∧
      u.poisoned u.th.owner ⟨0x2004, none, false⟩ = true) ∧
    (let u := unmapped.drain.atomicServe unmapped.drain.vctx 4 [0x40000004, 0x40000000]; u.remoteOf 0x40000004 = none ∧
      failsAt u .atomic 0x40000004 4 0 = true) ∧
    (let u := paired.drain.atomicServe paired.drain.vctx 4 [0x200000000002004, 0x200000000002000];
      (u.remoteOf 0x200000000002004).isSome = true ∧ (0x200000000002004 : Word).toNat % 4 = 0) ∧
    (let u := storeStart ld 4 [(0, [(0x2000, 5)]), (1, [(0x2004, 6)])]; VectorReady ld um true [2] (widMatches .w ld.th.vt && portClear ld.th.vt) ∧
      gives u .store 0x2000 4 0 ⟨0x2000, none, false⟩ = true ∧ ld.remoteOf 0x2000 = none) ∧
    (let s := regs [(1, 0)] (vec 1 1 [(2, [5])] lattice); VectorReady s um true [2] (widMatches .h s.th.vt && portClear s.th.vt) ∧
      gives (storeStart s 2 [(0, [(0, 5)])]) .store 0 2 0 ⟨0x10000, some joinRegion, false⟩ = true ∧
      ¬ (joinRegion.width = 2 ∨ (joinRegion.typ = 5 ∧ 16 ≤ joinRegion.width ∧ s.th.ew = 64))) ∧
    failsAt (storeStart unmapped 4 [(0, [(0x40000000, 5)]), (1, [(0x40000004, 6)])]) .store 0x40000000 4 0 = true := by
  unfold VectorReady; decide +kernel
/-- The places of a unit of vstxr on this device. -/
def placeTest (c : Ctx) (n : Nat) (va : Nat → Word) (loc : Nat → Loc) (s : State) (k : Nat) : Bool :=
  givesIn c (s.walkAt c (va k).toNat) .store (va k) n k (loc k) &&
    (match (loc k).region with | none => true | some r => decide (r.width = n ∨ (r.typ = 5 ∧ 16 ≤ r.width ∧ n = 8)))
theorem placeTest_ok {c : Ctx} {n : Nat} {va : Nat → Word} {loc : Nat → Loc} {s : State} {k : Nat} (h : placeTest c n va loc s k = true) :
    placeOk c n va loc s k := by
  simp only [placeTest, Bool.and_eq_true] at h
  refine ⟨?_, fun r hr => ?_⟩
  · have h1 := h.1
    unfold givesIn at h1
    split at h1
    · next m hm => rw [hm, of_decide_eq_true h1]
    · cases h1
  · have h2 := h.2
    rw [hr] at h2
    exact of_decide_eq_true h2
/-- vstxr on this device, in ordinary memory and in a lattice region; answered; a misaligned unit; no member; no key. -/
theorem wit_Vstxr_places :
    (let s := ld; let d := s.drain.dropRemotes; let idx (k : Nat) : Word := s.th.x 1 + BitVec.ofNat 64 (s.th.elem 1 32 k * 4)
      let v (k : Nat) : Nat := s.th.elem 2 32 k; let loc (k : Nat) : Loc := ⟨0x2004 - 4 * k, none, false⟩
      InTurn (placeUnit d.vctx 4 idx v loc) (placeOk d.vctx 4 idx loc) (d.slotWhole (d.unitsWrite 4 ([0, 1].map (fun k => (k, [(idx k, v k)]))))) [0, 1]) ∧
    (let s := lattice; let d := s.drain.dropRemotes; let idx (k : Nat) : Word := s.th.x 1 + BitVec.ofNat 64 (s.th.elem 1 32 k * 4)
      let v (k : Nat) : Nat := s.th.elem 2 32 k; let loc (k : Nat) : Loc := ⟨0x10004 - 4 * k, some joinRegion, false⟩
      VectorReady s um true [2, 1] (widMatches .w s.th.vt && decide (s.th.vstart = 0) && portClear s.th.vt) ∧
      InTurn (placeUnit d.vctx 4 idx v loc) (placeOk d.vctx 4 idx loc) (d.slotWhole (d.unitsWrite 4 ([0, 1].map (fun k => (k, [(idx k, v k)]))))) [0, 1]) ∧
    (let s := { mixed with remotes := [reply false 1 none []] }; let d := s.dropRemotes
      let idx (k : Nat) : Word := s.th.x 1 + BitVec.ofNat 64 (s.th.elem 1 64 k * 8)
      let v (k : Nat) : Nat := s.th.elem 2 64 k; let loc (_ : Nat) : Loc := ⟨0x2000, none, false⟩
      InTurn (placeUnit d.vctx 8 idx v loc) (placeOk d.vctx 8 idx loc) (d.slotWhole (d.unitsWrite 8 [(0, [(idx 0, v 0)])])) [0]) ∧
    (let s := regs [(1, 0x2001)] ld; s.myRemotes = [] ∧ (s.th.x 1 + BitVec.ofNat 64 (s.th.elem 1 32 0 * 4)).toNat % 4 ≠ 0) := by
  refine ⟨inTurn_of (fun _ _ => placeTest_ok) _ _ ?_, ⟨?_, inTurn_of (fun _ _ => placeTest_ok) _ _ ?_⟩,
    inTurn_of (fun _ _ => placeTest_ok) _ _ ?_, ?_⟩
  all_goals first | decide +kernel | (unfold VectorReady; decide +kernel)
/-- The addresses of the pieces of a tile of INT4 at register 1. -/
def tilePaths (s : State) : List Word :=
  (List.range 256).flatMap (fun k => (List.range 4).map (fun m => s.th.x 1 + BitVec.ofNat 64 k * 256 + BitVec.ofNat 64 (64 * m)))
/-- tld whose first piece is unmapped, misaligned on another device, on none, of an owner without a key; answered, and not. -/
theorem wit_TileInstructions_fail :
    failsAt (unmapped.drain.reach unmapped.vctx 64 (tilePaths unmapped)) .load 0x40000000 64 0 = true ∧ unmapped.myRemotes = [] ∧
    unmapped.remoteOf 0x40000000 = none ∧ (let s := regs [(1, 0x200000000002001)] paired; s.remoteOf (s.th.x 1) = some 1 ∧ (s.th.x 1).toNat % 64 ≠ 0) ∧
    (let s : State := { paired with remotes := [reply true 8192 none []] }; s.myRemotes ≠ [] ∧
      let u := s.drain.reach s.vctx 64 (tilePaths s); let ps := u.tilePieces ((⟨512, 256, 4⟩ : TileShape).pieces (s.th.x 1) 256)
      ps.2.isNone = true ∧ u.tileFailure ps.1 = none) ∧
    (let s : State := { paired with remotes := [reply true 8192 (some (0, 5)) []] };
      let u := s.drain.reach s.vctx 64 (tilePaths s); let ps := u.tilePieces ((⟨512, 256, 4⟩ : TileShape).pieces (s.th.x 1) 256)
      ps.2.isNone = true ∧ (u.tileFailure ps.1).isSome = true) := by
  and_intros <;> decide +kernel
/-- The slot's entry and an image with their lines served; an image that cannot be read; a run of the image that is dropped. -/
theorem wit_FabricSlots_served : (let q := fabric.slotServe 3; q.slotEntry 3 = 2 ^ 63 + 1) ∧
    (let u := fabric.areaServe 0x2000 1; let w := u.areaServe 0x2040 1; match u.areaRead 0x2000 1, w.areaRead 0x2040 1 with
     | .ok hb, .ok bs => (match headerOf (wordsOf hb), imageOf (wordsOf (hb ++ bs)) with
       | .ok h, .ok g => decide (h.length = 128) && decide (g = addFive) | _, _ => false)
     | _, _ => false) = true ∧
    (let f := fabricOf (addFiveWords.set 0 0); match (f.areaServe 0x2000 1).areaRead 0x2000 1 with
     | .ok hb => (match headerOf (wordsOf hb) with | .error e => decide (e.off = 0) | .ok _ => false) | .error _ => false) = true ∧
    (match (unmapped.areaServe 0x40000000 1).areaRead 0x40000000 1 with | .ok _ => false | .error _ => true) = true ∧
    (let f := regs [(1, 0x3FFFFFC0)] (withLines [0, 0x7FFFFF] { fabric with
        mem := (((addFiveWords.take 8).flatMap (natLe 8)).zipIdx.map (fun e => (0x3FFFFFC0 + e.2, e.1))).filter (fun e => e.2 ≠ 0) });
      let u := f.areaServe 0x3FFFFFC0 1; match u.areaRead 0x3FFFFFC0 1, (u.areaServe 0x40000000 1).areaRead 0x40000000 1 with
      | .ok hb, .error _ => (match headerOf (wordsOf hb) with | .ok _ => true | .error _ => false) | _, _ => false) = true ∧
    (∃ r, (started addFive).th.fx = some r ∧ r.cid = 1) := by
  refine ⟨?_, ?_, ?_, ?_, ?_, ?_⟩
  case refine_6 => obtain ⟨r, h⟩ := some_of (r := (started addFive).th.fx) (by decide +kernel)
                   exact ⟨r, h, by have : ((started addFive).th.fx.map FxRun.cid) = some 1 := by decide +kernel
                                   simpa [h] using this⟩
  all_goals decide +kernel
/-- The executing seat out of the Sideboard, its slot's entry served: an active configuration placed with an entry, without one, without a place. -/
theorem wit_FabricShadow_served : (let v := (fabric.setCore 0 { fabric.core 0 with fxq := [] }).slotServe 3;
      v.slotEntry 3 = 2 ^ 63 + 1 ∧ (v.place 7 1 1).2 = some 0 ∧ (v.place 7 1 1).1.hasEntry 0 0 = true) ∧
    (let v := ((placed (armed 4)).setCore 0 { (placed (armed 4)).core 0 with fxq := [] }).slotServe 3; (v.place 7 1 1).2 = some 2 ∧
      v.hasEntry 0 2 = false) ∧ (let v := ((armed 4).setCore 0 { (armed 4).core 0 with fxq := [] }).slotServe 3; (v.place 7 1 1).2 = none) ∧
    bitsOf ((fabric.slotServe 2).slotEntry 2) 63 1 = 0 := by
  and_intros <;> decide +kernel
/-- Cells on a line that shows poison. -/
def sickCells : State := { lattice with lines := [(0, ⟨some 0, false⟩)] }
theorem wit_LatticeInstructions_served :
    (let u := lattice.reach lattice.ctx 4 [0]; givesIn u.ctx u .store 0 4 0 ⟨0x10000, some joinRegion, false⟩ = true ∧
      givesIn u.ctx u .load 0 4 0 ⟨0x10000, some joinRegion, false⟩ = true ∧ (let w := u.serveAt u.ctx [0, 4];
        givesIn w.ctx w .load 0 4 0 ⟨0x10000, some joinRegion, false⟩ = true ∧ givesIn w.ctx w .load 4 4 0 ⟨0x10004, some joinRegion, false⟩ = true ∧
        w.poisoned w.th.owner ⟨0x10000, some joinRegion, false⟩ = false ∧ w.poisoned w.th.owner ⟨0x10004, some joinRegion, false⟩ = false)) ∧
    (let w := (sickCells.reach sickCells.ctx 4 [0]).serveAt sickCells.ctx [0]; givesIn w.ctx w .load 0 4 0 ⟨0x10000, some joinRegion, false⟩ = true ∧
      w.poisoned w.th.owner ⟨0x10000, some joinRegion, false⟩ = true) ∧
    (let u := unmapped.reach unmapped.ctx 4 [0x40000000]; failsAt u .load 0x40000000 4 0 = true ∧ failsAt u .store 0x40000000 4 0 = true) ∧
    (let u := base.reach base.ctx 4 [0x2000]; givesIn u.ctx u .load 0x2000 4 0 ⟨0x2000, none, false⟩ = true ∧
      givesIn u.ctx u .store 0x2000 4 0 ⟨0x2000, none, false⟩ = true) ∧
    (let v := lattice.walked lattice.ctx [0]; givesIn v.ctx v .load 0 1 0 ⟨0x10000, some joinRegion, false⟩ = true) ∧
    (let v := base.walked base.ctx [0x2000]; givesIn v.ctx v .load 0x2000 1 0 ⟨0x2000, none, false⟩ = true) ∧
    failsAt (unmapped.walked unmapped.ctx [0x40000000]) .load 0x40000000 1 0 = true := by
  and_intros <;> decide +kernel
theorem wit_LaunchAndExit_served : (match (unmapped.areaServe 0x40000000 1).areaRead 0x40000000 1 with | .ok _ => false | .error _ => true) = true ∧
    (match (recorded.areaServe 0x2000 1).areaRead 0x2000 1 with
     | .ok bs => let word (k : Nat) : Word := BitVec.ofNat 64 (leNat ((bs.drop (8 * k)).take 8)); (recOf word).valid 0 | .error _ => false) = true := by
  and_intros <;> decide +kernel
/-- Lines fetched for the instruction L1: one its slice holds, one that has left it, one of no owner; a node's store; short seats that none can serve. -/
theorem wit_CoreEvents_more : (0, 64) ∈ ({ base with fetches := [(0, 64)] } : State).fetches ∧ base.inSlice 64 = true ∧ base.tagOf 64 = some 0 ∧
    (paKind (128 * 65) = .hbm ∧ base.inSlice 65 = false) ∧ (0, 64) ∉ base.fetches ∧
    (let s := base.withTh { base.th with lsq := [⟨0x2000, [1], 0, false, true⟩] }; ∃ p, (s.seat 7).lsq[0]? = some p ∧ p.rel = false ∧ p.node = true) ∧
    (let s := (short (.lanes 2)).setSeat 4 ((base.seat 4).set .grant (grantWord [0, 1, 2, 3, 4, 5, 6, 7])); s.nextShort 0 = none ∧
      (s.core 0).shortQ = [(3, 0)] ∧ (s.seat 3).run = .waiting (.lanes 2)) ∧
    (let x := walks.th.ctx 0; let v := walks.walkAt { x with tlb := dieTlb 0 } 0x1234; (∀ e ∈ walks.tlb, e.hit (dieTlb 0) x 0x1234 = false) ∧
      (match v.walk x.ptbase 0x1234 with | .ok w => decide (w = ⟨0, 30, 0x3D⟩) | .error _ => false) = true) ∧
    (let x := latticeWalks.th.ctx 0; let v := latticeWalks.walkAt { x with tlb := dieTlb 0 } 0x1234;
      (match v.walk x.ptbase 0x1234 with | .ok w => decide (w = ⟨0, 30, 0xBD⟩) | .error _ => false) = true) ∧
    (let s : State := { walks with mem := [] }; let x := s.th.ctx 0; let v := s.walkAt { x with tlb := dieTlb 0 } 0x1234;
      (match v.walk x.ptbase 0x1234 with | .ok _ => false | .error _ => true) = true) := by
  and_intros <;> first | decide +kernel | exact ⟨_, rfl, rfl, rfl⟩
/-- A slot with SH and an armed shadow of image 2. -/
def shadowed : State := { (armed 1).setCore 0 { (armed 1).core 0 with ctx := [⟨0, 1, some (0x4000, 3), 2, false⟩] } with
  mem := fabric.mem.filter (fun e => e.1 < 0x4018) ++ [(0x4018, 1), (0x401C, 2), (0x401F, 0xC0)] }
theorem wit_FabricEvents_carries : (let e := shadowed.slotEntry 3; bitsOf e 63 1 = 1 ∧ bitsOf e 62 1 = 1 ∧ bitsOf e 32 12 = 2) ∧
    (∃ y ∈ (shadowed.core 0).ctx, y.shadow = some (0x4000, 3)) ∧ bitsOf (fabric.slotEntry 3) 62 1 = 0 ∧
    (let s := out (.fx 3 1 3) fabric; (s.core 0).fxq.find? (fun n => (s.startable n).isSome || s.looking n) = some 7) ∧
    (∀ m ∈ (nodeRun 0x01 0 0 [7]).img.nodes, m.expanding = false) := by
  refine ⟨by decide +kernel, ⟨⟨0, 1, some (0x4000, 3), 2, false⟩, by decide +kernel, rfl⟩, by decide +kernel, by decide +kernel,
    by decide +kernel⟩
/-- A copy whose destination's translation is read once its source is; one from device 1 under an owner without a key. -/
noncomputable def copyFrom : State := out (.acopy 3 1 2 4) { copying with
  th := copying.th.setX 2 0x200000000003000, routes := [(1, 0x8000000000000000)] }
theorem wit_CopySyncSettleEvents_keys :
    (let s := copied; let c := theCopy s; let u := s.serveCopy c (c.pieces 1); let v := u.walked c.ctx [c.dst];
      givesIn c.ctx u .load c.src 1 0 ⟨0x2000, none, false⟩ = true ∧ u.poisoned c.owner ⟨0x2000, none, false⟩ = false ∧
      givesIn c.ctx v .store c.dst 1 0 ⟨0x3000, none, false⟩ = true) ∧
    (let s : State := { copyFrom with keys := [] }; findsCopy s 7 1 = true ∧ s.remoteOf (theCopy s).dst = none ∧ s.remoteOf (theCopy s).src = some 1 ∧
      (theCopy s).tag = none ∧ s.keys.contains (theCopy s).owner = false) := by
  and_intros <;> decide +kernel
theorem wit_LaunchEvents_keys : ({ base with keys := [] } : State).keys.contains (groupWith oneTask).owner = false ∧
    (let s := queued { oneTask with ctrl := 1 + 2 * 2 ^ 24 } none []; let r : LaunchRec := { oneTask with ctrl := 1 + 2 * 2 ^ 24 };
      r.gate = 2 ∧ (s.queue 0).recs = [(0, r)]) := by
  and_intros <;> decide +kernel
/-- A victim of a gang, all of which lies below; an instruction in hand under a stop. -/
def gangFull : State := { full.setSeat 5 { full.seat 5 with grp := some (1, 0), gang := true } with
  saved := full.saved ++ [⟨8, 4, { task with grp := some (1, 0), gang := true }, true, true, 0, 0⟩] }
theorem wit_FaultEvents_gang : (gangFull.starved 0 0) = some 1 ∧ (gangFull.seat 5).gang = true ∧ (gangFull.seat 5).prio < 1 ∧ 5 ∈ gangFull.allSeats ∧
    (∀ m ∈ gangFull.allSeats, (gangFull.seat m).grp = (gangFull.seat 5).grp → (gangFull.seat m).prio < 1) ∧
    (∀ x ∈ gangFull.saved, x.th.grp = (gangFull.seat 5).grp → x.th.prio < 1) ∧
    (let s := seated { task with stopping := some (0, false), finishing := some task.pc }; (s.seat 0).stopping.isSome = true ∧
      (s.seat 0).finishing = some (s.seat 0).pc) := by
  and_intros <;> decide +kernel
/-- What a request's translation takes is read; an address without one; a page that may not be stored to. -/
theorem wit_LinkEvents_walks :
    (∀ k < 6, let c : Ctx := ⟨32 * k, dieTlb k, 0, 0, 0x8000, 0, false⟩; let w := linked.reach c 4 [0x2000];
      givesIn c w .store 0x2000 4 0 ⟨0x2000, none, false⟩ = true ∧ givesIn c w .load 0x2000 4 0 ⟨0x2000, none, false⟩ = true ∧ 0 ∈ w.keys) ∧
    (∀ k < 6, let c : Ctx := ⟨32 * k, dieTlb k, 0, 0, 0x8000, 0, false⟩;
      (match linked.translate c .store 0x40000000 with | .error _ => true | .ok _ => false) = true ∧
      (match linked.access c .store false 0x40000000 4 0, linked.access c .load false 0x40000000 4 0 with | .error _, .error _ => true | _, _ => false) = true) ∧
    (∀ k < 6, let c : Ctx := ⟨32 * k, dieTlb k, 0, 0, 0x8000, 0, false⟩;
      let s : State := { linked with mem := [(0x8000, 3), (0x8001, 0x90), (0x9000, 3), (0x9001, 0xA0), (0xA000, 0x35)] };
      (match s.translate c .store 0x2000 with | .error _ => false | .ok _ => true) = true ∧
      (match s.access c .store false 0x2000 4 0 with | .error _ => true | .ok _ => false) = true) := by
  and_intros <;> decide +kernel
/-- A thread that waits at an await, the addi behind it, and the thread when it has run ahead. -/
def awaits : State := (code [0x0851BFFD, 0x0851BFFD]).withTh { (code [0x0851BFFD, 0x0851BFFD]).th with run := .waiting (.copy 1) }
def ahead1 : Ahead := ⟨0x2004, 0x2008, mapped.th.s, mapped.th.f, some 3, 0, 1, []⟩
theorem wit_StepRunsDecodedInstruction_ahead :
    (let u := (awaits.onAhead { awaits.th.aheadStart (.await 3 1) with dst := none }).fetchLines;
      fetches u (.addi 5 6 (-3)) = true ∧ u.mustWait (.addi 5 6 (-3)) = false ∧ u.mayPass (.copy 1) (.addi 5 6 (-3)) = true ∧
      (((encode (.addi 5 6 (-3))).getLast?).bind u.scalarSpan).isNone = true ∧
      (let v := out (.addi 5 6 (-3)) (u.issue (.addi 5 6 (-3))); ranAhead (.addi 5 6 (-3)) u v = true ∧ v.th.lsq = u.th.lsq)) ∧
    (awaits.th.aheadStart .waitY).dst = none ∧
    (let s := mapped.withTh { mapped.th with ahead := some ahead1, pc := 0x2004, run := .running }; s.th.ahead = some ahead1 ∧ s.th.pc = ahead1.start) ∧
    (let s := (code [0x0851BFFD]).tick; let m := s.mergeSeat s.cur; m.th.run = .running ∧ m.stopDone m.cur = false ∧ m.issueHeld = false ∧
      fetches m.fetchLines (.addi 5 6 (-3)) = true ∧ m.fetchLines.mustWait (.addi 5 6 (-3)) = false) ∧
    (∃ e ∈ (base.withTh { base.th with vq := [entry .lane 2 0 false] }).th.vq, e.held = false) ∧
    refuses (code [0xFFFFFFFF]).fetchLines 0x00 = true ∧ badPair (code [0x80424800, 0xF8000103, 0x80428881]).fetchLines = true := by
  refine ⟨?_, ?_, ?_, ?_, ⟨entry .lane 2 0 false, ?_, rfl⟩, ?_, ?_⟩
  all_goals first | decide +kernel | (and_intros <;> decide +kernel)
/-- Grants under tails dead: the same octets, and others. -/
theorem wit_VectorConfiguration_dead : (let s := regs [(2, 0x202), (1, 4)] (vec i32 2 [(1, [7, 8])]); vtTd (s.th.x 2) = true ∧ vtypeLegal (s.th.x 2) = true ∧
      s.th.octets = s.th.octetList.length ∧ (s.beginSetvl s.cur (Nat.min 1 (s.ceiling s.cur))).benchGrant s.cur 1 (s.ceiling s.cur) = some [0] ∧
      s.th.octetList = [0] ∧ s.th.vvalid.getLsbD 1 = true) ∧
    (let s := csrs [(.gceil, 8)] (regs [(2, 0x202), (1, 4)] (vec i32 2 [(1, [7, 8])]));
      (s.beginSetvl s.cur (Nat.min 2 (s.ceiling s.cur))).benchGrant s.cur 2 (s.ceiling s.cur) = some [0, 1]) := by
  and_intros <;> decide +kernel

end Sys2Proof.Tests
end

section
/-! SUPPORT. The entry to the supervisor handler (spec/01_state.md R42): what each control register reads after it, what
it leaves, and that it is the thread `takeTrap` gives for every trap that no user handler takes. -/

namespace Sys2Proof.Machine

/-! ## The thread that enters the supervisor -/

section
variable (t : Thread) (x : Trap)

@[simp] theorem Thread.enterSuper_s : (t.enterSuper x).s = t.s := by
  simp only [Thread.enterSuper, Thread.set_s]
@[simp] theorem Thread.enterSuper_f : (t.enterSuper x).f = t.f := by
  simp only [Thread.enterSuper, Thread.set_f]
@[simp] theorem Thread.enterSuper_slices : (t.enterSuper x).slices = t.slices := by
  simp only [Thread.enterSuper, Thread.set_slices]
@[simp] theorem Thread.enterSuper_vvalid : (t.enterSuper x).vvalid = t.vvalid := by
  simp only [Thread.enterSuper, Thread.set_vvalid]
@[simp] theorem Thread.enterSuper_tb0 : (t.enterSuper x).tb0 = t.tb0 := by
  simp only [Thread.enterSuper, Thread.set_tb0]
@[simp] theorem Thread.enterSuper_tb1 : (t.enterSuper x).tb1 = t.tb1 := by
  simp only [Thread.enterSuper, Thread.set_tb1]
@[simp] theorem Thread.enterSuper_lsq : (t.enterSuper x).lsq = t.lsq := by
  simp only [Thread.enterSuper, Thread.set_lsq]
@[simp] theorem Thread.enterSuper_run : (t.enterSuper x).run = .running := by
  simp only [Thread.enterSuper]

theorem Thread.enterSuper_x (r : SReg) : (t.enterSuper x).x r = t.x r := by
  rw [Thread.x, Thread.enterSuper_s, Thread.x]

theorem Thread.enterSuper_fr (r : SReg) : (t.enterSuper x).fr r = t.fr r := by
  rw [Thread.fr, Thread.enterSuper_f, Thread.fr]

/-- The STATUS the entry writes: UACT as it was, PPRIV the old PRIV, PRIV 1 (R40, R42). -/
def Thread.superStatus : Word := (t.get .status &&& 4) ||| (if t.priv then 3 else 1)

/-- The thread with all that the entry writes to control registers but STATUS (R42). -/
def Thread.superSaves : Thread :=
  (((((t.set .epc (t.pc.setWidth 64)).set .ecause (x.cause.setWidth 64 ||| (x.sub.setWidth 64 <<< 8))).set .eval
    x.eval).set .eelem (BitVec.ofNat 64 (x.elem % 2 ^ 32))).set .evtype (t.get .vtype)).set .vtype 0

/-- Threads with one control register file read alike. -/
theorem Thread.get_congr {t u : Thread} (h : t.csr = u.csr) (c : Csr) : t.get c = u.get c := by
  unfold Thread.get
  rw [h]

/-- A write to another control register leaves STATUS.PRIV. -/
theorem Thread.priv_set_ne (t : Thread) (c : Csr) (v : Word) (h : .status ≠ c) : (t.set c v).priv = t.priv := by
  rw [Thread.priv, Thread.get_set_ne _ _ _ _ h, Thread.priv]

/-- The control registers after the entry are those of the six saves and then STATUS. -/
theorem Thread.enterSuper_get (c : Csr) :
    (t.enterSuper x).get c = ((t.superSaves x).set .status t.superStatus).get c := by
  apply Thread.get_congr
  simp only [Thread.enterSuper, Thread.superSaves, Thread.superStatus, Thread.priv_set_ne, Thread.get_set_ne, ne_eq,
    reduceCtorEq, not_false_eq_true]

theorem Thread.enterSuper_status : (t.enterSuper x).get .status = t.superStatus := by
  rw [Thread.enterSuper_get, Thread.get_set_self]

/-- A control register other than STATUS reads what the saves give it. -/
theorem Thread.enterSuper_get_of_ne (c : Csr) (h : c ≠ .status) :
    (t.enterSuper x).get c = (t.superSaves x).get c := by
  rw [Thread.enterSuper_get, Thread.get_set_ne _ _ _ _ h]

theorem Thread.enterSuper_epc : (t.enterSuper x).get .epc = t.pc.setWidth 64 := by
  rw [Thread.enterSuper_get_of_ne t x _ (by decide)]
  simp only [Thread.superSaves, Thread.get_set_ne, ne_eq, reduceCtorEq, not_false_eq_true, Thread.get_set_self]

theorem Thread.enterSuper_ecause : (t.enterSuper x).get .ecause =
    x.cause.setWidth 64 ||| (x.sub.setWidth 64 <<< 8) := by
  rw [Thread.enterSuper_get_of_ne t x _ (by decide)]
  simp only [Thread.superSaves, Thread.get_set_ne, ne_eq, reduceCtorEq, not_false_eq_true, Thread.get_set_self]

theorem Thread.enterSuper_eval : (t.enterSuper x).get .eval = x.eval := by
  rw [Thread.enterSuper_get_of_ne t x _ (by decide)]
  simp only [Thread.superSaves, Thread.get_set_ne, ne_eq, reduceCtorEq, not_false_eq_true, Thread.get_set_self]

theorem Thread.enterSuper_eelem : (t.enterSuper x).get .eelem = BitVec.ofNat 64 (x.elem % 2 ^ 32) := by
  rw [Thread.enterSuper_get_of_ne t x _ (by decide)]
  simp only [Thread.superSaves, Thread.get_set_ne, ne_eq, reduceCtorEq, not_false_eq_true, Thread.get_set_self]

theorem Thread.enterSuper_evtype : (t.enterSuper x).get .evtype = t.get .vtype := by
  rw [Thread.enterSuper_get_of_ne t x _ (by decide)]
  simp only [Thread.superSaves, Thread.get_set_ne, ne_eq, reduceCtorEq, not_false_eq_true, Thread.get_set_self]

theorem Thread.enterSuper_vtype : (t.enterSuper x).get .vtype = 0 := by
  rw [Thread.enterSuper_get_of_ne t x _ (by decide)]
  simp only [Thread.superSaves, Thread.get_set_self]

/-- Every control register but the seven written reads as before. -/
theorem Thread.enterSuper_get_of_notMem (c : Csr)
    (h : c ∉ [Csr.epc, .ecause, .eval, .eelem, .evtype, .vtype, .status]) : (t.enterSuper x).get c = t.get c := by
  simp only [List.mem_cons, List.not_mem_nil, or_false, not_or] at h
  obtain ⟨hepc, hecause, heval, heelem, hevtype, hvtype, hstatus⟩ := h
  rw [Thread.enterSuper_get_of_ne t x c hstatus, Thread.superSaves, Thread.get_set_ne _ _ _ _ hvtype,
    Thread.get_set_ne _ _ _ _ hevtype, Thread.get_set_ne _ _ _ _ heelem, Thread.get_set_ne _ _ _ _ heval,
    Thread.get_set_ne _ _ _ _ hecause, Thread.get_set_ne _ _ _ _ hepc]

/-- The thread goes on at EVEC. -/
theorem Thread.enterSuper_pc : (t.enterSuper x).pc = (t.get .evec).extractLsb' 0 57 := by
  simp only [Thread.enterSuper, Thread.get_set_ne, ne_eq, reduceCtorEq, not_false_eq_true]

theorem Thread.superStatus_bit0 : t.superStatus.getLsbD 0 = true := by
  rw [Thread.superStatus, BitVec.getLsbD_or, BitVec.getLsbD_and]
  cases t.priv with
  | false => exact Bool.or_true _
  | true => exact Bool.or_true _

theorem Thread.superStatus_bit1 : t.superStatus.getLsbD 1 = t.priv := by
  rw [Thread.superStatus, BitVec.getLsbD_or, BitVec.getLsbD_and]
  cases t.priv with
  | false => exact (Bool.or_false _).trans (Bool.and_false _)
  | true => exact Bool.or_true _

theorem Thread.superStatus_bit2 : t.superStatus.getLsbD 2 = t.uact := by
  rw [Thread.superStatus, BitVec.getLsbD_or, BitVec.getLsbD_and]
  cases t.priv with
  | false => exact (Bool.or_false _).trans (Bool.and_true _)
  | true => exact (Bool.or_false _).trans (Bool.and_true _)

theorem Thread.enterSuper_priv : (t.enterSuper x).priv = true := by
  rw [Thread.priv, Thread.enterSuper_status, Thread.superStatus_bit0]

theorem Thread.enterSuper_uact : (t.enterSuper x).uact = t.uact := by
  rw [Thread.uact, Thread.enterSuper_status, Thread.superStatus_bit2]

end

/-- A byte beside the next one is the sum the rules write: the cause and 256 times the sub-cause (R42). -/
theorem setWidth_or_shiftLeft_eight (a b : BitVec 8) :
    a.setWidth 64 ||| (b.setWidth 64 <<< 8) = BitVec.ofNat 64 (a.toNat + 256 * b.toNat) := by
  have hor : b.toNat <<< 8 + a.toNat = b.toNat <<< 8 ||| a.toNat := Nat.shiftLeft_add_eq_or_of_lt a.isLt b.toNat
  apply BitVec.eq_of_toNat_eq
  have := a.isLt
  have := b.isLt
  simp only [BitVec.toNat_or, BitVec.toNat_shiftLeft, BitVec.toNat_setWidth, BitVec.toNat_ofNat]
  rw [Nat.or_comm, Nat.mod_eq_of_lt (a := a.toNat) (by omega), Nat.mod_eq_of_lt (a := b.toNat) (by omega),
    Nat.mod_eq_of_lt (a := b.toNat <<< 8) (by omega), ← hor]
  omega

/-! ## Taking the trap -/

/-- A trap of another cause, or one inside a handler, is not the user handler's (R41). -/
theorem Thread.toUser_eq_false {t : Thread} {x : Trap} (h : x.cause ≠ 0x0C ∨ t.uact = true ∨ t.priv = true) :
    t.toUser x = false := by
  unfold Thread.toUser
  obtain hc | hu | hp := h
  · rw [decide_eq_false hc, Bool.false_and, Bool.false_and]
  · rw [hu, Bool.not_true, Bool.and_false, Bool.false_and]
  · rw [hp, Bool.not_true, Bool.and_false]

/-- Taking an exception is the entry of the focused thread to one of the two handlers; beside it only the lines' tags
(a poison) and the fleet block (a counter) change (R41, R42, R341, R493). -/
theorem State.takeTrap_eq (s : State) (x : Trap) : ∃ lines fleet, s.takeTrap x =
    ({ s with lines := lines, fleet := fleet } : State).withTh
      (if s.th.toUser x && !s.th.exitRoutine then s.th.enterUser x else s.th.enterSuper x) := by
  unfold State.takeTrap
  cases x.poisons with
  | none =>
    by_cases hc : x.cause = 0x0D
    · simp only [if_pos hc, ← apply_ite (State.withTh _)]; exact ⟨_, _, rfl⟩
    · simp only [if_neg hc, ← apply_ite (State.withTh _)]; exact ⟨s.lines, s.fleet, rfl⟩
  | some pa =>
    by_cases hc : x.cause = 0x0D
    · simp only [if_pos hc, ← apply_ite (State.withTh _)]; exact ⟨_, _, rfl⟩
    · simp only [if_neg hc, ← apply_ite (State.withTh _)]; exact ⟨_, s.fleet, rfl⟩

/-- A trap no user handler takes leaves the focused thread at its supervisor's entry, whatever the trap poisons or counts. -/
theorem State.takeTrap_th_of_toUser_eq_false (s : State) (x : Trap) (h : s.th.toUser x = false) :
    (s.takeTrap x).th = s.th.enterSuper x := by
  obtain ⟨lines, fleet, e⟩ := s.takeTrap_eq x
  simp only [e, h, State.withTh, Bool.false_and, Bool.false_eq_true, if_false]

/-- The entry changes no core, on whose granule the place of a scratchpad byte depends. -/
theorem State.takeTrap_cores (s : State) (x : Trap) : (s.takeTrap x).cores = s.cores := by
  obtain ⟨lines, fleet, e⟩ := s.takeTrap_eq x
  simp only [e, State.withTh]

/-- A stored byte depends on memory and the cores alone. -/
theorem State.rawByte_congr {s t : State} (hm : t.mem = s.mem) (hc : t.cores = s.cores) (pa : Nat) :
    t.rawByte pa = s.rawByte pa := by
  unfold State.rawByte State.memKey State.core
  rw [hm, hc]

theorem State.takeTrap_rawByte (s : State) (x : Trap) (pa : Nat) : (s.takeTrap x).rawByte pa = s.rawByte pa :=
  State.rawByte_congr (State.takeTrap_mem s x) (State.takeTrap_cores s x) pa

theorem exec_trap (code : BitVec 12) (s : State) : exec (.trap code) s = .next (s.takeTrap { cause := 0x10 }) := rfl
theorem exec_brk (code : BitVec 12) (s : State) : exec (.brk code) s = .next (s.takeTrap { cause := 0x0F }) := rfl

end Sys2Proof.Machine
end

section
open Sys2Proof Sys2Proof.Machine Sys2Proof.Safety

namespace Sys2Proof.Proofs

/-- Settles O11: such a trap's next state holds the thread at the supervisor's entry, whose registers are read one by
one; `trap` and `brk` are that entry itself. -/
theorem supervisorEntry : Obligations.SupervisorEntry := by
  unfold Obligations.SupervisorEntry
  refine ⟨fun s x h => ?_, fun s code => ⟨exec_trap code s, exec_brk code s⟩⟩
  have hth : (s.takeTrap x).th = s.th.enterSuper x :=
    State.takeTrap_th_of_toUser_eq_false s x (Thread.toUser_eq_false h)
  simp only [KeepsScalars, KeepsFloats, KeepsVectors, KeepsTiles, KeepsCsrs, hth]
  refine ⟨?epc, ?ecause, s.th.enterSuper_eval x, s.th.enterSuper_eelem x, s.th.enterSuper_evtype x,
    s.th.enterSuper_vtype x, s.th.enterSuper_priv x, ?ppriv, s.th.enterSuper_uact x, ?pc, s.th.enterSuper_run x,
    fun r _ => s.th.enterSuper_x x r, fun r _ => s.th.enterSuper_fr x r,
    ⟨s.th.enterSuper_slices x, s.th.enterSuper_vvalid x⟩, ⟨s.th.enterSuper_tb0 x, s.th.enterSuper_tb1 x⟩,
    s.takeTrap_rawByte x, s.th.enterSuper_get_of_notMem x, s.th.enterSuper_lsq x⟩
  case epc => rw [Thread.enterSuper_epc, BitVec.ofNat_toNat]
  case ecause => rw [Thread.enterSuper_ecause, setWidth_or_shiftLeft_eight]
  case ppriv => rw [Thread.enterSuper_status, Thread.superStatus_bit1]
  case pc => rw [Thread.enterSuper_pc, BitVec.ofNat_toNat, BitVec.setWidth_eq_extractLsb' (by decide)]

end Sys2Proof.Proofs
end

section
/-! SUPPORT. The integer instructions (spec/05_scalar_instructions.md R138 to R140) on numbers: the operation each does on
words, as the integer its rule names, reduced to 64 bits. -/

namespace Sys2Proof.Machine

/-! ## Results as integers -/

theorem eq_ofNat_of_toNat_eq {w : Nat} {x : BitVec w} {n : Nat} (h : x.toNat = n) : x = BitVec.ofNat w n := by
  rw [← h, BitVec.ofNat_toNat, BitVec.setWidth_eq]

theorem signExtend_eq_ofInt {n : Nat} (w : Nat) (i : BitVec n) : i.signExtend w = BitVec.ofInt w i.toInt := rfl

section
variable {w : Nat} (x y : BitVec w)

theorem add_ofInt (i : Int) : x + BitVec.ofInt w i = BitVec.ofInt w (x.toInt + i) := by
  rw [BitVec.ofInt_add, BitVec.ofInt_toInt]

theorem add_eq_ofInt : x + y = BitVec.ofInt w (x.toInt + y.toInt) := by
  rw [← add_ofInt, BitVec.ofInt_toInt]

theorem sub_eq_ofInt : x - y = BitVec.ofInt w (x.toInt - y.toInt) := by
  rw [Int.sub_eq_add_neg, ← add_ofInt, BitVec.ofInt_neg, BitVec.ofInt_toInt, BitVec.sub_eq_add_neg]

theorem mul_eq_ofNat : x * y = BitVec.ofNat w (x.toNat * y.toNat) := by
  rw [BitVec.ofNat_mul, BitVec.ofNat_toNat, BitVec.ofNat_toNat, BitVec.setWidth_eq, BitVec.setWidth_eq]

theorem and_eq_ofNat : x &&& y = BitVec.ofNat w (Nat.land x.toNat y.toNat) := eq_ofNat_of_toNat_eq (BitVec.toNat_and x y)

theorem or_eq_ofNat : x ||| y = BitVec.ofNat w (Nat.lor x.toNat y.toNat) := eq_ofNat_of_toNat_eq (BitVec.toNat_or x y)

theorem xor_eq_ofNat : x ^^^ y = BitVec.ofNat w (Nat.xor x.toNat y.toNat) := eq_ofNat_of_toNat_eq (BitVec.toNat_xor x y)

theorem and_not_eq_ofNat : x &&& ~~~y = BitVec.ofNat w (Nat.land x.toNat (2 ^ w - 1 - y.toNat)) := by
  rw [and_eq_ofNat, BitVec.toNat_not]

theorem shiftLeft_eq_ofNat (n : Nat) : x <<< n = BitVec.ofNat w (x.toNat * 2 ^ n) := by
  apply BitVec.eq_of_toNat_eq
  rw [BitVec.toNat_shiftLeft, BitVec.toNat_ofNat, Nat.shiftLeft_eq]

theorem ushiftRight_eq_ofNat (n : Nat) : x >>> n = BitVec.ofNat w (x.toNat / 2 ^ n) := by
  apply eq_ofNat_of_toNat_eq
  rw [BitVec.toNat_ushiftRight, Nat.shiftRight_eq_div_pow]

/-- An arithmetic shift divides by the power of two, rounding down. -/
theorem sshiftRight_eq_ofInt (n : Nat) : x.sshiftRight n = BitVec.ofInt w (x.toInt / 2 ^ n) := by
  rw [BitVec.sshiftRight, Int.shiftRight_eq_div_pow, Int.natCast_pow, Int.cast_ofNat_Int]

theorem ofInt_shiftLeft (i : Int) (n : Nat) : BitVec.ofInt w i <<< n = BitVec.ofInt w (i * 2 ^ n) := by
  rw [shiftLeft_eq_ofNat, BitVec.ofNat_mul, BitVec.ofNat_toNat, BitVec.setWidth_eq, BitVec.ofInt_mul,
    ← BitVec.ofInt_natCast w (2 ^ n), Int.natCast_pow, Int.cast_ofNat_Int]

theorem ite_slt {α : Type} (a b : α) : (if x.slt y then a else b) = if x.toInt < y.toInt then a else b := by
  simp only [BitVec.slt_eq_decide, decide_eq_true_eq]

theorem ite_ult {α : Type} (a b : α) : (if x.ult y then a else b) = if x.toNat < y.toNat then a else b := by
  simp only [BitVec.ult_eq_decide, decide_eq_true_eq]

/-- A signed comparison with a sign-extended immediate. -/
theorem ite_slt_signExtend {v : Nat} (i : BitVec v) (h : v ≤ w) {α : Type} (a b : α) :
    (if x.slt (i.signExtend w) then a else b) = if x.toInt < i.toInt then a else b := by
  rw [ite_slt, BitVec.toInt_signExtend_of_le h]

theorem sdiv_eq_ofInt : x.sdiv y = BitVec.ofInt w (x.toInt.tdiv y.toInt) := by
  apply BitVec.eq_of_toInt_eq
  rw [BitVec.toInt_sdiv, BitVec.toInt_ofInt]

theorem srem_eq_ofInt : x.srem y = BitVec.ofInt w (x.toInt.tmod y.toInt) := by
  rw [← BitVec.toInt_srem, BitVec.ofInt_toInt]

end

section
variable (a b : Word)

/-- Bits 127..64 of a 128-bit integer. -/
theorem extractLsb'_ofInt_64 (i : Int) : (BitVec.ofInt 128 i).extractLsb' 64 64 = BitVec.ofInt 64 (i / 2 ^ 64) := by
  apply BitVec.eq_of_toNat_eq
  simp only [BitVec.extractLsb'_toNat, BitVec.toNat_ofInt, Nat.shiftRight_eq_div_pow]
  omega

/-- The high half of the product of two sign-extended words. -/
theorem signExtend_mul_high :
    (a.signExtend 128 * b.signExtend 128).extractLsb' 64 64 = BitVec.ofInt 64 (a.toInt * b.toInt / 2 ^ 64) := by
  rw [signExtend_eq_ofInt, signExtend_eq_ofInt, ← BitVec.ofInt_mul, extractLsb'_ofInt_64]

/-- The high half of the product of two zero-extended words: 128 bits hold the whole product. -/
theorem setWidth_mul_high :
    (a.setWidth 128 * b.setWidth 128).extractLsb' 64 64 = BitVec.ofNat 64 (a.toNat * b.toNat / 2 ^ 64) := by
  have hlt : a.toNat * b.toNat < 2 ^ 128 :=
    calc a.toNat * b.toNat < 2 ^ 64 * 2 ^ 64 := Nat.mul_lt_mul'' a.isLt b.isLt
      _ = 2 ^ 128 := (Nat.pow_add 2 64 64).symm
  have ha : (a.setWidth 128).toNat = a.toNat := BitVec.toNat_setWidth_of_le (by decide)
  have hb : (b.setWidth 128).toNat = b.toNat := BitVec.toNat_setWidth_of_le (by decide)
  rw [BitVec.extractLsb', BitVec.toNat_mul, ha, hb, Nat.mod_eq_of_lt hlt, Nat.shiftRight_eq_div_pow]

theorem divW_eq : divW a b = if b = 0 then BitVec.allOnes 64 else BitVec.ofInt 64 (a.toInt.tdiv b.toInt) := by
  rw [divW, sdiv_eq_ofInt]

theorem divuW_eq : divuW a b = if b = 0 then BitVec.allOnes 64 else BitVec.ofNat 64 (a.toNat / b.toNat) := by
  rw [divuW, eq_ofNat_of_toNat_eq BitVec.toNat_udiv]

theorem remW_eq : remW a b = if b = 0 then a else BitVec.ofInt 64 (a.toInt.tmod b.toInt) := by
  rw [remW, srem_eq_ofInt]

theorem remuW_eq : remuW a b = if b = 0 then a else BitVec.ofNat 64 (a.toNat % b.toNat) := by
  rw [remuW, eq_ofNat_of_toNat_eq BitVec.toNat_umod]

end

/-! ## Counting and extending bits -/

section
variable (a : Word)

/-- The number of zero bits above the highest 1 bit. -/
def leadingZeros : Nat := (List.range 64).findIdx (fun i => a.getMsbD i)

/-- The number of zero bits below the lowest 1 bit. -/
def trailingZeros : Nat := (List.range 64).findIdx (fun i => a.getLsbD i)

theorem clzW_eq : clzW a = BitVec.ofNat 64 (leadingZeros a) := rfl

theorem ctzW_eq : ctzW a = BitVec.ofNat 64 (trailingZeros a) := rfl

theorem popcW_eq : popcW a = BitVec.ofNat 64 ((List.range 64).countP (fun i => a.getLsbD i)) := rfl

/-- The first place of a range where `p` holds, if it is one: none below it does. -/
theorem findIdx_range_of_exists {n : Nat} {p : Nat → Bool} (h : ∃ i < n, p i = true) :
    (List.range n).findIdx p < n ∧ p ((List.range n).findIdx p) = true ∧
      ∀ i < (List.range n).findIdx p, p i = false := by
  obtain ⟨i, hi, hp⟩ := h
  have hlt : (List.range n).findIdx p < (List.range n).length :=
    List.findIdx_lt_length.mpr ⟨i, List.mem_range.mpr hi, hp⟩
  have hat := List.findIdx_getElem (w := hlt)
  have hbelow : ∀ j < (List.range n).findIdx p, p j = false := fun j hj => by
    simpa only [List.getElem_range] using List.not_of_lt_findIdx hj
  rw [List.getElem_range] at hat
  rw [List.length_range] at hlt
  exact ⟨hlt, hat, hbelow⟩

theorem leadingZeros_zero : leadingZeros 0 = 64 := by decide

theorem trailingZeros_zero : trailingZeros 0 = 64 := by decide

theorem exists_getLsbD_of_ne_zero {a : Word} (h : a ≠ 0) : ∃ i < 64, a.getLsbD i = true := by
  apply Classical.byContradiction
  intro hnone
  apply h
  apply BitVec.eq_of_getLsbD_eq
  intro i hi
  have hbit : a.getLsbD i = false := Bool.eq_false_iff.mpr fun hset => hnone ⟨i, hi, hset⟩
  exact hbit.trans BitVec.getLsbD_zero.symm

/-- A word other than 0 lies between the power of two of its highest 1 bit and the next one. -/
theorem leadingZeros_of_ne_zero {a : Word} (h : a ≠ 0) :
    leadingZeros a ≤ 63 ∧ 2 ^ (63 - leadingZeros a) ≤ a.toNat ∧ a.toNat < 2 ^ (64 - leadingZeros a) := by
  obtain ⟨i, hi, hbit⟩ := exists_getLsbD_of_ne_zero h
  rw [BitVec.getLsbD_eq_getMsbD, decide_eq_true hi, Bool.true_and] at hbit
  obtain ⟨hlt, htop, habove⟩ := findIdx_range_of_exists (n := 64) (p := fun i => a.getMsbD i)
    ⟨64 - 1 - i, by omega, hbit⟩
  change leadingZeros a < 64 at hlt
  refine ⟨by omega, Nat.ge_two_pow_of_testBit ?_, Nat.lt_pow_two_of_testBit _ fun j hj => ?_⟩
  · rw [BitVec.getMsbD_eq_getLsbD, Bool.and_eq_true] at htop
    exact htop.2
  · change a.getLsbD j = false
    rw [BitVec.getLsbD_eq_getMsbD, Bool.and_eq_false_imp]
    intro hj64
    have := of_decide_eq_true hj64
    exact habove _ (show 64 - 1 - j < leadingZeros a by omega)

/-- A word other than 0 is an odd multiple of the power of two of its lowest 1 bit. -/
theorem trailingZeros_of_ne_zero {a : Word} (h : a ≠ 0) :
    trailingZeros a ≤ 63 ∧ a.toNat % 2 ^ trailingZeros a = 0 ∧ a.toNat / 2 ^ trailingZeros a % 2 = 1 := by
  obtain ⟨hlt, hbit, hbelow⟩ := findIdx_range_of_exists (exists_getLsbD_of_ne_zero h)
  refine ⟨Nat.le_of_lt_succ hlt, Nat.eq_of_testBit_eq fun i => ?_, ?_⟩
  · rw [Nat.zero_testBit, Nat.testBit_mod_two_pow, Bool.and_eq_false_imp]
    exact fun hi => hbelow i (of_decide_eq_true hi)
  · exact of_decide_eq_true (Nat.testBit_eq_decide_div_mod_eq.symm.trans hbit)

theorem extractLsb'_zero_eq_ofNat (n : Nat) : a.extractLsb' 0 n = BitVec.ofNat n a.toNat := rfl

/-- The low `n` bits of a word, sign-extended. -/
theorem signExtend_extractLsb'_zero (n : Nat) :
    (a.extractLsb' 0 n).signExtend 64 = BitVec.ofInt 64 (BitVec.ofNat n a.toNat).toInt := by
  rw [extractLsb'_zero_eq_ofNat, signExtend_eq_ofInt]

/-- The low `n` bits of a word, zero above. -/
theorem setWidth_extractLsb'_zero (n : Nat) : (a.extractLsb' 0 n).setWidth 64 = BitVec.ofNat 64 (a.toNat % 2 ^ n) := by
  rw [extractLsb'_zero_eq_ofNat, ← BitVec.ofNat_toNat, BitVec.toNat_ofNat]

end

/-- The address `lpc` writes (R140). -/
theorem pc_add_signExtend_shiftLeft (pc : PC) {n : Nat} (imm : BitVec n) :
    pc.setWidth 64 + (imm.signExtend 64 <<< 12) = BitVec.ofInt 64 (pc.toNat + imm.toInt * 4096) := by
  rw [signExtend_eq_ofInt, ofInt_shiftLeft, ← BitVec.ofNat_toNat, ← BitVec.ofInt_natCast, ← BitVec.ofInt_add]
  rfl

/-! ## The instructions -/

/-- An instruction that writes the word `v` writes any number equal to it. -/
theorem exec_eq_of_put {i : Instr} {s : State} {d : SReg} {v u : Word} {words : Nat} (h : exec i s = s.put d v words)
    (hv : v = u) : exec i s = .next (s.finish (s.th.setX d u) words) := by
  rw [h, hv, State.put]

end Sys2Proof.Machine
end

section
open Sys2Proof Sys2Proof.Machine Sys2Proof.Safety

namespace Sys2Proof.Proofs

/-- Settles O2: each instruction writes the word its row computes, which is the number the rule names. -/
theorem scalarRegisterResults : Obligations.ScalarRegisterResults := by
  unfold Obligations.ScalarRegisterResults
  refine ⟨fun s d a b => ?binary, fun s d a => ⟨?clz, ?ctz, ?popc, ?extend⟩⟩
  case binary =>
    intro x y
    simp only [List.forall_mem_cons]
    exact ⟨exec_eq_of_put rfl (add_eq_ofInt x y),
      exec_eq_of_put rfl (sub_eq_ofInt x y),
      exec_eq_of_put rfl (and_eq_ofNat x y),
      exec_eq_of_put rfl (or_eq_ofNat x y),
      exec_eq_of_put rfl (xor_eq_ofNat x y),
      exec_eq_of_put rfl (and_not_eq_ofNat x y),
      exec_eq_of_put rfl (shiftLeft_eq_ofNat x _),
      exec_eq_of_put rfl (ushiftRight_eq_ofNat x _),
      exec_eq_of_put rfl (sshiftRight_eq_ofInt x _),
      exec_eq_of_put rfl (ite_slt x y 1 0),
      exec_eq_of_put rfl (ite_ult x y 1 0),
      exec_eq_of_put rfl (ite_slt x y x y),
      exec_eq_of_put rfl (ite_slt x y y x),
      exec_eq_of_put rfl (ite_ult x y x y),
      exec_eq_of_put rfl (ite_ult x y y x),
      exec_eq_of_put rfl (mul_eq_ofNat x y),
      exec_eq_of_put rfl (signExtend_mul_high x y),
      exec_eq_of_put rfl (setWidth_mul_high x y),
      exec_eq_of_put rfl (divW_eq x y),
      exec_eq_of_put rfl (divuW_eq x y),
      exec_eq_of_put rfl (remW_eq x y),
      exec_eq_of_put rfl (remuW_eq x y),
      List.forall_mem_nil _⟩
  case clz =>
    exact ⟨_, exec_eq_of_put rfl (clzW_eq _), fun h => (congrArg leadingZeros h).trans leadingZeros_zero,
      leadingZeros_of_ne_zero⟩
  case ctz =>
    exact ⟨_, exec_eq_of_put rfl (ctzW_eq _), fun h => (congrArg trailingZeros h).trans trailingZeros_zero,
      trailingZeros_of_ne_zero⟩
  case popc => exact exec_eq_of_put rfl (popcW_eq _)
  case extend =>
    simp only [List.forall_mem_cons]
    exact ⟨⟨exec_eq_of_put rfl (signExtend_extractLsb'_zero _ 8), exec_eq_of_put rfl (setWidth_extractLsb'_zero _ 8)⟩,
      ⟨exec_eq_of_put rfl (signExtend_extractLsb'_zero _ 16), exec_eq_of_put rfl (setWidth_extractLsb'_zero _ 16)⟩,
      ⟨exec_eq_of_put rfl (signExtend_extractLsb'_zero _ 32), exec_eq_of_put rfl (setWidth_extractLsb'_zero _ 32)⟩,
      List.forall_mem_nil _⟩

/-- Settles O3: an immediate is its integer, and the instruction's word is what its register counterpart's is with it. -/
theorem scalarImmediateResults : Obligations.ScalarImmediateResults := by
  unfold Obligations.ScalarImmediateResults
  refine ⟨fun s d a i14 i34 i12 i13 sh => ?immediate, fun s d i20 i40 => ?high⟩
  case immediate =>
    intro x
    simp only [List.forall_mem_cons]
    exact ⟨exec_eq_of_put rfl (add_ofInt x _),
      exec_eq_of_put rfl (add_ofInt x _),
      exec_eq_of_put rfl (congrArg (x &&& ·) (signExtend_eq_ofInt 64 i12)),
      exec_eq_of_put rfl (congrArg (x ||| ·) (signExtend_eq_ofInt 64 i12)),
      exec_eq_of_put rfl (congrArg (x ^^^ ·) (signExtend_eq_ofInt 64 i12)),
      exec_eq_of_put rfl (shiftLeft_eq_ofNat x _),
      exec_eq_of_put rfl (ushiftRight_eq_ofNat x _),
      exec_eq_of_put rfl (sshiftRight_eq_ofInt x _),
      exec_eq_of_put rfl (ite_slt_signExtend x i13 (by decide) 1 0),
      exec_eq_of_put rfl (ite_ult x _ 1 0),
      List.forall_mem_nil _⟩
  case high =>
    simp only [List.forall_mem_cons]
    exact ⟨exec_eq_of_put rfl (ofInt_shiftLeft _ 12),
      exec_eq_of_put rfl (ofInt_shiftLeft _ 12),
      exec_eq_of_put rfl (pc_add_signExtend_shiftLeft _ _),
      exec_eq_of_put rfl (pc_add_signExtend_shiftLeft _ _),
      List.forall_mem_nil _⟩

end Sys2Proof.Proofs
end
